-- ==== Sys2Proof/Word.lean ====
section
/-!
DEFINITION. The plain types of the model: bytes, register words, identifiers and sparse maps.
Data is little-endian and bit ranges are written [msb:lsb] (R17); registers are 64 bits wide (R19).
-/

namespace Sys2Proof

/-- One byte. -/
abbrev Byte := BitVec 8

/-- One 64-bit register (R19). -/
abbrev Word := BitVec 64

/-- A sparse table: keys strictly rising, no entry equal to what an unlisted key reads as. -/
abbrev SMap (α : Type) := List (Nat × α)

/-- A string of bytes, first byte at the lowest address. -/
abbrev Bytes := List Byte

/-- One 4 KiB tile register: byte i in bits [8i + 7 : 8i]. -/
abbrev Tile := BitVec 32768

end Sys2Proof
end

