-- ==== Sys2Proof/Syntax.lean ====
section
/-!
DEFINITION. The commands of the block: one constructor per row of spec/opcode_table.json.
-/

namespace Sys2Proof

/-- Who makes a register access, in the order of the arbiter (R45). -/
inductive Master where
  | aon | bureau | mgmt | host
  deriving DecidableEq, Repr

/-- One slot of a bundle that issues at cluster cl (R157): NEG, PREG and the 22 operand bits; the opcode is the
command's. last marks the slot that closes the bundle (log entry 3). -/
structure Slot where
  cl : Nat
  neg : Bool := false
  preg : BitVec 3 := 0
  last : Bool := true
  args : BitVec 22 := 0
  deriving DecidableEq, Repr

/-- A slot of s.st, with the words that its store loses to a merged write: each the number of its 8 bytes and the winning master
(R510). -/
structure StoreSlot extends Slot where
  lost : List (Nat × Nat) := []
  deriving DecidableEq, Repr

/-- The end of the work at a number (a cluster, a unit, an operation, a target), with the device addresses of the scratchpad words that
its writes lose to a merged write and the winning master of each (R510). -/
structure Done where
  n : Nat
  lost : List (Nat × Nat) := []
  deriving DecidableEq, Repr

/-- A cluster whose SEQ_SPM_LOST is cleared, with the words that its scratchpad loses in the same cycle: master, offset and winner (R23,
R511). -/
structure LostNow where
  c : Nat
  lost : List (Nat × Nat × Nat) := []
  deriving DecidableEq, Repr

/-- A read of n bytes of CSR space at an offset by a master (R21), by default of the whole register AON_POWER. -/
structure CsrRead where
  src : Master
  off : Nat := 0x100020
  n : Nat := 8
  deriving DecidableEq, Repr

/-- A packet at a Nonex port, whole: header, payload and trailer (R604), the virtual channel it came on, whether its
destination in the device cannot take it at once (R625), and the device addresses of the scratchpad words that its write loses to a
merged write, with the winning master (R510). -/
structure Packet where
  port : Nat
  vc : Nat
  bytes : Bytes
  park : Bool := false
  lost : List (Nat × Nat) := []
  deriving DecidableEq, Repr

/-- A word of an on-chip memory without a poison unit (R763 to R765): of Bureau SRAM; of the tile registers, planes and accumulators
of a cluster, by its number among them; of a hub cache line; of a sync object, a tracker, a Cabinet record or a bias entry. -/
inductive SramWord where
  | bureau
  | cluster (c w : Nat)
  | cacheLine (line : Nat)
  | syncObj (i : Nat)
  | tracker (k : Nat)
  | cabinet (x p i : Nat)
  | bias (i : Nat)
  deriving DecidableEq, Repr

/-- What a read finds in the codes that protect a memory (R760 to R762). -/
inductive Ecc where
  | clean | corrected | uncorrectable
  deriving DecidableEq, Repr

/-- A RoCEv2 request at a network port, whole: the local queue pair it names, its partition key, first PSN, key, remote virtual
address and data, and the scratchpad words that its write loses (R510). -/
structure Rdma where
  port : Nat
  qp : Nat
  pkey : Nat
  psn : Nat
  rkey : Nat
  addr : Nat
  data : Bytes
  lost : List (Nat × Nat) := []
  deriving DecidableEq, Repr

/-- A command. Each constructor is one row of spec/opcode_table.json; its operands are the row's. -/
inductive Instr where
  /-- CSR_WRITE (R20). -/
  | csrWrite (src : Master) (off : Nat) (data : Bytes)
  /-- AON_POWER_READ (R21, R22). -/
  | aonPowerRead (r : CsrRead)
  /-- LOAD (R83). -/
  | load (src : Master) (w : Word)
  /-- LOAD_COMPLETE (R903). -/
  | loadComplete
  /-- START (R82). -/
  | start (src : Master) (w : Word)
  /-- START_COMPLETE (R903). -/
  | startComplete
  /-- UNLOAD (R82). -/
  | unload (src : Master) (w : Word)
  /-- UNLOAD_COMPLETE (R562). -/
  | unloadComplete
  /-- PLAN_STOP_WRITE (R99). -/
  | planStopWrite (src : Master) (x : Nat) (w : Word)
  /-- START_AGREEMENT_COMPLETE (R109). -/
  | startAgreementComplete (x : Nat)
  /-- CONTEXT_WAKE (R729). -/
  | contextWake (x : Nat)
  /-- STEP_START (R111). -/
  | stepStart (x : Nat)
  /-- STEP_WATCHDOG (R102). -/
  | stepWatchdog (x : Nat)
  /-- DRAIN_COMPLETE (R103). -/
  | drainComplete (x : Nat)
  /-- BOUNDARY_COMPLETE (R105). -/
  | boundaryComplete (x : Nat)
  /-- JOURNAL_WAIT_TIMEOUT (R720). -/
  | journalWaitTimeout (x : Nat)
  /-- SYNC_UPDATE_APPLY (R113). -/
  | syncUpdateApply (k : Nat)
  /-- WAIT_COMPLETE (R122). -/
  | waitComplete (c : Nat)
  /-- TRACKER_COMPLETE (R129). -/
  | trackerComplete (k : Nat)
  /-- TRACKER_TIMEOUT (R652). -/
  | trackerTimeout (k : Nat)
  /-- DMA_SEGMENT_START (R188). -/
  | dmaSegmentStart (c : Nat) (e : Ecc)
  /-- LOCAL_WRITE_PERFORM (R900). -/
  | localWritePerform (k : Nat) (lost : List (Nat × Nat))
  /-- CLUSTER_GATE (R134). -/
  | clusterGate (c : Nat)
  /-- WAKE_STOP (R135). -/
  | wakeStop (x : Nat) (e : Nat)
  /-- WAKE_START (R136). -/
  | wakeStart (x : Nat) (e : Nat)
  /-- GROUP_PLL_LOCKED (R136). -/
  | groupPllLocked (g : Nat)
  /-- BACKGROUND_WINDOW_OPEN (R138). -/
  | backgroundWindowOpen (r : Nat) (n : Nat)
  /-- BACKGROUND_WINDOW_CLOSE (R139). -/
  | backgroundWindowClose (r : Nat) (n : Nat)
  /-- CODE_FETCH (R209). -/
  | codeFetch (c : Nat) (e : Ecc)
  /-- S_NOP (R158). -/
  | sNop (a : Slot) (slot : Nat) (opc : Nat)
  /-- S_ALU (R164). -/
  | sAlu (a : Slot)
  /-- S_ADDI (R163). -/
  | sAddi (a : Slot)
  /-- S_ANDI (R163). -/
  | sAndi (a : Slot)
  /-- S_ORI (R163). -/
  | sOri (a : Slot)
  /-- S_XORI (R163). -/
  | sXori (a : Slot)
  /-- S_SHLI (R163). -/
  | sShli (a : Slot)
  /-- S_SHRI (R163). -/
  | sShri (a : Slot)
  /-- S_SRAI (R163). -/
  | sSrai (a : Slot)
  /-- S_MOVI (R163). -/
  | sMovi (a : Slot)
  /-- S_MOVK (R163). -/
  | sMovk (a : Slot) (hi : Bool)
  /-- S_LD (R168). -/
  | sLd (a : Slot) (e : Ecc)
  /-- S_ST (R168). -/
  | sSt (a : StoreSlot)
  /-- S_CMP (R166). -/
  | sCmp (a : Slot)
  /-- S_CMPI (R166). -/
  | sCmpi (a : Slot)
  /-- S_POP (R167). -/
  | sPop (a : Slot)
  /-- S_SEL (R163). -/
  | sSel (a : Slot)
  /-- S_MOVA (R163). -/
  | sMova (a : Slot)
  /-- S_MOVS (R163). -/
  | sMovs (a : Slot)
  /-- S_AADDI (R163). -/
  | sAaddi (a : Slot)
  /-- S_AADD (R163). -/
  | sAadd (a : Slot)
  /-- S_BR (R173). -/
  | sBr (a : Slot)
  /-- S_CALL (R173). -/
  | sCall (a : Slot)
  /-- S_JR (R173). -/
  | sJr (a : Slot)
  /-- S_LOOP (R176). -/
  | sLoop (a : Slot)
  /-- S_LPOP (R178). -/
  | sLpop (a : Slot)
  /-- S_CSRR (R203). -/
  | sCsrr (a : Slot)
  /-- S_CSRW (R205). -/
  | sCsrw (a : Slot)
  /-- S_TRAP (R208). -/
  | sTrap (a : Slot)
  /-- MX_GEMM (R359). -/
  | mxGemm (a : Slot)
  /-- MX_GEMM_GRP (R377). -/
  | mxGemmGrp (a : Slot)
  /-- MX_GEMM_SP (R414). -/
  | mxGemmSp (a : Slot)
  /-- MX_LOAD (R362). -/
  | mxLoad (a : Slot)
  /-- MX_DRAIN (R363). -/
  | mxDrain (a : Slot)
  /-- MX_DESC_START (R361). -/
  | mxDescStart (c : Nat)
  /-- MX_DESC_COMPLETE (R358). -/
  | mxDescComplete (c : Done)
  /-- MXA_RAMP_TICK (R397). -/
  | mxaRampTick (c : Nat)
  /-- MXA_GAP_EXPIRE (R397). -/
  | mxaGapExpire (c : Nat)
  /-- VX_RUN (R491). -/
  | vxRun (a : Slot)
  /-- VX_WMAX (R496). -/
  | vxWmax (a : Slot)
  /-- VX_DESC_START (R494). -/
  | vxDescStart (c : Nat)
  /-- VX_DESC_COMPLETE (R495). -/
  | vxDescComplete (c : Done)
  /-- VX_ADD (R465). -/
  | vxAdd (a : Slot)
  /-- VX_SUB (R465). -/
  | vxSub (a : Slot)
  /-- VX_MUL (R465). -/
  | vxMul (a : Slot)
  /-- VX_FMA (R465). -/
  | vxFma (a : Slot)
  /-- VX_FNMA (R465). -/
  | vxFnma (a : Slot)
  /-- VX_DIV (R465). -/
  | vxDiv (a : Slot)
  /-- VX_SQRT (R465). -/
  | vxSqrt (a : Slot)
  /-- VX_MIN (R468). -/
  | vxMin (a : Slot)
  /-- VX_MAX (R468). -/
  | vxMax (a : Slot)
  /-- VX_ABS (R468). -/
  | vxAbs (a : Slot)
  /-- VX_NEG (R468). -/
  | vxNeg (a : Slot)
  /-- VX_AND (R465). -/
  | vxAnd (a : Slot)
  /-- VX_OR (R465). -/
  | vxOr (a : Slot)
  /-- VX_XOR (R465). -/
  | vxXor (a : Slot)
  /-- VX_ANDN (R465). -/
  | vxAndn (a : Slot)
  /-- VX_SHL (R469). -/
  | vxShl (a : Slot)
  /-- VX_SHR (R469). -/
  | vxShr (a : Slot)
  /-- VX_SRA (R469). -/
  | vxSra (a : Slot)
  /-- VX_CEQ (R471). -/
  | vxCeq (a : Slot)
  /-- VX_CNE (R471). -/
  | vxCne (a : Slot)
  /-- VX_CLT (R471). -/
  | vxClt (a : Slot)
  /-- VX_CLE (R471). -/
  | vxCle (a : Slot)
  /-- VX_SEL (R465). -/
  | vxSel (a : Slot)
  /-- VX_MOV (R465). -/
  | vxMov (a : Slot)
  /-- VX_BCAST (R465). -/
  | vxBcast (a : Slot)
  /-- VX_IOTA (R465). -/
  | vxIota (a : Slot)
  /-- VX_RNG (R478). -/
  | vxRng (a : Slot)
  /-- VX_RSUM (R473). -/
  | vxRsum (a : Slot)
  /-- VX_RMAX (R473). -/
  | vxRmax (a : Slot)
  /-- VX_TR (R472). -/
  | vxTr (a : Slot)
  /-- VX_CMPR (R484). -/
  | vxCmpr (a : Slot)
  /-- VX_EXPD (R485). -/
  | vxExpd (a : Slot)
  /-- VX_POPC (R465). -/
  | vxPopc (a : Slot)
  /-- VX_EXP (R482). -/
  | vxExp (a : Slot)
  /-- VX_LOG (R482). -/
  | vxLog (a : Slot)
  /-- VX_RSQRT (R483). -/
  | vxRsqrt (a : Slot)
  /-- VX_TANH (R482). -/
  | vxTanh (a : Slot)
  /-- VX_ERF (R482). -/
  | vxErf (a : Slot)
  /-- VX_SIN (R482). -/
  | vxSin (a : Slot)
  /-- VX_COS (R482). -/
  | vxCos (a : Slot)
  /-- VX_CVT (R479). -/
  | vxCvt (a : Slot)
  /-- VX_LDT (R200). -/
  | vxLdt (a : Slot)
  /-- VX_STT (R200). -/
  | vxStt (a : Slot) (lost : List (Nat × Nat))
  /-- SYNC_INC (R193). -/
  | syncInc (a : Slot)
  /-- SYNC_INCR (R193). -/
  | syncIncr (a : Slot)
  /-- SYNC_ADD (R193). -/
  | syncAdd (a : Slot)
  /-- SYNC_ADDR (R193). -/
  | syncAddr (a : Slot)
  /-- SYNC_WAIT (R195). -/
  | syncWait (a : Slot)
  /-- SYNC_WAITR (R195). -/
  | syncWaitr (a : Slot)
  /-- SYNC_ENDSTEP (R198). -/
  | syncEndstep (a : Slot)
  /-- FAB_DMA (R191). -/
  | fabDma (a : Slot)
  /-- FAB_AMO (R635). -/
  | fabAmo (a : Slot)
  /-- DRS_TOPK (R244). -/
  | drsTopk (a : Slot)
  /-- DRS_ASSIGN (R264). -/
  | drsAssign (a : Slot)
  /-- DRS_BIAS (R256). -/
  | drsBias (a : Slot)
  /-- DRS_DESC_START (R230). -/
  | drsDescStart (u : Nat)
  /-- DRS_DESC_COMPLETE (R232). -/
  | drsDescComplete (u : Done) (k : Nat)
  /-- ALLREDUCE (R672). -/
  | allreduce (a : Slot)
  /-- REDUCE_SCATTER (R666). -/
  | reduceScatter (a : Slot)
  /-- ALLGATHER (R666). -/
  | allgather (a : Slot)
  /-- BROADCAST (R666). -/
  | broadcast (a : Slot)
  /-- BARRIER (R666). -/
  | barrier (a : Slot)
  /-- COUNT (R297). -/
  | count (a : Slot)
  /-- DISPATCH (R305). -/
  | dispatch (a : Slot)
  /-- RETURN (R313). -/
  | xchgReturn (a : Slot)
  /-- REDUCE (R318). -/
  | reduce (a : Slot)
  /-- COLL_OP_START (R668). -/
  | collOpStart (k : Nat)
  /-- COLL_OP_COMPLETE (R687). -/
  | collOpComplete (k : Done) (peers : List (Nat × Bytes))
  /-- COLL_CHUNK_CONSUME (R683). -/
  | collChunkConsume (k : Nat)
  /-- TIER_STAGE (R566). -/
  | tierStage (a : Slot)
  /-- DROP (R566). -/
  | drop (a : Slot)
  /-- FLUSH (R566). -/
  | flush (a : Slot)
  /-- ADVANCE (R563). -/
  | advance (a : Slot)
  /-- CREAD (R566). -/
  | cread (a : Slot)
  /-- CWRITE (R573). -/
  | cwrite (a : Slot)
  /-- TRIM (R566). -/
  | trim (a : Slot)
  /-- TIER_CMD_COMPLETE (R567). -/
  | tierCmdComplete (c : Done) (k : Nat) (e : Ecc)
  /-- PREFETCH_ENTRY_START (R563). -/
  | prefetchEntryStart (x : Nat)
  /-- AGEING_EVICT (R556). -/
  | ageingEvict (x : Nat) (obj : Nat) (pool : Nat)
  /-- EVICTION_WRITEBACK_DONE (R557). -/
  | evictionWritebackDone (x : Nat) (obj : Nat) (pool : Nat)
  /-- CKP_SNAP (R778). -/
  | ckpSnap (a : Slot)
  /-- COW_COPY_COMPLETE (R781). -/
  | cowCopyComplete (x : Nat) (u : Nat) (e : Ecc)
  /-- SNAPSHOT_DONE (R783). -/
  | snapshotDone (x : Nat)
  /-- RESTORE_GO (R789). -/
  | restoreGo (src : Master) (w : Word)
  /-- RESTORE_COMPLETE (R789). -/
  | restoreComplete
  /-- STAGE (R326). -/
  | stage (src : Master) (w : Word)
  /-- CANCEL (R326). -/
  | cancel (src : Master) (w : Word)
  /-- PLACE_CMD_COMPLETE (R326). -/
  | placeCmdComplete
  /-- PLACE_SWAP_WRITE (R324). -/
  | placeSwapWrite (src : Master) (w : Word)
  /-- SEQ_REG_ACCESS (R222). -/
  | seqRegAccess (src : Master) (off : Nat) (wr : Option Word)
  /-- SPM_LOST_CLEAR (R511), with the words that masters of the cluster lose in the same cycle: master and offset (R23). -/
  | spmLostClear (src : Master) (c : LostNow) (w : Word)
  /-- HC_INVALIDATE (R523). -/
  | hcInvalidate (w : Word)
  /-- HC_INVALIDATE_DONE (R523). -/
  | hcInvalidateDone
  /-- CABINET_ALLOC (R532). -/
  | cabinetAlloc (x : Nat) (c : Nat) (n : Nat) (owner : Nat)
  /-- CABINET_HANDOFF (R532). -/
  | cabinetHandoff (x : Nat) (p : Nat) (i : Nat) (by_ : Nat) (to_ : Nat)
  /-- CABINET_RELEASE (R532). -/
  | cabinetRelease (x : Nat) (p : Nat) (i : Nat) (by_ : Nat)
  /-- TIER_POOL_WRITE (R547). -/
  | tierPoolWrite (src : Master) (t : Nat) (w : Word)
  /-- CHEST_CFG_WRITE (R588). -/
  | chestCfgWrite (src : Master) (w : Word)
  /-- CREATE (R584). -/
  | create (src : Master) (w : Word)
  /-- DELETE (R585). -/
  | delete (src : Master) (w : Word)
  /-- FORMAT (R585). -/
  | format (src : Master) (w : Word)
  /-- NS_CMD_COMPLETE (R584). -/
  | nsCmdComplete (base : Nat)
  /-- CHEST_MOUNT_COMPLETE (R583). -/
  | chestMountComplete
  /-- CHEST_UNIT_PROGRAMMED (R573). -/
  | chestUnitProgrammed (c : Nat) (k : Nat) (fail : Bool)
  /-- WEAR_LEVEL (R576). -/
  | wearLevel (fail : Bool)
  /-- READ_DISTURB_RELOCATE (R577). -/
  | readDisturbRelocate (b : Nat) (fail : Bool)
  /-- MAP_CHECKPOINT (R578). -/
  | mapCheckpoint
  /-- SUPERFRAME_RECEIVE (R593). -/
  | superframeReceive (n : Nat) (lw : Nat) (bad : Bool) (ce : Bool)
  /-- RETRAIN (R598). -/
  | retrain (n : Nat)
  /-- DROP_PAIR (R599). -/
  | dropPair (n : Nat) (j : Nat)
  /-- SWING (R602). -/
  | swing (arg : Nat)
  /-- LANE_RETRAIN_DONE (R598). -/
  | laneRetrainDone (n : Nat)
  /-- LANE_RETRAIN_FAIL (R599). -/
  | laneRetrainFail (n : Nat) (j : Nat)
  /-- HOLD_TIMEOUT (R598). -/
  | holdTimeout (n : Nat)
  /-- SWING_WAIT_TIMEOUT (R601). -/
  | swingWaitTimeout (n : Nat)
  /-- PORT_TRAINING_DONE (R597). -/
  | portTrainingDone (n : Nat) (ns : Nat) (major : Nat) (minor : Nat)
  /-- SWING_GO (R602). -/
  | swingGo (src : Master) (w : Word)
  /-- SWING_COMPLETE (R602). -/
  | swingComplete
  /-- SWING_RELEASE (R603). -/
  | swingRelease (src : Master) (w : Word)
  /-- PACKET_FORWARD (R617). -/
  | packetForward (k : Nat) (far : Nat)
  /-- COMBINE_ENTRY_TIMEOUT (R642). -/
  | combineEntryTimeout (e : Nat)
  /-- WRITE (R630). -/
  | write (p : Packet)
  /-- WRITE_SHORT (R607). -/
  | writeShort (p : Packet)
  /-- READ (R630). -/
  | read (p : Packet)
  /-- AMO (R636). -/
  | amo (p : Packet)
  /-- AMO_FETCH (R636). -/
  | amoFetch (p : Packet)
  /-- ACK (R627). -/
  | ack (p : Packet)
  /-- READ_RESP (R633). -/
  | readResp (p : Packet)
  /-- AMO_RESP (R637). -/
  | amoResp (p : Packet)
  /-- NACK (R654). -/
  | nack (p : Packet)
  /-- COLL (R684). -/
  | coll (p : Packet)
  /-- COLL_LL (R684). -/
  | collLl (p : Packet)
  /-- PARKED_PACKET_PERFORM (R625). -/
  | parkedPacketPerform (k : Nat)
  /-- MGMT_CSR (R869). -/
  | mgmtCsr (p : Packet)
  /-- MGMT_SWING (R868). -/
  | mgmtSwing (p : Packet)
  /-- DISC_START (R647). -/
  | discStart (src : Master) (w : Word)
  /-- DISC (R648). -/
  | disc (p : Packet)
  /-- DISC_TIMEOUT (R647). -/
  | discTimeout
  /-- FAB_PKEY_WRITE (R659). -/
  | fabPkeyWrite (src : Master) (k : Nat) (w : Word)
  /-- CTX_PKEY_WRITE (R660). -/
  | ctxPkeyWrite (src : Master) (x : Nat) (w : Word)
  /-- FAB_CONFIG_WRITE (R656). -/
  | fabConfigWrite (src : Master) (reg : Nat) (w : Word)
  /-- TRESTLE_EXCHANGE (R705). -/
  | trestleExchange
  /-- TIME (R705). -/
  | time (p : Packet)
  /-- TIME_EXCHANGE_MISSED (R707). -/
  | timeExchangeMissed
  /-- TRS_CFG_WRITE (R725). -/
  | trsCfgWrite (src : Master) (w : Word)
  /-- JHEAD_WRITE (R721). -/
  | jheadWrite (src : Master) (x : Nat) (w : Word)
  /-- JOURNAL_RING_WRITE (R726). -/
  | journalRingWrite (src : Master) (x : Nat) (size : Bool) (w : Word)
  /-- JOURNAL_EXPORT (R810). -/
  | journalExport (x : Nat)
  /-- KILL (R755). -/
  | kill (src : Master) (x : Nat) (w : Word)
  /-- TEARDOWN (R755). -/
  | teardown (src : Master) (x : Nat) (w : Word)
  /-- HOLD_EXPIRE (R752). -/
  | holdExpire (x : Nat)
  /-- QUIESCE_DONE (R752). -/
  | quiesceDone (x : Nat)
  /-- RELEASE_DONE (R752). -/
  | releaseDone (x : Nat)
  /-- CLEAR_DONE (R752). -/
  | clearDone (x : Nat)
  /-- SCRUB_READ (R767). -/
  | scrubRead (flash : Bool) (a : Nat) (e : Ecc) (weak : Bool)
  /-- PF_BAR2_ACCESS (R796). -/
  | pfBar2Access (off : Nat) (n : Nat) (wr : Option Bytes)
  /-- VF_BAR0_ACCESS (R798). -/
  | vfBar0Access (n : Nat) (off : Nat) (wr : Option Word)
  /-- VF_BAR2_ACCESS (R799). -/
  | vfBar2Access (n : Nat) (off : Nat) (len : Nat) (wr : Option Bytes)
  /-- VF_CFG_WRITE (R827). -/
  | vfCfgWrite (src : Master) (n : Nat) (w : Word)
  /-- VF_FLR (R801). -/
  | vfFlr (n : Nat)
  /-- PF_FLR (R801). -/
  | pfFlr
  /-- HOT_RESET (R801). -/
  | hotReset
  /-- HOST_LINK_DOWN (R801). -/
  | hostLinkDown
  /-- RDMA_WRITE_IN (R812). -/
  | rdmaWriteIn (r : Rdma)
  /-- RDMA_WRITE_IMM_IN (R813). -/
  | rdmaWriteImmIn (r : Rdma) (imm : Nat)
  /-- INVALID_OPCODE_IN (R804). -/
  | invalidOpcodeIn (r : Rdma)
  /-- RDMA_ACK_IN (R783). -/
  | rdmaAckIn (t : Nat) (psn : Nat)
  /-- RDMA_READ_RESP_IN (R789). -/
  | rdmaReadRespIn (t : Done) (data : Bytes)
  /-- RDMA_ACK_TIMEOUT (R804). -/
  | rdmaAckTimeout (t : Nat)
  /-- NET_TGT_COMMIT (R807). -/
  | netTgtCommit (src : Master) (t : Nat) (w : Word)
  /-- NET_ING_COMMIT (R811). -/
  | netIngCommit (src : Master) (i : Nat) (w : Word)
  /-- MCTP_CONTROL (R820). -/
  | mctpControl (path : Nat)
  /-- PLDM_MONITORING (R820). -/
  | pldmMonitoring (path : Nat)
  /-- REQUEST_UPDATE (R840). -/
  | requestUpdate (path : Nat) (slot : Nat)
  /-- FIRMWARE_STORE_WRITE (R840). -/
  | firmwareStoreWrite (off : Nat) (data : Bytes) (last : Bool)
  /-- ACTIVATE_FIRMWARE (R840). -/
  | activateFirmware (path : Nat) (record : Bytes)
  /-- GET_VERSION (R821). -/
  | getVersion (path : Nat)
  /-- GET_CAPABILITIES (R821). -/
  | getCapabilities (path : Nat)
  /-- NEGOTIATE_ALGORITHMS (R821). -/
  | negotiateAlgorithms (path : Nat)
  /-- GET_DIGESTS (R821). -/
  | getDigests (path : Nat)
  /-- GET_CERTIFICATE (R844). -/
  | getCertificate (path : Nat) (n : Nat)
  /-- CHALLENGE (R821). -/
  | challenge (path : Nat)
  /-- GET_MEASUREMENTS (R841). -/
  | getMeasurements (path : Nat) (ix : Nat)
  /-- MGMT_PORT_CSR (R852). -/
  | mgmtPortCsr (path : Nat) (body : Bytes)
  /-- IDENTITY_MEMORY_MSG (R820). -/
  | identityMemoryMsg (path : Nat) (blk : Nat) (wr : Option Bytes)
  /-- ENTDAA (R818). -/
  | entdaa (addr : Nat)
  /-- I3C_STUCK_DETECT (R826). -/
  | i3cStuckDetect
  /-- I3C_RECOVERY_END (R826). -/
  | i3cRecoveryEnd (high : Bool)
  /-- REARM (R826). -/
  | rearm (src : Master) (w : Word) (high : Bool)
  /-- IDM_READ (R825). -/
  | idmRead (src : Master) (w : Word)
  /-- IDM_WRITE (R825). -/
  | idmWrite (src : Master) (w : Word)
  /-- IDM_WRITE_COMPLETE (R825). -/
  | idmWriteComplete
  /-- PWR_GOOD_RISE (R828). -/
  | pwrGoodRise
  /-- PWR_GOOD_FALL (R881). -/
  | pwrGoodFall
  /-- PERST_ASSERT (R830). -/
  | perstAssert
  /-- PERST_DEASSERT (R832). -/
  | perstDeassert
  /-- HUB_PLL_LOCK (R832). -/
  | hubPllLock
  /-- CLUSTER_BIST_DONE (R832). -/
  | clusterBistDone (bad : List Nat)
  /-- FIRMWARE_SLOT_SELECT (R837). -/
  | firmwareSlotSelect
  /-- HBM_TRAINING_DONE (R832). -/
  | hbmTrainingDone (bad : List Nat)
  /-- CAPACITY_TRAINING_DONE (R542). -/
  | capacityTrainingDone (bad : Nat) (dies : Nat) (bpd : Nat) (upb : Nat) (endur : Nat) (wrong : Nat)
  /-- HUB_PLL_LOCK_LOSS (R747). -/
  | hubPllLockLoss
  /-- GROUP_PLL_LOCK_LOSS (R864). -/
  | groupPllLockLoss (g : Nat)
  /-- PWR_DOMAIN_OFF (R848). -/
  | pwrDomainOff (src : Master) (w : Word)
  /-- PWR_DOMAIN_ON (R848). -/
  | pwrDomainOn (src : Master) (w : Word)
  /-- PWR_DOMAIN_RESET (R848). -/
  | pwrDomainReset (src : Master) (w : Word)
  /-- DOMAIN_USABLE (R849). -/
  | domainUsable (n : Nat)
  /-- AON_TEARDOWN (R858). -/
  | aonTeardown (src : Master) (arg : Nat)
  /-- LINK_DISABLE (R858). -/
  | linkDisable (src : Master) (arg : Nat)
  /-- LINK_ENABLE (R858). -/
  | linkEnable (src : Master) (arg : Nat)
  /-- DOMAIN_RESET (R858). -/
  | domainReset (src : Master) (arg : Nat)
  /-- DOMAIN_OFF (R858). -/
  | domainOff (src : Master) (arg : Nat)
  /-- DOMAIN_ON (R858). -/
  | domainOn (src : Master) (arg : Nat)
  /-- QUOTE (R845). -/
  | quote (src : Master)
  /-- THERMAL_SHUTDOWN (R856). -/
  | thermalShutdown (src : Master)
  /-- COLD_RESET (R828). -/
  | coldReset (src : Master)
  /-- AON_OP_COMPLETE (R860). -/
  | aonOpComplete
  /-- TEARDOWN_ESCALATE (R861). -/
  | teardownEscalate
  /-- CONFIRM (R838). -/
  | confirm (src : Master) (w : Word)
  /-- CONFIRM_TIMEOUT (R838). -/
  | confirmTimeout
  /-- MR_EXTEND (R842). -/
  | mrExtend (src : Master) (w : Word)
  /-- CLOCK_CONTROL_TICK (R853). -/
  | clockControlTick
  /-- PWRBRK_ASSERT (R855). -/
  | pwrbrkAssert
  /-- PWRBRK_RELEASE (R855). -/
  | pwrbrkRelease
  /-- SENSOR_SAMPLE (R866). -/
  | sensorSample (ts : List Nat) (power : Nat)
  /-- TELEMETRY_SEND (R867). -/
  | telemetrySend
  /-- RECEIVER_LOSS_OF_LOCK (R598). -/
  | receiverLossOfLock (n : Nat)
  /-- HUB_PLL_RELOCK (R61). -/
  | hubPllRelock
  /-- PREFETCH_ENTRY_COMPLETE (R563). -/
  | prefetchEntryComplete (x : Nat) (k : Nat) (e : Ecc)
  /-- BUREAU_SRAM_UNCORRECTABLE (R765). -/
  | bureauSramUncorrectable (w : SramWord)
  /-- HOST_LINK_UP (R793). -/
  | hostLinkUp (speed : Nat) (width : Nat) (flit : Bool)
  /-- NETWORK_LINK_UP (R803). -/
  | networkLinkUp (p : Nat) (mode : Nat)
  /-- NETWORK_LINK_DOWN (R803). -/
  | networkLinkDown (p : Nat)
  /-- RDMA_NAK_IN (R785). -/
  | rdmaNakIn (t : Nat)
  /-- PRIORITY_FLOW_CONTROL_FRAME (R803). -/
  | priorityFlowControlFrame (p : Nat) (prio : Nat) (pause : Bool)
  /-- CONGESTION_NOTIFICATION_PACKET (R804). -/
  | congestionNotificationPacket (qp : Nat)
  deriving DecidableEq, Repr

end Sys2Proof
end

