-- ==== Sys2Proof/Config.lean ====
section
/-!
DEFINITION. Free values: constants without a body, one argument counting the uses, so that nothing can be proved of them.
-/

namespace Sys2Proof.Config

/-- A value the spec leaves undefined after an operation that goes on (log entry 9). -/
opaque freeWord : Nat → Word

/-- A byte the spec leaves undefined (log entry 9). -/
opaque freeByte : Nat → Byte

/-- A byte of the digest of the boot ROM, which the spec does not give (log entry 5). -/
opaque romByte : Nat → Byte

end Sys2Proof.Config
end

