-- ==== Sys2Proof/Machine/Map.lean ====
section
/-!
DEFINITION. Sparse tables in canonical form and the operations on them. Every large store of the
block (memory, registers, objects, trackers) is one; the default of a key is what an unlisted key reads as.
-/

namespace Sys2Proof.Machine

/-- The value stored under a key, or none. -/
def mapFind {α : Type} : SMap α → Nat → Option α
  | [], _ => none
  | (k', v) :: t, k => if k' = k then some v else mapFind t k

/-- The value of a key; dflt is what an unlisted key reads as. -/
def mapGet {α : Type} (dflt : Nat → α) (m : SMap α) (k : Nat) : α :=
  (mapFind m k).getD (dflt k)

/-- Put or remove the entry of a key, keeping the keys rising. -/
def mapPut {α : Type} : SMap α → Nat → Option α → SMap α
  | [], _, none => []
  | [], k, some v => [(k, v)]
  | (k', v') :: t, k, o =>
    if k < k' then
      match o with
      | none => (k', v') :: t
      | some v => (k, v) :: (k', v') :: t
    else if k = k' then
      match o with
      | none => t
      | some v => (k, v) :: t
    else (k', v') :: mapPut t k o

/-- Write a key; writing what an unlisted key reads as removes the entry. -/
def mapSet {α : Type} [DecidableEq α] (dflt : Nat → α) (m : SMap α) (k : Nat) (v : α) : SMap α :=
  mapPut m k (if v = dflt k then none else some v)

/-- Keep the entries whose key passes the test. -/
def mapKeep {α : Type} (keep : Nat → Bool) (m : SMap α) : SMap α :=
  m.filter (fun e => keep e.1)

/-- Change every entry; an entry that becomes what an unlisted key reads as is removed. -/
def mapVals {α : Type} [DecidableEq α] (dflt : Nat → α) (f : α → α) (m : SMap α) : SMap α :=
  (m.map fun e => (e.1, f e.2)).filter fun e => decide (e.2 ≠ dflt e.1)

/-- A table in canonical form: of two entries of a key the first counts. -/
def mapCanon {α : Type} [DecidableEq α] (dflt : Nat → α) (m : SMap α) : SMap α :=
  m.foldr (fun e acc => mapSet dflt acc e.1 e.2) []

/-- Every key of the list is above b, and the keys rise. -/
def keysRise : List Nat → Bool
  | [] => true
  | [_] => true
  | a :: b :: t => decide (a < b) && keysRise (b :: t)

/-- The canonical form of a sparse table. -/
def mapWf {α : Type} [DecidableEq α] (dflt : Nat → α) (m : SMap α) : Bool :=
  keysRise (m.map Prod.fst) && m.all (fun e => decide (e.2 ≠ dflt e.1))

end Sys2Proof.Machine
end

