-- ==== Sys2Proof/Machine/Bytes.lean ====
section
/-!
DEFINITION. Bit fields, sign extension and byte order (R17: little-endian, bit ranges [msb:lsb]; R26: conversions
keep the low-order bits).
-/

namespace Sys2Proof.Machine

/-- Bits [lo + w - 1 : lo] of a number. -/
def bitsOf (v lo w : Nat) : Nat := (v >>> lo) % 2 ^ w

/-- Bits [lo + w - 1 : lo] of a register, as a number. -/
def fieldOf (v : Word) (lo w : Nat) : Nat := bitsOf v.toNat lo w

/-- One bit of a register. -/
def bitOf (v : Word) (i : Nat) : Bool := v.getLsbD i

/-- A register with bits [lo + w - 1 : lo] replaced by x. -/
def setField (v : Word) (lo w x : Nat) : Word :=
  let m : Word := BitVec.ofNat 64 ((2 ^ w - 1) <<< lo)
  (v &&& ~~~ m) ||| (BitVec.ofNat 64 (x <<< lo) &&& m)

/-- The value of a w-bit two's complement number. -/
def toSigned (w x : Nat) : Int :=
  if 2 * (x % 2 ^ w) < 2 ^ w then ((x % 2 ^ w : Nat) : Int) else ((x % 2 ^ w : Nat) : Int) - (2 ^ w : Nat)

/-- A number narrowed to w bits (R26). -/
def wrapTo (w : Nat) (x : Int) : Nat := (x % ((2 ^ w : Nat) : Int)).toNat

/-- A string of bytes as a number, lowest address least significant (R17). -/
def leNat : Bytes → Nat
  | [] => 0
  | b :: t => b.toNat + 256 * leNat t

/-- The low n bytes of a number, least significant first. -/
def leBytes : Nat → Nat → Bytes
  | 0, _ => []
  | n + 1, v => BitVec.ofNat 8 (v % 256) :: leBytes n (v / 256)

/-- The low n bytes of a number, most significant first. -/
def beBytes (n v : Nat) : Bytes := (leBytes n v).reverse

/-- A string of bytes as a number, first byte most significant. -/
def beNat (bs : Bytes) : Nat := leNat bs.reverse

/-- Field of n bytes at offset off of a string of bytes; bytes beyond its end count as 0. -/
def atLe (bs : Bytes) (off n : Nat) : Nat := leNat ((bs.drop off).take n)

/-- All bytes of a range of a string are 0. -/
def zeroAt (bs : Bytes) (off n : Nat) : Bool := ((bs.drop off).take n).all (· = 0)

/-- The list 0, 1, ..., n - 1 shifted by a start. -/
def upFrom : Nat → Nat → List Nat
  | _, 0 => []
  | a, n + 1 => a :: upFrom (a + 1) n

/-- The least element of a list that passes a test. -/
def firstIn (p : Nat → Bool) : List Nat → Option Nat
  | [] => none
  | a :: t => if p a then some a else firstIn p t

/-- Quotient rounded up. -/
def ceilDiv (a b : Nat) : Nat := (a + b - 1) / b

/-- Saturating counter of w bits (R24). -/
def satAdd (w a b : Nat) : Nat := min (a + b) (2 ^ w - 1)

/-- The number of trailing zero bits, at most n. -/
def trailingZeros : Nat → Nat → Nat
  | 0, _ => 0
  | n + 1, v => if v % 2 = 1 then 0 else 1 + trailingZeros n (v / 2)

/-- The number of bits of a number (0 for 0); fuel n bits. -/
def bitLen : Nat → Nat → Nat
  | 0, _ => 0
  | n + 1, v => if v = 0 then 0 else 1 + bitLen n (v / 2)

/-- The number of one bits among the low n. -/
def popCount : Nat → Nat → Nat
  | 0, _ => 0
  | n + 1, v => v % 2 + popCount n (v / 2)

end Sys2Proof.Machine
end

