-- ==== Sys2Proof/Machine/Plan.lean ====
section
/-!
DEFINITION. The step plan as bytes: its header, section table and the tables of the plan chapter (R84 to R96), the
segment table (R731) and CRC-32C. The Bureau keeps the plan whole (R79); every table is read from that copy.
-/

namespace Sys2Proof.Machine

/-- One step of a reflected CRC: n bits. -/
def crcBits (poly : Nat) : Nat → Nat → Nat
  | 0, c => c
  | n + 1, c => crcBits poly n (if c % 2 = 1 then (c / 2) ^^^ poly else c / 2)

/-- CRC over bytes, running remainder. -/
def crcRun (poly : Nat) : Bytes → Nat → Nat
  | [], c => c
  | b :: t, c => crcRun poly t (crcBits poly 8 (c ^^^ b.toNat))

/-- CRC-32C (R85): the Castagnoli polynomial, reflected, initial value and final inversion all ones. PRESUMED (log entry 11). -/
def crc32c (bs : Bytes) : Nat := crcRun 0x82F63B78 bs 0xFFFFFFFF ^^^ 0xFFFFFFFF

/-- A string of bytes with n bytes at off taken as 0. -/
def zeroedAt (bs : Bytes) (off n : Nat) : Bytes :=
  bs.take off ++ List.replicate n 0 ++ bs.drop (off + n)

/-- One section descriptor (R86). -/
structure Sec where
  type : Nat
  count : Nat
  off : Nat
  size : Nat
  deriving DecidableEq, Repr

/-- Section descriptor i of a plan. -/
def planSec (p : Bytes) (i : Nat) : Sec :=
  let o := 0x40 + 16 * i
  { type := atLe p o 2, count := atLe p (o + 4) 4, off := atLe p (o + 8) 4, size := atLe p (o + 12) 4 }

/-- All section descriptors of a plan. -/
def planSecs (p : Bytes) : List Sec := (upFrom 0 (atLe p 0x13 1)).map (planSec p)

/-- The section of a type, or none (R87: at most one). -/
def planFind (p : Bytes) (ty : Nat) : Option Sec := (planSecs p).find? (fun s => s.type == ty)

/-- JOB of a plan (R85). -/
def planJob (p : Bytes) : Nat := atLe p 0x10 2
/-- DEVICES of a plan (R85). -/
def planDevices (p : Bytes) : Nat := atLe p 0x14 4
/-- FIRST_STEP of a plan (R85). -/
def planFirst (p : Bytes) : Nat := atLe p 0x18 8
/-- STEP_COUNT of a plan (R85). -/
def planCount (p : Bytes) : Nat := atLe p 0x20 8
/-- T0 of a plan (R85). -/
def planT0 (p : Bytes) : Nat := atLe p 0x28 8
/-- SLOT_PERIOD of a plan (R85). -/
def planPeriod (p : Bytes) : Nat := atLe p 0x30 4
/-- START_LEAD of a plan (R85). -/
def planLead (p : Bytes) : Nat := atLe p 0x34 4
/-- STEP_LIMIT of a plan in units of 256 hub cycles; 0 means 2^32 (R85). -/
def planLimit (p : Bytes) : Nat := if atLe p 0x38 4 = 0 then 2 ^ 32 else atLe p 0x38 4
/-- FLAGS bit 0, JOURNAL (R85). -/
def planJournal (p : Bytes) : Bool := atLe p 0x3C 2 % 2 == 1

/-- One cluster table entry (R88). -/
structure ClusterEntry where
  cl : Nat
  quota : Nat
  image : Nat
  len : Nat
  entry : Nat
  off : Nat
  deriving DecidableEq, Repr

/-- The cluster table (R88). -/
def planClusters (p : Bytes) : List ClusterEntry :=
  match planFind p 1 with
  | none => []
  | some s => (upFrom 0 s.count).map fun i =>
      let o := s.off + 32 * i
      { cl := atLe p o 1, quota := atLe p (o + 4) 4, image := atLe p (o + 8) 8, len := atLe p (o + 16) 4,
        entry := atLe p (o + 20) 4, off := o }

/-- The cluster table entry of a cluster. -/
def planCluster (p : Bytes) (c : Nat) : Option ClusterEntry := (planClusters p).find? (fun e => e.cl == c)

/-- One sync initialisation entry (R91). -/
structure SyncEntry where
  obj : Nat
  flags : Nat
  init : Nat
  target : Nat
  next : Nat
  off : Nat
  deriving DecidableEq, Repr

/-- The sync initialisation table (R91). -/
def planSyncs (p : Bytes) : List SyncEntry :=
  match planFind p 2 with
  | none => []
  | some s => (upFrom 0 s.count).map fun i =>
      let o := s.off + 16 * i
      { obj := atLe p o 2, flags := atLe p (o + 2) 1, init := atLe p (o + 4) 4, target := atLe p (o + 8) 4,
        next := atLe p (o + 12) 2, off := o }

/-- One wake entry (R93); at is the signed offset from step start. -/
structure WakeEntry where
  group : Nat
  action : Nat
  at_ : Int
  off : Nat
  deriving DecidableEq, Repr

/-- The wake table (R93). -/
def planWakes (p : Bytes) : List WakeEntry :=
  match planFind p 3 with
  | none => []
  | some s => (upFrom 0 s.count).map fun i =>
      let o := s.off + 16 * i
      { group := atLe p o 1, action := atLe p (o + 1) 1, at_ := toSigned 32 (atLe p (o + 4) 4), off := o }

/-- lead: the magnitude of the most negative wake offset, or 0 (R100). -/
def planWakeLead (p : Bytes) : Nat :=
  (planWakes p).foldl (fun m e => max m (if e.at_ < 0 then e.at_.natAbs else 0)) 0

/-- One background window entry (R95). -/
structure WindowEntry where
  res : Nat
  mask : Nat
  period : Nat
  len : Nat
  phase : Nat
  off : Nat
  deriving DecidableEq, Repr

/-- The background window table (R95). -/
def planWindows (p : Bytes) : List WindowEntry :=
  match planFind p 4 with
  | none => []
  | some s => (upFrom 0 s.count).map fun i =>
      let o := s.off + 16 * i
      { res := atLe p o 1, mask := atLe p (o + 2) 2, period := atLe p (o + 4) 4, len := atLe p (o + 8) 4,
        phase := atLe p (o + 12) 4, off := o }

/-- Seed i of the run (R96); 0 where the table has none. -/
def planSeed (p : Bytes) (i : Nat) : Nat :=
  match planFind p 5 with
  | none => 0
  | some s => if i < s.count then atLe p (s.off + 8 * i) 8 else 0

/-- The bytes of a section from an offset. -/
def secAt (p : Bytes) (ty off n : Nat) : Nat :=
  match planFind p ty with
  | none => 0
  | some s => atLe p (s.off + off) n

/-- One segment (R731). -/
structure Seg where
  vbase : Nat
  size : Nat
  pbase : Nat
  kind : Nat
  perm : Nat
  deriving DecidableEq, Repr

/-- The segments of section 0x000D (R731). -/
def planSegs (p : Bytes) : List Seg :=
  match planFind p 13 with
  | none => []
  | some s =>
    let base := s.off + atLe p (s.off + 0x0C) 4
    (upFrom 0 (atLe p s.off 2)).map fun i =>
      let o := base + 32 * i
      { vbase := atLe p o 8, size := atLe p (o + 8) 8, pbase := atLe p (o + 16) 8, kind := atLe p (o + 24) 1,
        perm := atLe p (o + 25) 1 }

/-- The default segments of R732, for a populated capacity size. -/
def defaultSegs (cap : Nat) : List Seg :=
  [{ vbase := 0, size := 0x6000000000, pbase := 0, kind := 1, perm := 3 }] ++
  (if cap = 0 then [] else
    [{ vbase := 0x100000000000, size := cap, pbase := 0x100000000000, kind := 3, perm := 3 }]) ++
  (upFrom 0 128).map fun c =>
    { vbase := 0x200000000000 + c * 0x1000000, size := 0x800000, pbase := 0x200000000000 + c * 0x1000000, kind := 4,
      perm := 3 }

/-- MODE PARTITION of section 0x000D (R731, R732). -/
def planPartitioned (p : Bytes) : Bool := secAt p 13 2 1 == 1
/-- PART of section 0x000D. -/
def planPart (p : Bytes) : Nat := secAt p 13 3 1
/-- GROUPS of section 0x000D; all in a context without it (R732). -/
def planGroups (p : Bytes) : Nat := if (planFind p 13).isSome then secAt p 13 4 2 else 0xFFFF
/-- STACKS of section 0x000D; all in a context without it. -/
def planStacks (p : Bytes) : Nat := if (planFind p 13).isSome then secAt p 13 6 1 else 0xFF
/-- SERVE INTERACTIVE of section 0x000D. -/
def planInteractive (p : Bytes) : Bool := secAt p 13 7 1 == 1
/-- HOLD_US of section 0x000D. -/
def planHold (p : Bytes) : Nat := secAt p 13 8 4

/-- One tier object (R550). -/
structure TierObj where
  home : Nat
  flags : Nat
  ns : Nat
  window : Nat
  size : Nat
  addr : Nat
  off : Nat
  deriving DecidableEq, Repr

/-- The tier objects of section 0x000B (R550). -/
def planObjs (p : Bytes) : List TierObj :=
  match planFind p 11 with
  | none => []
  | some s =>
    let base := s.off + atLe p (s.off + 0x0C) 4
    (upFrom 0 (atLe p (s.off + 4) 4)).map fun i =>
      let o := base + 32 * i
      { home := atLe p o 1, flags := atLe p (o + 1) 1, ns := atLe p (o + 2) 1, window := atLe p (o + 8) 8,
        size := atLe p (o + 16) 8, addr := atLe p (o + 24) 8, off := o }

/-- The object may be written through its window (R549, R550). -/
def TierObj.writable (o : TierObj) : Bool := o.home == 1 && o.flags % 2 == 1

/-- One prefetch entry (R550). -/
structure PrefEntry where
  layer : Nat
  obj : Nat
  tier : Nat
  signal : Bool
  sync : Nat
  off : Nat
  deriving DecidableEq, Repr

/-- The prefetch list of section 0x000B (R550). -/
def planPrefetch (p : Bytes) : List PrefEntry :=
  match planFind p 11 with
  | none => []
  | some s =>
    let base := s.off + atLe p (s.off + 0x10) 4
    (upFrom 0 (atLe p (s.off + 8) 4)).map fun i =>
      let o := base + 16 * i
      { layer := atLe p o 4, obj := atLe p (o + 4) 4, tier := atLe p (o + 8) 1, signal := atLe p (o + 9) 1 % 2 == 1,
        sync := atLe p (o + 10) 2, off := o }

end Sys2Proof.Machine
end

