-- ==== Sys2Proof/Machine/Regs.lean ====
section
/-!
DEFINITION. The register map: every register of the spec's register tables with its offset in CSR space (R72 to R74),
its reset value, and the bits of each access type (R22). The hub cache control region, which has device physical
addresses of its own (R67), stands at 0x1000_0000 beyond the CSR offsets.
-/

namespace Sys2Proof.Machine

/-- One register, or one array of registers: dims lists (count, stride) of each index letter. -/
structure RegRow where
  name : String
  base : Nat
  dims : List (Nat × Nat)
  reset : Nat
  rw : Nat
  w1c : Nat
  w1s : Nat
  rc : Nat
  wo : Nat
  timing : Nat
  deriving DecidableEq, Repr

/-- The BUR_ registers. -/
def regRowsBur : List RegRow := [
  ⟨"BUR_DEV_ID", 0x0, [], 0x1200720, 0x0, 0x0, 0x0, 0x0, 0x0, 0x0⟩,
  ⟨"BUR_SPARE_MAPd", 0x40, [(2, 0x8)], 0x0, 0x0, 0x0, 0x0, 0x0, 0x0, 0x0⟩,
  ⟨"BUR_PLAN_CTRL", 0x100, [], 0x0, 0x7ffffffffffff, 0x0, 0x0, 0x0, 0x700000000000000, 0x0⟩,
  ⟨"BUR_PLAN_STATUS", 0x108, [], 0x0, 0x0, 0x0, 0x0, 0x0, 0x0, 0x0⟩,
  ⟨"BUR_PLAN_STOPx", 0x200, [(8, 0x8)], 0xffffffffffffffff, 0xffffffffffffffff, 0x0, 0x0, 0x0, 0x0, 0x0⟩,
  ⟨"BUR_PLACE_CTRL", 0x300, [], 0x0, 0x7ffffffffffff, 0x0, 0x0, 0x0, 0x300000000000000, 0x0⟩,
  ⟨"BUR_PLACE_SWAP", 0x308, [], 0xffffffffffffffff, 0xffffffffffffffff, 0x0, 0x0, 0x0, 0x0, 0x0⟩,
  ⟨"BUR_PLACE_STATUS", 0x310, [], 0x0, 0x0, 0x0, 0x0, 0x0, 0x0, 0x0⟩,
  ⟨"BUR_STATUS", 0x400, [], 0x0, 0x0, 0x0, 0x0, 0x0, 0x0, 0x0⟩,
  ⟨"BUR_FW_STATUS", 0x408, [], 0x0, 0x0, 0x0, 0x0, 0x0, 0x0, 0x0⟩,
  ⟨"BUR_ADMIT", 0x410, [], 0x0, 0x0, 0x0, 0x0, 0x0, 0x0, 0x0⟩,
  ⟨"BUR_FM", 0x418, [], 0x0, 0xffffffffffff, 0x0, 0x0, 0x0, 0x0, 0x0⟩,
  ⟨"BUR_PROTO_MINORj", 0x420, [(4, 0x8)], 0xffffffffffffffff, 0x0, 0x0, 0x0, 0x0, 0x0, 0x0⟩]

/-- The AON_ registers. -/
def regRowsAon : List RegRow := [
  ⟨"AON_OP", 0x100000, [], 0x0, 0x0, 0x0, 0x0, 0x0, 0xffffffff00ff, 0x0⟩,
  ⟨"AON_OP_STATUS", 0x100008, [], 0x0, 0x0, 0x0, 0x0, 0x0, 0x0, 0x0⟩,
  ⟨"AON_FW_CTRL", 0x100010, [], 0x3c0000, 0xffff0000, 0x0, 0x10, 0x0, 0x0, 0x0⟩,
  ⟨"AON_THERM", 0x100018, [], 0x695f, 0xff, 0x0, 0x0, 0x0, 0x0, 0xffff3f000000⟩,
  ⟨"AON_POWER", 0x100020, [], 0x0, 0x0, 0x0, 0x0, 0xffff0000, 0x0, 0x7ffffffffff⟩,
  ⟨"AON_TEMPk", 0x100040, [(9, 0x8)], 0x0, 0x0, 0x0, 0x0, 0x0, 0x0, 0xffffffffffffffff⟩,
  ⟨"AON_LOG_STATUS", 0x1000c0, [], 0x0, 0x0, 0x0, 0x0, 0x0, 0x0, 0x0⟩,
  ⟨"AON_RAS_STATUS", 0x100100, [], 0x0, 0x0, 0x0, 0x0, 0x0, 0x0, 0x0⟩,
  ⟨"AON_ECC_CE", 0x100108, [], 0x0, 0x0, 0x0, 0x0, 0x0, 0x0, 0x0⟩,
  ⟨"AON_ECC_UE", 0x100110, [], 0x0, 0x0, 0x0, 0x0, 0x0, 0x0, 0x0⟩,
  ⟨"AON_SCRUB_CFG", 0x100118, [], 0x18, 0xff, 0x0, 0x0, 0x0, 0x0, 0x0⟩,
  ⟨"AON_QUOTE_Wk", 0x100400, [(66, 0x8)], 0x0, 0x0, 0x0, 0x0, 0x0, 0x0, 0x0⟩,
  ⟨"AON_MRm_Wk", 0x100800, [(8, 0x40), (6, 0x8)], 0x0, 0x0, 0x0, 0x0, 0x0, 0x0, 0x0⟩,
  ⟨"AON_MR_EXTk", 0x100a00, [(6, 0x8)], 0x0, 0x0, 0x0, 0x0, 0x0, 0xffffffffffffffff, 0x0⟩,
  ⟨"AON_MR_EXTC", 0x100a30, [], 0x0, 0x0, 0x0, 0x0, 0x0, 0xf, 0x0⟩,
  ⟨"AON_NONCEk", 0x100a40, [(4, 0x8)], 0x0, 0xffffffffffffffff, 0x0, 0x0, 0x0, 0x0, 0x0⟩,
  ⟨"AON_LOGi", 0x110000, [(1024, 0x20), (4, 0x8)], 0x0, 0x0, 0x0, 0x0, 0x0, 0x0, 0x0⟩]

/-- The PWR_ registers. -/
def regRowsPwr : List RegRow := [
  ⟨"PWR_DOMAIN_CTRL", 0x200000, [], 0x0, 0x1f, 0x0, 0x0, 0x0, 0x700, 0x0⟩,
  ⟨"PWR_DOMAIN_STATUS", 0x200008, [], 0x8000000, 0x0, 0x0, 0x0, 0x0, 0x0, 0x0⟩,
  ⟨"PWR_CLK", 0x200010, [], 0x4b004b0, 0x7ff, 0x0, 0x0, 0x0, 0x0, 0x3fff0000⟩,
  ⟨"PWR_CAP", 0x200018, [], 0x960, 0xfff, 0x0, 0x0, 0x0, 0x0, 0x0⟩,
  ⟨"PWR_WAKE", 0x200020, [], 0x0, 0x0, 0x0, 0x0, 0x0, 0x0, 0xffffffffffffffff⟩]

/-- The MGT_ registers. -/
def regRowsMgt : List RegRow := [
  ⟨"MGT_IDM_CMD", 0x300000, [], 0x0, 0x13ff, 0x0, 0x0, 0x0, 0x2000, 0x0⟩,
  ⟨"MGT_IDM_DATAk", 0x300008, [(8, 0x8)], 0x0, 0xffffffffffffffff, 0x0, 0x0, 0x0, 0x0, 0x0⟩,
  ⟨"MGT_I3C_STATUS", 0x300100, [], 0x0, 0x0, 0x0, 0x0, 0x0, 0x0, 0x0⟩,
  ⟨"MGT_I3C_CTRL", 0x300108, [], 0x0, 0x0, 0x0, 0x0, 0x0, 0x1, 0x0⟩]

/-- The HIF_ registers. -/
def regRowsHif : List RegRow := [
  ⟨"HIF_LINK", 0x400000, [], 0x0, 0x0, 0x0, 0x0, 0x0, 0x0, 0x0⟩,
  ⟨"HIF_PF_WIN", 0x400008, [], 0x0, 0xfff000000000, 0x0, 0x0, 0x0, 0x0, 0x0⟩,
  ⟨"HIF_VFn_CFG", 0x400108, [(8, 0x8)], 0x0, 0xfffc0000000f, 0x0, 0x0, 0x0, 0x0, 0x0⟩]

/-- The NET_ registers. -/
def regRowsNet : List RegRow := [
  ⟨"NET_Pp_STATUS", 0x500000, [(2, 0x8)], 0x0, 0x0, 0x0, 0x0, 0x0, 0x0, 0x0⟩,
  ⟨"NET_TGTt_Wk", 0x501000, [(16, 0x40), (8, 0x8)], 0x0, 0xffffffffffffffff, 0x0, 0x0, 0x0, 0x0, 0x0⟩,
  ⟨"NET_INGi_Wk", 0x502000, [(16, 0x40), (8, 0x8)], 0x0, 0xffffffffffffffff, 0x0, 0x0, 0x0, 0x0, 0x0⟩]

/-- The TRS_ registers. -/
def regRowsTrs : List RegRow := [
  ⟨"TRS_TIME", 0x600000, [], 0x0, 0x0, 0x0, 0x0, 0x0, 0x0, 0xffffffffffffffff⟩,
  ⟨"TRS_CFG", 0x600008, [], 0x1000000, 0xffffff3f, 0x0, 0x0, 0x0, 0x0, 0x0⟩,
  ⟨"TRS_SYNC", 0x600010, [], 0x0, 0x0, 0x0, 0x0, 0x0, 0x0, 0xffffffffff00⟩,
  ⟨"TRS_CTXx_STATE", 0x600100, [(8, 0x10)], 0x0, 0x0, 0x0, 0x0, 0x0, 0x0, 0x0⟩,
  ⟨"TRS_CTXx_STEP", 0x600108, [(8, 0x10)], 0x0, 0x0, 0x0, 0x0, 0x0, 0x0, 0x0⟩]

/-- The CTX_ registers. -/
def regRowsCtx : List RegRow := [
  ⟨"CTX_CTXx_STATUS", 0x700000, [(8, 0x40)], 0x0, 0x0, 0x0, 0x0, 0x0, 0x0, 0x0⟩,
  ⟨"CTX_CTXx_CTRL", 0x700008, [(8, 0x40)], 0x0, 0x0, 0x0, 0x0, 0x0, 0x3, 0x0⟩,
  ⟨"CTX_CTXx_SERVE", 0x700010, [(8, 0x40)], 0x0, 0x0, 0x0, 0x0, 0x0, 0x0, 0x0⟩,
  ⟨"CTX_FRx", 0x710000, [(8, 0x2000), (1024, 0x8)], 0, 0, 0, 0, 0, 0, 0⟩,
  ⟨"CTX_CTXx_SEGi", 0x740000, [(8, 0x8000), (1024, 0x20), (4, 0x8)], 0x0, 0x0, 0x0, 0x0, 0x0, 0x0, 0x0⟩]

/-- The FAB_ registers. -/
def regRowsFab : List RegRow := [
  ⟨"FAB_NODE", 0x800000, [], 0x0, 0xffff, 0x0, 0x0, 0x0, 0x0, 0x0⟩,
  ⟨"FAB_TIMEOUT", 0x800008, [], 0xc8001401f40032, 0xffffffffffffffff, 0x0, 0x0, 0x0, 0x0, 0x0⟩,
  ⟨"FAB_VCW", 0x800010, [], 0x122444, 0xfffff, 0x0, 0x0, 0x0, 0x0, 0x0⟩,
  ⟨"FAB_COMBINE", 0x800018, [], 0x4003, 0x7f03, 0x0, 0x0, 0x0, 0x0, 0x0⟩,
  ⟨"FAB_SWING", 0x800020, [], 0x0, 0xf, 0x0, 0x0, 0x0, 0x30, 0x0⟩,
  ⟨"FAB_DISC_CTRL", 0x800028, [], 0x0, 0xffffffff, 0x0, 0x0, 0x0, 0x100000000, 0x0⟩,
  ⟨"FAB_DISC_STATUS", 0x800030, [], 0x0, 0x0, 0x0, 0x0, 0x0, 0x0, 0x0⟩,
  ⟨"FAB_LATE", 0x800038, [], 0x0, 0x0, 0x0, 0x0, 0x0, 0x0, 0xffffffffffffffff⟩,
  ⟨"FAB_DROP", 0x800040, [], 0x0, 0x0, 0x0, 0x0, 0x0, 0x0, 0x0⟩,
  ⟨"FAB_PKEYk", 0x800100, [(16, 0x8)], 0x0, 0xffffffff0001ffff, 0x0, 0x0, 0x0, 0x0, 0x0⟩,
  ⟨"FAB_CTXx_ID", 0x800200, [(8, 0x8)], 0x0, 0xffff0000, 0x0, 0x0, 0x0, 0x0, 0x0⟩,
  ⟨"FAB_Pn_CFG", 0x801000, [(32, 0x40)], 0x1, 0x3, 0x0, 0x0, 0x0, 0x0, 0x0⟩,
  ⟨"FAB_Pn_STATUS", 0x801008, [(32, 0x40)], 0x0, 0x0, 0x0, 0x0, 0x0, 0x0, 0x0⟩,
  ⟨"FAB_Pn_PEER", 0x801010, [(32, 0x40)], 0x0, 0x0, 0x0, 0x0, 0x0, 0x0, 0x0⟩,
  ⟨"FAB_Pn_FEC", 0x801018, [(32, 0x40)], 0x0, 0x0, 0x0, 0x0, 0x0, 0x0, 0xffffffffffffffff⟩,
  ⟨"FAB_Pn_RETRY", 0x801020, [(32, 0x40)], 0x0, 0x0, 0x0, 0x0, 0x0, 0x0, 0xffffffffffffffff⟩,
  ⟨"FAB_ROUTEb", 0x810000, [(4096, 0x8)], 0x0, 0x3fffffffff, 0x0, 0x0, 0x0, 0x0, 0x0⟩,
  ⟨"FAB_MCASTg", 0x820000, [(4096, 0x8)], 0x0, 0x3ffffffff, 0x0, 0x0, 0x0, 0x0, 0x0⟩]

/-- The COL_ registers. -/
def regRowsCol : List RegRow := [
  ⟨"COL_STATUS", 0x900000, [], 0x0, 0x0, 0x0, 0x0, 0x0, 0x0, 0xff1f⟩,
  ⟨"COL_FAULT", 0x900008, [], 0x0, 0x0, 0x0, 0x0, 0x0, 0x0, 0x0⟩,
  ⟨"COL_BYTES", 0x900010, [], 0x0, 0x0, 0x0, 0x0, 0x0, 0x0, 0xffffffffffffffff⟩,
  ⟨"COL_CTXx_CFG", 0x900e00, [(8, 0x8)], 0x0, 0x0, 0x0, 0x0, 0x0, 0x0, 0x0⟩,
  ⟨"COL_CTXx_SAT", 0x900e80, [(8, 0x8)], 0x0, 0x0, 0x0, 0x0, 0x0, 0x0, 0x0⟩,
  ⟨"COL_CTXx_XSAT", 0x900f00, [(8, 0x8)], 0x0, 0x0, 0x0, 0x0, 0x0, 0x0, 0x0⟩]

/-- The DRS_ registers. -/
def regRowsDrs : List RegRow := [
  ⟨"DRS_GROUP_UNIT", 0xa00000, [], 0x7766554433221100, 0x0, 0x0, 0x0, 0x0, 0x0, 0x0⟩,
  ⟨"DRS_Uu_STATUS", 0xa00100, [(8, 0x40)], 0x0, 0x0, 0x0, 0x0, 0x0, 0x0, 0x0⟩,
  ⟨"DRS_Uu_FAULT", 0xa00108, [(8, 0x40)], 0x0, 0x0, 0x0, 0x0, 0x0, 0x0, 0x0⟩,
  ⟨"DRS_Uu_SCORES", 0xa00110, [(8, 0x40)], 0x0, 0x0, 0x0, 0x0, 0x0, 0x0, 0x0⟩,
  ⟨"DRS_Uu_BUSY", 0xa00118, [(8, 0x40)], 0x0, 0x0, 0x0, 0x0, 0x0, 0x0, 0x0⟩,
  ⟨"DRS_CTXx_DROPS", 0xa00400, [(8, 0x20)], 0x0, 0x0, 0x0, 0x0, 0x0, 0x0, 0x0⟩,
  ⟨"DRS_CTXx_NANS", 0xa00408, [(8, 0x20)], 0x0, 0x0, 0x0, 0x0, 0x0, 0x0, 0x0⟩,
  ⟨"DRS_CTXx_ZEROSUM", 0xa00410, [(8, 0x20)], 0x0, 0x0, 0x0, 0x0, 0x0, 0x0, 0x0⟩,
  ⟨"DRS_CTXx_BIAS", 0xa00418, [(8, 0x20)], 0x0, 0x0, 0x0, 0x0, 0x0, 0x0, 0x0⟩,
  ⟨"DRS_CTXx_PLACE_ID", 0xa00800, [(8, 0x20)], 0x0, 0x0, 0x0, 0x0, 0x0, 0x0, 0x0⟩,
  ⟨"DRS_CTXx_PLACE_SWAP", 0xa00808, [(8, 0x20)], 0x0, 0x0, 0x0, 0x0, 0x0, 0x0, 0x0⟩,
  ⟨"DRS_BIASi", 0xa10000, [(65536, 0x8)], 0x0, 0x0, 0x0, 0x0, 0x0, 0x0, 0x0⟩]

/-- The CAB_ registers. -/
def regRowsCab : List RegRow := [
  ⟨"CAB_CTXx_CFG", 0xb00000, [(8, 0x200)], 0x0, 0x0, 0x0, 0x0, 0x0, 0x0, 0x0⟩,
  ⟨"CAB_CTXx_Pp_BASE", 0xb00010, [(8, 0x200), (8, 0x20)], 0x0, 0x0, 0x0, 0x0, 0x0, 0x0, 0x0⟩,
  ⟨"CAB_CTXx_Pp_STATE", 0xb00018, [(8, 0x200), (8, 0x20)], 0x0, 0x0, 0x0, 0x0, 0x0, 0x0, 0xffffffff⟩,
  ⟨"CAB_CTXx_Pp_RES", 0xb00020, [(8, 0x200), (8, 0x20)], 0x0, 0x0, 0x0, 0x0, 0x0, 0x0, 0xffff⟩,
  ⟨"CAB_CTXx_Pp_WAIT", 0xb00028, [(8, 0x200), (8, 0x20)], 0x0, 0x0, 0x0, 0x0, 0x0, 0x0, 0xffffffffffffffff⟩,
  ⟨"CAB_FAULT", 0xb10000, [], 0x0, 0x0, 0x0, 0x0, 0x0, 0x0, 0x0⟩,
  ⟨"CAB_TOTAL", 0xb10008, [], 0x0, 0x0, 0x0, 0x0, 0x0, 0x0, 0x0⟩]

/-- The hub cache control region (R522). -/
def regRowsHc : List RegRow := [
  ⟨"CAB_HC_INV", 0x10000000, [], 0x0, 0x0, 0x0, 0x0, 0x0, 0x1ffff, 0x0⟩,
  ⟨"CAB_HC_STATUS", 0x10000008, [], 0x0, 0x0, 0x0, 0x0, 0x0, 0x0, 0x0⟩,
  ⟨"CAB_HC_HITS", 0x10000010, [], 0x0, 0x0, 0x0, 0x0, 0x0, 0x0, 0xffffffffffffffff⟩,
  ⟨"CAB_HC_MISSES", 0x10000018, [], 0x0, 0x0, 0x0, 0x0, 0x0, 0x0, 0xffffffffffffffff⟩,
  ⟨"CAB_HC_CTXx_WAYS", 0x10000100, [(8, 0x8)], 0x0, 0x0, 0x0, 0x0, 0x0, 0x0, 0x0⟩,
  ⟨"CAB_HC_CTXx_PIN_BASE", 0x10000200, [(8, 0x10)], 0x0, 0x0, 0x0, 0x0, 0x0, 0x0, 0x0⟩,
  ⟨"CAB_HC_CTXx_PIN_SIZE", 0x10000208, [(8, 0x10)], 0x0, 0x0, 0x0, 0x0, 0x0, 0x0, 0x0⟩]

/-- The TIER_ registers. -/
def regRowsTier : List RegRow := [
  ⟨"TIER_CAP_CFG", 0xc00000, [], 0x0, 0x0, 0x0, 0x0, 0x0, 0x0, 0x0⟩,
  ⟨"TIER_POOLt_CFG", 0xc00010, [(2, 0x8)], 0x0, 0xffffffffffffffff, 0x0, 0x0, 0x0, 0x0, 0x0⟩,
  ⟨"TIER_CTXx_STATE", 0xc00100, [(8, 0x10)], 0x0, 0x0, 0x0, 0x0, 0x0, 0x0, 0xffffff00⟩,
  ⟨"TIER_CTXx_HELD", 0xc00108, [(8, 0x10)], 0x0, 0x0, 0x0, 0x0, 0x0, 0x0, 0xffffffffffffffff⟩,
  ⟨"TIER_FAULT", 0xc00200, [], 0x0, 0x0, 0x0, 0x0, 0x0, 0x0, 0x0⟩]

/-- The CHEST_ registers. -/
def regRowsChest : List RegRow := [
  ⟨"CHEST_STATUS", 0xd00000, [], 0x0, 0x0, 0x0, 0x0, 0x0, 0x0, 0x0⟩,
  ⟨"CHEST_CFG", 0xd00008, [], 0x186a000000200, 0xffffffffffffff, 0x0, 0x0, 0x0, 0x0, 0x0⟩,
  ⟨"CHEST_NS_CMD", 0xd00010, [], 0x0, 0xffffffffff00003f, 0x0, 0x0, 0x0, 0x700, 0x0⟩,
  ⟨"CHEST_NSk_INFO", 0xd00100, [(64, 0x10)], 0x0, 0x0, 0x0, 0x0, 0x0, 0x0, 0x0⟩,
  ⟨"CHEST_NSk_MAP", 0xd00108, [(64, 0x10)], 0x0, 0x0, 0x0, 0x0, 0x0, 0x0, 0x0⟩]

/-- The FPU_ registers. -/
def regRowsFpu : List RegRow := [
  ⟨"FPU_CTXx_JBASE", 0xe00000, [(8, 0x40)], 0x0, 0xffffffffffff, 0x0, 0x0, 0x0, 0x0, 0x0⟩,
  ⟨"FPU_CTXx_JSIZE", 0xe00008, [(8, 0x40)], 0x0, 0xffffffffff, 0x0, 0x0, 0x0, 0x0, 0x0⟩,
  ⟨"FPU_CTXx_JHEAD", 0xe00010, [(8, 0x40)], 0x0, 0xffffffffffffffff, 0x0, 0x0, 0x0, 0x0, 0x0⟩,
  ⟨"FPU_CTXx_JTAIL", 0xe00018, [(8, 0x40)], 0x0, 0x0, 0x0, 0x0, 0x0, 0x0, 0x0⟩,
  ⟨"FPU_CTXx_JCFG", 0xe00020, [(8, 0x40)], 0x3e8, 0x1ffff, 0x0, 0x0, 0x0, 0x0, 0x0⟩,
  ⟨"FPU_SLOTi", 0xe10000, [(4096, 0x8)], 0x0, 0x0, 0x0, 0x0, 0x0, 0x0, 0x0⟩]

/-- The CKP_ registers. -/
def regRowsCkp : List RegRow := [
  ⟨"CKP_CTXx_STATUS", 0xf00000, [(8, 0x40)], 0x0, 0x0, 0x0, 0x0, 0x0, 0x0, 0xffffffff00000000⟩,
  ⟨"CKP_CTXx_STEP", 0xf00008, [(8, 0x40)], 0x0, 0x0, 0x0, 0x0, 0x0, 0x0, 0x0⟩,
  ⟨"CKP_CTXx_DIGESTk", 0xf00010, [(8, 0x40), (4, 0x8)], 0x0, 0x0, 0x0, 0x0, 0x0, 0x0, 0x0⟩,
  ⟨"CKP_RESTORE_CTRL", 0xf00400, [], 0x0, 0xffffffffffff0f07, 0x0, 0x0, 0x0, 0x1000, 0x0⟩,
  ⟨"CKP_RESTORE_STATUS", 0xf00408, [], 0x0, 0x0, 0x0, 0x0, 0x0, 0x0, 0x0⟩,
  ⟨"CKP_FAULT", 0xf00410, [], 0x0, 0x0, 0x0, 0x0, 0x0, 0x0, 0x0⟩]

/-- The SEQ_ registers. -/
def regRowsSeq : List RegRow := [
  ⟨"SEQ_STATUS", 0x1000000, [(128, 0x20000)], 0x0, 0x0, 0x0, 0x0, 0x0, 0x0, 0x0⟩,
  ⟨"SEQ_EXC", 0x1000008, [(128, 0x20000)], 0x0, 0x0, 0x0, 0x0, 0x0, 0x0, 0x0⟩,
  ⟨"SEQ_EXC_INFO", 0x1000010, [(128, 0x20000)], 0x0, 0x0, 0x0, 0x0, 0x0, 0x0, 0x0⟩,
  ⟨"SEQ_ISSUED", 0x1000018, [(128, 0x20000)], 0x0, 0x0, 0x0, 0x0, 0x0, 0x0, 0x0⟩,
  ⟨"SEQ_FETCH_BYTES", 0x1000020, [(128, 0x20000)], 0x0, 0x0, 0x0, 0x0, 0x0, 0x0, 0xffffffffffffffff⟩,
  ⟨"SEQ_STALLS", 0x1000028, [(128, 0x20000)], 0x0, 0x0, 0x0, 0x0, 0x0, 0x0, 0xffffffffffffffff⟩,
  ⟨"SEQ_CFG", 0x1000030, [(128, 0x20000)], 0x0, 0x7, 0x0, 0x0, 0x0, 0x0, 0x0⟩,
  ⟨"SEQ_CODE", 0x1000038, [(128, 0x20000)], 0x0, 0x0, 0x0, 0x0, 0x0, 0x0, 0x0⟩,
  ⟨"SEQ_SREGk", 0x1000100, [(128, 0x20000), (32, 0x8)], 0x0, 0xffffffffffffffff, 0x0, 0x0, 0x0, 0x0, 0x0⟩,
  ⟨"SEQ_AREGk", 0x1000200, [(128, 0x20000), (16, 0x8)], 0x0, 0xffffffffffff, 0x0, 0x0, 0x0, 0x0, 0x0⟩,
  ⟨"SEQ_PREGS", 0x1000280, [(128, 0x20000)], 0x1, 0xfe, 0x0, 0x0, 0x0, 0x0, 0x0⟩,
  ⟨"SEQ_SPM_LOST", 0x1000400, [(128, 0x20000)], 0x0, 0x0, 0x80000000ff, 0x0, 0x0, 0x0, 0xffffffffffffffff⟩,
  ⟨"SEQ_SPM_LOSTCNT", 0x1000408, [(128, 0x20000)], 0x0, 0x0, 0x0, 0x0, 0x0, 0x0, 0xffffffffffffffff⟩,
  ⟨"SEQ_SPM_STALLS", 0x1000410, [(128, 0x20000)], 0x0, 0x0, 0x0, 0x0, 0x0, 0x0, 0xffffffffffffffff⟩]

/-- The MXA_ registers. -/
def regRowsMxa : List RegRow := [
  ⟨"MXA_STATUS", 0x1008000, [(128, 0x20000)], 0x0, 0x0, 0x0, 0x0, 0x0, 0x0, 0xff00⟩,
  ⟨"MXA_FAULT_INFO", 0x1008008, [(128, 0x20000)], 0x0, 0x0, 0x0, 0x0, 0x0, 0x0, 0x0⟩,
  ⟨"MXA_WIN", 0x1008010, [(128, 0x20000)], 0x0, 0xffff, 0x0, 0x0, 0x0, 0x0, 0x0⟩,
  ⟨"MXA_CURR", 0x1008018, [(128, 0x20000)], 0x40000081001, 0xffff00ff1f01, 0x0, 0x0, 0x0, 0x0, 0x0⟩,
  ⟨"MXA_FREEZE", 0x1008020, [(128, 0x20000)], 0x0, 0x0, 0x0, 0x0, 0x0, 0x0, 0xffffffffffffffff⟩,
  ⟨"MXA_DUMMY", 0x1008028, [(128, 0x20000)], 0x0, 0x0, 0x0, 0x0, 0x0, 0x0, 0xffffffffffffffff⟩,
  ⟨"MXA_SPTHR", 0x1008030, [(128, 0x20000)], 0x3000, 0x7fff, 0x0, 0x0, 0x0, 0x0, 0x0⟩,
  ⟨"MXA_HACC", 0x1008038, [(128, 0x20000)], 0x0, 0x0, 0x0, 0x0, 0x0, 0x0, 0xffff00000000⟩,
  ⟨"MXA_HACC_OVF", 0x1008040, [(128, 0x20000)], 0x0, 0x0, 0x0, 0x0, 0x0, 0x0, 0xffffffff⟩,
  ⟨"MXA_CTXx_SAT", 0x1008100, [(128, 0x20000), (8, 0x8)], 0x0, 0x0, 0x0, 0x0, 0x0, 0x0, 0x0⟩,
  ⟨"MXA_CTXx_SPILL", 0x1008140, [(128, 0x20000), (8, 0x8)], 0x0, 0x0, 0x0, 0x0, 0x0, 0x0, 0x0⟩]

/-- The VEC_ registers. -/
def regRowsVec : List RegRow := [
  ⟨"VEC_STATUS", 0x1010000, [(128, 0x20000)], 0x0, 0x0, 0x0, 0x0, 0x0, 0x0, 0x0⟩,
  ⟨"VEC_FAULT_INFO", 0x1010008, [(128, 0x20000)], 0x0, 0x0, 0x0, 0x0, 0x0, 0x0, 0x0⟩,
  ⟨"VEC_RMODE", 0x1010010, [(128, 0x20000)], 0x0, 0x7, 0x0, 0x0, 0x0, 0x0, 0x0⟩,
  ⟨"VEC_WIN", 0x1010018, [(128, 0x20000)], 0x0, 0xffff, 0x0, 0x0, 0x0, 0x0, 0x0⟩,
  ⟨"VEC_SRKEY", 0x1010020, [(128, 0x20000)], 0x0, 0xffffffff0f, 0x0, 0x0, 0x0, 0x0, 0x0⟩,
  ⟨"VEC_SRIDX", 0x1010028, [(128, 0x20000)], 0x0, 0xffffffffffffffff, 0x0, 0x0, 0x0, 0x0, 0x0⟩,
  ⟨"VEC_CNT", 0x1010030, [(128, 0x20000)], 0x0, 0x0, 0x0, 0x0, 0x0, 0x0, 0x0⟩,
  ⟨"VEC_LANE", 0x1010038, [(128, 0x20000)], 0x0, 0x0, 0x0, 0x0, 0x0, 0x0, 0xffffffffffffffff⟩,
  ⟨"VEC_CTXx_SAT", 0x1010100, [(128, 0x20000), (8, 0x8)], 0x0, 0x0, 0x0, 0x0, 0x0, 0x0, 0x0⟩,
  ⟨"VEC_CTXx_CVT", 0x1010140, [(128, 0x20000), (8, 0x8)], 0x0, 0x0, 0x0, 0x0, 0x0, 0x0, 0x0⟩]

/-- Match an offset relative to a row's base against the row's index letters. -/
def dimsMatch : List (Nat × Nat) → Nat → Bool
  | [], rel => rel == 0
  | (n, s) :: t, rel => decide (rel / s < n) && dimsMatch t (rel % s)

/-- The row whose register stands at an offset. -/
def regIn : List RegRow → Nat → Option RegRow
  | [], _ => none
  | r :: t, off => if r.base ≤ off && dimsMatch r.dims (off - r.base) then some r else regIn t off

/-- The register at a CSR offset, by block (R73, R74). -/
def regAt (off : Nat) : Option RegRow :=
  match off / 0x100000 with
  | 0 => regIn regRowsBur off
  | 1 => regIn regRowsAon off
  | 2 => regIn regRowsPwr off
  | 3 => regIn regRowsMgt off
  | 4 => regIn regRowsHif off
  | 5 => regIn regRowsNet off
  | 6 => regIn regRowsTrs off
  | 7 => regIn regRowsCtx off
  | 8 => regIn regRowsFab off
  | 9 => regIn regRowsCol off
  | 10 => regIn regRowsDrs off
  | 11 => regIn regRowsCab off
  | 12 => regIn regRowsTier off
  | 13 => regIn regRowsChest off
  | 14 => regIn regRowsFpu off
  | 15 => regIn regRowsCkp off
  | n =>
    if n < 32 then
      match off % 0x20000 / 0x8000 with
      | 0 => regIn regRowsSeq off
      | 1 => regIn regRowsMxa off
      | 2 => regIn regRowsVec off
      | _ => none
    else if n = 256 then regIn regRowsHc off
    else none

/-- What a register that no command has written reads as: its reset value. -/
def csrReset (off : Nat) : Word :=
  match regAt off with
  | some r => BitVec.ofNat 64 r.reset
  | none => 0

/-- The power domain of the register at an offset (R895). -/
def regDomain (off : Nat) : Nat :=
  match off / 0x100000 with
  | 0 => if off < 0x100 then 27 else 26
  | 1 => 27
  | 2 => 27
  | 3 => 27
  | 4 => if 0x400100 ≤ off && off < 0x400148 then 21 else 24
  | 5 => 23
  | 6 => if off < 0x600100 then 27 else 21
  | 7 => 21
  | 8 =>
    if 0x801000 ≤ off && off < 0x801800 then
      let n := (off - 0x801000) / 0x40
      if n < 8 || (16 ≤ n && n < 24) then 18 else 19
    else 21
  | 9 => 21
  | 10 => 20
  | 11 => 21
  | 12 => 22
  | 13 => 22
  | 14 => 21
  | 15 => 23
  | n => if n < 32 then (off - 0x1000000) / 0x100000 else 21

namespace Reg

/-- BUR_DEV_ID (spec/00_scope.md). -/
def BUR_DEV_ID : Nat := 0x0
/-- BUR_SPARE_MAPd (spec/01_architecture.md). -/
def BUR_SPARE_MAP (d : Nat) : Nat := 0x40 + d * 0x8
/-- BUR_PLAN_CTRL (spec/02_steps_and_sync.md). -/
def BUR_PLAN_CTRL : Nat := 0x100
/-- BUR_PLAN_STATUS (spec/02_steps_and_sync.md). -/
def BUR_PLAN_STATUS : Nat := 0x108
/-- BUR_PLAN_STOPx (spec/02_steps_and_sync.md). -/
def BUR_PLAN_STOP (x : Nat) : Nat := 0x200 + x * 0x8
/-- BUR_PLACE_CTRL (spec/05_expert_exchange.md). -/
def BUR_PLACE_CTRL : Nat := 0x300
/-- BUR_PLACE_SWAP (spec/05_expert_exchange.md). -/
def BUR_PLACE_SWAP : Nat := 0x308
/-- BUR_PLACE_STATUS (spec/05_expert_exchange.md). -/
def BUR_PLACE_STATUS : Nat := 0x310
/-- BUR_STATUS (spec/17_boot_power_management.md). -/
def BUR_STATUS : Nat := 0x400
/-- BUR_FW_STATUS (spec/17_boot_power_management.md). -/
def BUR_FW_STATUS : Nat := 0x408
/-- BUR_ADMIT (spec/17_boot_power_management.md). -/
def BUR_ADMIT : Nat := 0x410
/-- BUR_FM (spec/17_boot_power_management.md). -/
def BUR_FM : Nat := 0x418
/-- BUR_PROTO_MINORj (spec/17_boot_power_management.md). -/
def BUR_PROTO_MINOR (j : Nat) : Nat := 0x420 + j * 0x8
/-- AON_OP (spec/17_boot_power_management.md). -/
def AON_OP : Nat := 0x100000
/-- AON_OP_STATUS (spec/17_boot_power_management.md). -/
def AON_OP_STATUS : Nat := 0x100008
/-- AON_FW_CTRL (spec/17_boot_power_management.md). -/
def AON_FW_CTRL : Nat := 0x100010
/-- AON_THERM (spec/17_boot_power_management.md). -/
def AON_THERM : Nat := 0x100018
/-- AON_POWER (spec/17_boot_power_management.md). -/
def AON_POWER : Nat := 0x100020
/-- AON_TEMPk (spec/17_boot_power_management.md). -/
def AON_TEMP (k : Nat) : Nat := 0x100040 + k * 0x8
/-- AON_LOG_STATUS (spec/17_boot_power_management.md). -/
def AON_LOG_STATUS : Nat := 0x1000c0
/-- AON_RAS_STATUS (spec/15_reliability_checkpoint.md). -/
def AON_RAS_STATUS : Nat := 0x100100
/-- AON_ECC_CE (spec/15_reliability_checkpoint.md). -/
def AON_ECC_CE : Nat := 0x100108
/-- AON_ECC_UE (spec/15_reliability_checkpoint.md). -/
def AON_ECC_UE : Nat := 0x100110
/-- AON_SCRUB_CFG (spec/15_reliability_checkpoint.md). -/
def AON_SCRUB_CFG : Nat := 0x100118
/-- AON_QUOTE_Wk (spec/17_boot_power_management.md). -/
def AON_QUOTE_W (k : Nat) : Nat := 0x100400 + k * 0x8
/-- AON_MRm_Wk (spec/17_boot_power_management.md). -/
def AON_MR_W (m : Nat) (k : Nat) : Nat := 0x100800 + m * 0x40 + k * 0x8
/-- AON_MR_EXTk (spec/17_boot_power_management.md). -/
def AON_MR_EXT (k : Nat) : Nat := 0x100a00 + k * 0x8
/-- AON_MR_EXTC (spec/17_boot_power_management.md). -/
def AON_MR_EXTC : Nat := 0x100a30
/-- AON_NONCEk (spec/17_boot_power_management.md). -/
def AON_NONCE (k : Nat) : Nat := 0x100a40 + k * 0x8
/-- AON_LOGi (spec/17_boot_power_management.md). -/
def AON_LOG (i : Nat) (w : Nat) : Nat := 0x110000 + i * 0x20 + w * 0x8
/-- PWR_DOMAIN_CTRL (spec/17_boot_power_management.md). -/
def PWR_DOMAIN_CTRL : Nat := 0x200000
/-- PWR_DOMAIN_STATUS (spec/17_boot_power_management.md). -/
def PWR_DOMAIN_STATUS : Nat := 0x200008
/-- PWR_CLK (spec/17_boot_power_management.md). -/
def PWR_CLK : Nat := 0x200010
/-- PWR_CAP (spec/17_boot_power_management.md). -/
def PWR_CAP : Nat := 0x200018
/-- PWR_WAKE (spec/17_boot_power_management.md). -/
def PWR_WAKE : Nat := 0x200020
/-- MGT_IDM_CMD (spec/16_external_interfaces.md). -/
def MGT_IDM_CMD : Nat := 0x300000
/-- MGT_IDM_DATAk (spec/16_external_interfaces.md). -/
def MGT_IDM_DATA (k : Nat) : Nat := 0x300008 + k * 0x8
/-- MGT_I3C_STATUS (spec/16_external_interfaces.md). -/
def MGT_I3C_STATUS : Nat := 0x300100
/-- MGT_I3C_CTRL (spec/16_external_interfaces.md). -/
def MGT_I3C_CTRL : Nat := 0x300108
/-- HIF_LINK (spec/16_external_interfaces.md). -/
def HIF_LINK : Nat := 0x400000
/-- HIF_PF_WIN (spec/16_external_interfaces.md). -/
def HIF_PF_WIN : Nat := 0x400008
/-- HIF_VFn_CFG (spec/16_external_interfaces.md). -/
def HIF_VF_CFG (n : Nat) : Nat := 0x400100 + n * 0x8
/-- NET_Pp_STATUS (spec/16_external_interfaces.md). -/
def NET_P_STATUS (p : Nat) : Nat := 0x500000 + p * 0x8
/-- NET_TGTt_Wk (spec/16_external_interfaces.md). -/
def NET_TGT_W (t : Nat) (k : Nat) : Nat := 0x501000 + t * 0x40 + k * 0x8
/-- NET_INGi_Wk (spec/16_external_interfaces.md). -/
def NET_ING_W (i : Nat) (k : Nat) : Nat := 0x502000 + i * 0x40 + k * 0x8
/-- TRS_TIME (spec/13_determinism_replay.md). -/
def TRS_TIME : Nat := 0x600000
/-- TRS_CFG (spec/13_determinism_replay.md). -/
def TRS_CFG : Nat := 0x600008
/-- TRS_SYNC (spec/13_determinism_replay.md). -/
def TRS_SYNC : Nat := 0x600010
/-- TRS_CTXx_STATE (spec/02_steps_and_sync.md). -/
def TRS_CTX_STATE (x : Nat) : Nat := 0x600100 + x * 0x10
/-- TRS_CTXx_STEP (spec/02_steps_and_sync.md). -/
def TRS_CTX_STEP (x : Nat) : Nat := 0x600108 + x * 0x10
/-- CTX_CTXx_STATUS (spec/14_contexts_faults.md). -/
def CTX_CTX_STATUS (x : Nat) : Nat := 0x700000 + x * 0x40
/-- CTX_CTXx_CTRL (spec/14_contexts_faults.md). -/
def CTX_CTX_CTRL (x : Nat) : Nat := 0x700008 + x * 0x40
/-- CTX_CTXx_SERVE (spec/14_contexts_faults.md). -/
def CTX_CTX_SERVE (x : Nat) : Nat := 0x700010 + x * 0x40
/-- CTX_CTXx_SEGi (spec/14_contexts_faults.md). -/
def CTX_CTX_SEG (x : Nat) (i : Nat) (w : Nat) : Nat := 0x740000 + x * 0x8000 + i * 0x20 + w * 0x8
/-- FAB_NODE (spec/11_nonex_fabric.md). -/
def FAB_NODE : Nat := 0x800000
/-- FAB_TIMEOUT (spec/11_nonex_fabric.md). -/
def FAB_TIMEOUT : Nat := 0x800008
/-- FAB_VCW (spec/11_nonex_fabric.md). -/
def FAB_VCW : Nat := 0x800010
/-- FAB_COMBINE (spec/11_nonex_fabric.md). -/
def FAB_COMBINE : Nat := 0x800018
/-- FAB_SWING (spec/11_nonex_fabric.md). -/
def FAB_SWING : Nat := 0x800020
/-- FAB_DISC_CTRL (spec/11_nonex_fabric.md). -/
def FAB_DISC_CTRL : Nat := 0x800028
/-- FAB_DISC_STATUS (spec/11_nonex_fabric.md). -/
def FAB_DISC_STATUS : Nat := 0x800030
/-- FAB_LATE (spec/11_nonex_fabric.md). -/
def FAB_LATE : Nat := 0x800038
/-- FAB_DROP (spec/11_nonex_fabric.md). -/
def FAB_DROP : Nat := 0x800040
/-- FAB_PKEYk (spec/11_nonex_fabric.md). -/
def FAB_PKEY (k : Nat) : Nat := 0x800100 + k * 0x8
/-- FAB_CTXx_ID (spec/11_nonex_fabric.md). -/
def FAB_CTX_ID (x : Nat) : Nat := 0x800200 + x * 0x8
/-- FAB_Pn_CFG (spec/11_nonex_fabric.md). -/
def FAB_P_CFG (n : Nat) : Nat := 0x801000 + n * 0x40
/-- FAB_Pn_STATUS (spec/11_nonex_fabric.md). -/
def FAB_P_STATUS (n : Nat) : Nat := 0x801008 + n * 0x40
/-- FAB_Pn_PEER (spec/11_nonex_fabric.md). -/
def FAB_P_PEER (n : Nat) : Nat := 0x801010 + n * 0x40
/-- FAB_Pn_FEC (spec/11_nonex_fabric.md). -/
def FAB_P_FEC (n : Nat) : Nat := 0x801018 + n * 0x40
/-- FAB_Pn_RETRY (spec/11_nonex_fabric.md). -/
def FAB_P_RETRY (n : Nat) : Nat := 0x801020 + n * 0x40
/-- FAB_ROUTEb (spec/11_nonex_fabric.md). -/
def FAB_ROUTE (b : Nat) : Nat := 0x810000 + b * 0x8
/-- FAB_MCASTg (spec/11_nonex_fabric.md). -/
def FAB_MCAST (g : Nat) : Nat := 0x820000 + g * 0x8
/-- COL_STATUS (spec/12_collectives.md). -/
def COL_STATUS : Nat := 0x900000
/-- COL_FAULT (spec/12_collectives.md). -/
def COL_FAULT : Nat := 0x900008
/-- COL_BYTES (spec/12_collectives.md). -/
def COL_BYTES : Nat := 0x900010
/-- COL_CTXx_CFG (spec/12_collectives.md). -/
def COL_CTX_CFG (x : Nat) : Nat := 0x900e00 + x * 0x8
/-- COL_CTXx_SAT (spec/12_collectives.md). -/
def COL_CTX_SAT (x : Nat) : Nat := 0x900e80 + x * 0x8
/-- COL_CTXx_XSAT (spec/05_expert_exchange.md). -/
def COL_CTX_XSAT (x : Nat) : Nat := 0x900f00 + x * 0x8
/-- DRS_GROUP_UNIT (spec/04_dresser.md). -/
def DRS_GROUP_UNIT : Nat := 0xa00000
/-- DRS_Uu_STATUS (spec/04_dresser.md). -/
def DRS_U_STATUS (u : Nat) : Nat := 0xa00100 + u * 0x40
/-- DRS_Uu_FAULT (spec/04_dresser.md). -/
def DRS_U_FAULT (u : Nat) : Nat := 0xa00108 + u * 0x40
/-- DRS_Uu_SCORES (spec/04_dresser.md). -/
def DRS_U_SCORES (u : Nat) : Nat := 0xa00110 + u * 0x40
/-- DRS_Uu_BUSY (spec/04_dresser.md). -/
def DRS_U_BUSY (u : Nat) : Nat := 0xa00118 + u * 0x40
/-- DRS_CTXx_DROPS (spec/04_dresser.md). -/
def DRS_CTX_DROPS (x : Nat) : Nat := 0xa00400 + x * 0x20
/-- DRS_CTXx_NANS (spec/04_dresser.md). -/
def DRS_CTX_NANS (x : Nat) : Nat := 0xa00408 + x * 0x20
/-- DRS_CTXx_ZEROSUM (spec/04_dresser.md). -/
def DRS_CTX_ZEROSUM (x : Nat) : Nat := 0xa00410 + x * 0x20
/-- DRS_CTXx_BIAS (spec/04_dresser.md). -/
def DRS_CTX_BIAS (x : Nat) : Nat := 0xa00418 + x * 0x20
/-- DRS_CTXx_PLACE_ID (spec/05_expert_exchange.md). -/
def DRS_CTX_PLACE_ID (x : Nat) : Nat := 0xa00800 + x * 0x20
/-- DRS_CTXx_PLACE_SWAP (spec/05_expert_exchange.md). -/
def DRS_CTX_PLACE_SWAP (x : Nat) : Nat := 0xa00808 + x * 0x20
/-- DRS_BIASi (spec/04_dresser.md). -/
def DRS_BIAS (i : Nat) : Nat := 0xa10000 + i * 0x8
/-- CAB_CTXx_CFG (spec/09_onchip_memory.md). -/
def CAB_CTX_CFG (x : Nat) : Nat := 0xb00000 + x * 0x200
/-- CAB_CTXx_Pp_BASE (spec/09_onchip_memory.md). -/
def CAB_CTX_P_BASE (x : Nat) (p : Nat) : Nat := 0xb00010 + x * 0x200 + p * 0x20
/-- CAB_CTXx_Pp_STATE (spec/09_onchip_memory.md). -/
def CAB_CTX_P_STATE (x : Nat) (p : Nat) : Nat := 0xb00018 + x * 0x200 + p * 0x20
/-- CAB_CTXx_Pp_RES (spec/09_onchip_memory.md). -/
def CAB_CTX_P_RES (x : Nat) (p : Nat) : Nat := 0xb00020 + x * 0x200 + p * 0x20
/-- CAB_CTXx_Pp_WAIT (spec/09_onchip_memory.md). -/
def CAB_CTX_P_WAIT (x : Nat) (p : Nat) : Nat := 0xb00028 + x * 0x200 + p * 0x20
/-- CAB_FAULT (spec/09_onchip_memory.md). -/
def CAB_FAULT : Nat := 0xb10000
/-- CAB_TOTAL (spec/09_onchip_memory.md). -/
def CAB_TOTAL : Nat := 0xb10008
/-- CAB_HC_INV (spec/09_onchip_memory.md). -/
def CAB_HC_INV : Nat := 0x10000000
/-- CAB_HC_STATUS (spec/09_onchip_memory.md). -/
def CAB_HC_STATUS : Nat := 0x10000008
/-- CAB_HC_HITS (spec/09_onchip_memory.md). -/
def CAB_HC_HITS : Nat := 0x10000010
/-- CAB_HC_MISSES (spec/09_onchip_memory.md). -/
def CAB_HC_MISSES : Nat := 0x10000018
/-- CAB_HC_CTXx_WAYS (spec/09_onchip_memory.md). -/
def CAB_HC_CTX_WAYS (x : Nat) : Nat := 0x10000100 + x * 0x8
/-- CAB_HC_CTXx_PIN_BASE (spec/09_onchip_memory.md). -/
def CAB_HC_CTX_PIN_BASE (x : Nat) : Nat := 0x10000200 + x * 0x10
/-- CAB_HC_CTXx_PIN_SIZE (spec/09_onchip_memory.md). -/
def CAB_HC_CTX_PIN_SIZE (x : Nat) : Nat := 0x10000208 + x * 0x10
/-- TIER_CAP_CFG (spec/10_memory_tiers.md). -/
def TIER_CAP_CFG : Nat := 0xc00000
/-- TIER_POOLt_CFG (spec/10_memory_tiers.md). -/
def TIER_POOL_CFG (t : Nat) : Nat := 0xc00010 + t * 0x8
/-- TIER_CTXx_STATE (spec/10_memory_tiers.md). -/
def TIER_CTX_STATE (x : Nat) : Nat := 0xc00100 + x * 0x10
/-- TIER_CTXx_HELD (spec/10_memory_tiers.md). -/
def TIER_CTX_HELD (x : Nat) : Nat := 0xc00108 + x * 0x10
/-- TIER_FAULT (spec/10_memory_tiers.md). -/
def TIER_FAULT : Nat := 0xc00200
/-- CHEST_STATUS (spec/10_memory_tiers.md). -/
def CHEST_STATUS : Nat := 0xd00000
/-- CHEST_CFG (spec/10_memory_tiers.md). -/
def CHEST_CFG : Nat := 0xd00008
/-- CHEST_NS_CMD (spec/10_memory_tiers.md). -/
def CHEST_NS_CMD : Nat := 0xd00010
/-- CHEST_NSk_INFO (spec/10_memory_tiers.md). -/
def CHEST_NS_INFO (k : Nat) : Nat := 0xd00100 + k * 0x10
/-- CHEST_NSk_MAP (spec/10_memory_tiers.md). -/
def CHEST_NS_MAP (k : Nat) : Nat := 0xd00108 + k * 0x10
/-- FPU_CTXx_JBASE (spec/13_determinism_replay.md). -/
def FPU_CTX_JBASE (x : Nat) : Nat := 0xe00000 + x * 0x40
/-- FPU_CTXx_JSIZE (spec/13_determinism_replay.md). -/
def FPU_CTX_JSIZE (x : Nat) : Nat := 0xe00008 + x * 0x40
/-- FPU_CTXx_JHEAD (spec/13_determinism_replay.md). -/
def FPU_CTX_JHEAD (x : Nat) : Nat := 0xe00010 + x * 0x40
/-- FPU_CTXx_JTAIL (spec/13_determinism_replay.md). -/
def FPU_CTX_JTAIL (x : Nat) : Nat := 0xe00018 + x * 0x40
/-- FPU_CTXx_JCFG (spec/13_determinism_replay.md). -/
def FPU_CTX_JCFG (x : Nat) : Nat := 0xe00020 + x * 0x40
/-- FPU_SLOTi (spec/13_determinism_replay.md). -/
def FPU_SLOT (i : Nat) : Nat := 0xe10000 + i * 0x8
/-- CKP_CTXx_STATUS (spec/15_reliability_checkpoint.md). -/
def CKP_CTX_STATUS (x : Nat) : Nat := 0xf00000 + x * 0x40
/-- CKP_CTXx_STEP (spec/15_reliability_checkpoint.md). -/
def CKP_CTX_STEP (x : Nat) : Nat := 0xf00008 + x * 0x40
/-- CKP_CTXx_DIGESTk (spec/15_reliability_checkpoint.md). -/
def CKP_CTX_DIGEST (x : Nat) (k : Nat) : Nat := 0xf00010 + x * 0x40 + k * 0x8
/-- CKP_RESTORE_CTRL (spec/15_reliability_checkpoint.md). -/
def CKP_RESTORE_CTRL : Nat := 0xf00400
/-- CKP_RESTORE_STATUS (spec/15_reliability_checkpoint.md). -/
def CKP_RESTORE_STATUS : Nat := 0xf00408
/-- CKP_FAULT (spec/15_reliability_checkpoint.md). -/
def CKP_FAULT : Nat := 0xf00410
/-- SEQ_STATUS (spec/03_sequencer_isa.md). -/
def SEQ_STATUS (c : Nat) : Nat := 0x1000000 + c * 0x20000
/-- SEQ_EXC (spec/03_sequencer_isa.md). -/
def SEQ_EXC (c : Nat) : Nat := 0x1000008 + c * 0x20000
/-- SEQ_EXC_INFO (spec/03_sequencer_isa.md). -/
def SEQ_EXC_INFO (c : Nat) : Nat := 0x1000010 + c * 0x20000
/-- SEQ_ISSUED (spec/03_sequencer_isa.md). -/
def SEQ_ISSUED (c : Nat) : Nat := 0x1000018 + c * 0x20000
/-- SEQ_FETCH_BYTES (spec/03_sequencer_isa.md). -/
def SEQ_FETCH_BYTES (c : Nat) : Nat := 0x1000020 + c * 0x20000
/-- SEQ_STALLS (spec/03_sequencer_isa.md). -/
def SEQ_STALLS (c : Nat) : Nat := 0x1000028 + c * 0x20000
/-- SEQ_CFG (spec/03_sequencer_isa.md). -/
def SEQ_CFG (c : Nat) : Nat := 0x1000030 + c * 0x20000
/-- SEQ_CODE (spec/03_sequencer_isa.md). -/
def SEQ_CODE (c : Nat) : Nat := 0x1000038 + c * 0x20000
/-- SEQ_SREGk (spec/03_sequencer_isa.md). -/
def SEQ_SREG (c : Nat) (k : Nat) : Nat := 0x1000100 + c * 0x20000 + k * 0x8
/-- SEQ_AREGk (spec/03_sequencer_isa.md). -/
def SEQ_AREG (c : Nat) (k : Nat) : Nat := 0x1000200 + c * 0x20000 + k * 0x8
/-- SEQ_PREGS (spec/03_sequencer_isa.md). -/
def SEQ_PREGS (c : Nat) : Nat := 0x1000280 + c * 0x20000
/-- SEQ_SPM_LOST (spec/09_onchip_memory.md). -/
def SEQ_SPM_LOST (c : Nat) : Nat := 0x1000400 + c * 0x20000
/-- SEQ_SPM_LOSTCNT (spec/09_onchip_memory.md). -/
def SEQ_SPM_LOSTCNT (c : Nat) : Nat := 0x1000408 + c * 0x20000
/-- SEQ_SPM_STALLS (spec/09_onchip_memory.md). -/
def SEQ_SPM_STALLS (c : Nat) : Nat := 0x1000410 + c * 0x20000
/-- MXA_STATUS (spec/06_matrix_array.md). -/
def MXA_STATUS (c : Nat) : Nat := 0x1008000 + c * 0x20000
/-- MXA_FAULT_INFO (spec/06_matrix_array.md). -/
def MXA_FAULT_INFO (c : Nat) : Nat := 0x1008008 + c * 0x20000
/-- MXA_WIN (spec/06_matrix_array.md). -/
def MXA_WIN (c : Nat) : Nat := 0x1008010 + c * 0x20000
/-- MXA_CURR (spec/06_matrix_array.md). -/
def MXA_CURR (c : Nat) : Nat := 0x1008018 + c * 0x20000
/-- MXA_FREEZE (spec/06_matrix_array.md). -/
def MXA_FREEZE (c : Nat) : Nat := 0x1008020 + c * 0x20000
/-- MXA_DUMMY (spec/06_matrix_array.md). -/
def MXA_DUMMY (c : Nat) : Nat := 0x1008028 + c * 0x20000
/-- MXA_SPTHR (spec/07_sparsity.md). -/
def MXA_SPTHR (c : Nat) : Nat := 0x1008030 + c * 0x20000
/-- MXA_HACC (spec/07_sparsity.md). -/
def MXA_HACC (c : Nat) : Nat := 0x1008038 + c * 0x20000
/-- MXA_HACC_OVF (spec/07_sparsity.md). -/
def MXA_HACC_OVF (c : Nat) : Nat := 0x1008040 + c * 0x20000
/-- MXA_CTXx_SAT (spec/06_matrix_array.md). -/
def MXA_CTX_SAT (c : Nat) (x : Nat) : Nat := 0x1008100 + c * 0x20000 + x * 0x8
/-- MXA_CTXx_SPILL (spec/07_sparsity.md). -/
def MXA_CTX_SPILL (c : Nat) (x : Nat) : Nat := 0x1008140 + c * 0x20000 + x * 0x8
/-- VEC_STATUS (spec/08_vector_engine.md). -/
def VEC_STATUS (c : Nat) : Nat := 0x1010000 + c * 0x20000
/-- VEC_FAULT_INFO (spec/08_vector_engine.md). -/
def VEC_FAULT_INFO (c : Nat) : Nat := 0x1010008 + c * 0x20000
/-- VEC_RMODE (spec/08_vector_engine.md). -/
def VEC_RMODE (c : Nat) : Nat := 0x1010010 + c * 0x20000
/-- VEC_WIN (spec/08_vector_engine.md). -/
def VEC_WIN (c : Nat) : Nat := 0x1010018 + c * 0x20000
/-- VEC_SRKEY (spec/08_vector_engine.md). -/
def VEC_SRKEY (c : Nat) : Nat := 0x1010020 + c * 0x20000
/-- VEC_SRIDX (spec/08_vector_engine.md). -/
def VEC_SRIDX (c : Nat) : Nat := 0x1010028 + c * 0x20000
/-- VEC_CNT (spec/08_vector_engine.md). -/
def VEC_CNT (c : Nat) : Nat := 0x1010030 + c * 0x20000
/-- VEC_LANE (spec/08_vector_engine.md). -/
def VEC_LANE (c : Nat) : Nat := 0x1010038 + c * 0x20000
/-- VEC_CTXx_SAT (spec/08_vector_engine.md). -/
def VEC_CTX_SAT (c : Nat) (x : Nat) : Nat := 0x1010100 + c * 0x20000 + x * 0x8
/-- VEC_CTXx_CVT (spec/08_vector_engine.md). -/
def VEC_CTX_CVT (c : Nat) (x : Nat) : Nat := 0x1010140 + c * 0x20000 + x * 0x8
/-- Word k of the fault record of context x (R757). -/
def CTX_FR (x : Nat) (k : Nat) : Nat := 0x710000 + x * 0x2000 + k * 0x8

end Reg

end Sys2Proof.Machine
end

