-- ==== Sys2Proof/Machine/State.lean ====
section
/-!
DEFINITION. The state of the block: every register (the file csr), memory, and the state of each unit that is no register.
-/

namespace Sys2Proof.Machine

/-- Life-cycle state of a context, with its code in TRS_CTXx_STATE (R98, R100). -/
inductive CtxState where
  | unloaded | loaded | armed | waking | running | draining | closing | stopped | done | frozen
  deriving DecidableEq, Repr

/-- An extent of a cluster's code store held by a context's image (R149). -/
structure Extent where
  cl : Nat
  base : Nat
  len : Nat
  deriving DecidableEq, Repr

/-- A fingerprint slot of a context: its number and the device physical runs of its range, each with its offset from
BASE (R712, R713). -/
structure FpSlot where
  slot : Nat
  runs : List (Nat × Nat × Nat)
  deriving DecidableEq, Repr

/-- One context (R98 to R111, R728, R752). In CLOSING bdone counts the boundary actions performed: 1 the latch and the bias
swap, 2 every swap and the wait for ring space that began at tWait; woken holds the wake entries reached in the step; ended is when the
context last became STOPPED or DONE (R104). -/
structure Ctx where
  state : CtxState := .unloaded
  step : Word := 0
  late : Nat := 0
  plan : Bytes := []
  nReady : Nat := 0
  agreed : Bool := false
  tStart : Nat := 0
  tWake : Nat := 0
  tRun : Nat := 0
  slice : Bool := false
  jobDrained : Bool := false
  phase : Nat := 0
  holdEnd : Nat := 0
  images : List Extent := []
  slots : List FpSlot := []
  flags : Nat := 0
  unmarked : Bool := false
  tClose : Nat := 0
  gap : Bool := false
  jSkip : Bool := false
  woken : List Nat := []
  bdone : Nat := 0
  swapped : Bool := false
  tWait : Nat := 0
  ended : Option Nat := none
  deriving DecidableEq, Repr

/-- A plan command that BUR_PLAN_CTRL accepted (R903). -/
structure PlanCmd where
  kind : Nat
  ctx : Nat
  addr : Nat
  deriving DecidableEq, Repr

/-- One sync object (R112 to R125). -/
structure SyncObj where
  count : BitVec 32 := 0
  ovf : Bool := false
  owned : Bool := false
  ctx : Nat := 0
  reinit : Bool := false
  chain : Bool := false
  fired : Bool := false
  next : Nat := 0
  target : Nat := 0
  init : Nat := 0
  deriving DecidableEq, Repr

/-- A sync operation on its way to the sync store; issuer is the cluster and bundle offset of a sequencer's. -/
structure SyncReq where
  ctx : Nat
  obj : Nat
  val : Nat
  issuer : Option (Nat × Nat) := none
  deriving DecidableEq, Repr

/-- One transfer tracker (R133). src is the master it serves, 2 a cluster's DMA queue and 4 the collectives engine, and unit what that
master's fault register names, pc the offset of the issuing bundle; since is when it went IN_FLIGHT; rd marks a remote read; dva, rop,
robj and rval say what a response writes and updates at this device. -/
structure Tracker where
  addr : Nat := 0
  node : Nat := 0
  lsync : Nat := 0
  lop : Nat := 0
  lval : Nat := 0
  ctx : Nat := 0
  cluster : Nat := 0
  hub : Bool := false
  length : Nat := 0
  kind : Nat := 0
  state : Nat := 0
  src : Nat := 0
  unit : Nat := 0
  pc : Nat := 0
  since : Nat := 0
  dva : Nat := 0
  rd : Bool := false
  rop : Nat := 0
  robj : Nat := 0
  rval : Nat := 0
  deriving DecidableEq, Repr

/-- A local write that has left its port or engine and is not yet performed (R900): trk the tracker that follows it,
exch whether it is an exchange write (R901), amo the operation, size and RESULT of a local atomic (R635). -/
structure LWrite where
  trk : Nat
  ctx : Nat
  va : Nat
  data : Bytes
  poison : Bool := false
  rop : Nat := 0
  robj : Nat := 0
  rval : Nat := 0
  exch : Bool := false
  amo : Option (Nat × Nat × Nat) := none
  deriving DecidableEq, Repr

/-- A staged copy: an entry of a context in a pool (R552 to R557). frames holds its frames in page order, dirty its
dirty pages. -/
structure TierEnt where
  ctx : Nat
  obj : Nat
  pool : Nat
  frames : List Nat
  dirty : List Nat := []
  age : Nat := 0
  touched : Bool := false
  evicting : Bool := false
  deriving DecidableEq, Repr

/-- The prefetch list of a context (R563): the current layer, the next entry to start and the entries started and not complete. -/
structure Prefetch where
  layer : Nat := 0
  next : Nat := 0
  busy : List Nat := []
  stopped : Bool := false
  deriving DecidableEq, Repr

/-- One level of the hardware loop stack (R145). -/
structure LoopLevel where
  first : Nat
  last : Nat
  left : Nat
  deriving DecidableEq, Repr

/-- A sequencer's copy of its registers for one context (R145). -/
structure SeqRegs where
  s : SMap Word := []
  a : SMap (BitVec 48) := []
  p : SMap Bool := []
  pc : Nat := 0
  loops : List LoopLevel := []
  deriving DecidableEq, Repr

/-- What an enabled slot does when its bundle issues (R159, R160). -/
inductive SlotEff where
  /-- Write a scalar register (R163). -/
  | setS (r : Nat) (v : Word)
  /-- Write an address register. -/
  | setA (r : Nat) (v : BitVec 48)
  /-- Write a predicate. -/
  | setP (r : Nat) (v : Bool)
  /-- A taken control transfer (R173). -/
  | jump (target : Nat)
  /-- s.loop with a count above 0 (R175). -/
  | openLoop (l : LoopLevel)
  /-- s.loop with count 0. -/
  | skipTo (target : Nat)
  /-- s.lpop (R178). -/
  | popLoop
  /-- A scalar store or a tile store at a cluster-local offset (R168, R200). -/
  | store (ea : Nat) (data : Bytes)
  /-- A store of master m that loses words, given by number with the winning master, to merged writes (R510). -/
  | storeLosing (m ea : Nat) (data : Bytes) (lost : List (Nat × Nat))
  /-- Write a register of the cluster (R203). -/
  | csrw (off : Nat) (v : Word)
  /-- Hand a descriptor to its engine (R180, R185). -/
  | issue (kind ea : Nat) (data : Bytes)
  /-- Write a tile. -/
  | setTile (t : Nat) (v : Tile)
  /-- Send INC or ADD to a sync object (R193). -/
  | sync (obj val : Nat)
  /-- Wait for a sync object (R195). -/
  | wait (obj thr : Nat)
  /-- sync.endstep (R198). -/
  | endstep
  /-- Add to a running count of the context (R502). -/
  | count (reg n : Nat)
  /-- The vector engine must be free of vx.run and vx.wmax (R189). -/
  | useVec
  /-- VEC_SRIDX after the draws of an instruction (R477); an s.csrw to it in the bundle prevails. -/
  | vecIdx (v : Word)
  /-- An OIS event of the operation (R702). -/
  | oisMark
  /-- The operation breaches OIS completeness (R703). -/
  | breachMark
  deriving DecidableEq, Repr

/-- Why a slot cannot take effect. -/
inductive SlotFault where
  /-- A precise exception: code, SEQ_EXC_INFO, translation reason (R214, R737). -/
  | exc (code info trans : Nat)
  /-- The word read is poisoned: the context freezes with SOURCE DOMAIN (R762). -/
  | poison
  deriving DecidableEq, Repr

/-- A slot of the bundle being gathered at a sequencer: its 32 bits, the tile it writes, its precise fault
(code and SEQ_EXC_INFO), and its effects. -/
structure SlotRec where
  slot : Nat
  bits : Nat
  tile : Option Nat
  fault : Option SlotFault
  effs : List SlotEff
  deriving DecidableEq, Repr

/-- STATE of SEQ_STATUS (R221). -/
inductive SeqState where
  | idle | running | waiting | ended | frozen
  deriving DecidableEq, Repr

/-- A descriptor handed to an engine and not yet begun, with the registers sampled at its issue (R206). -/
structure Desc where
  ctx : Nat
  cl : Nat
  kind : Nat
  ea : Nat
  pc : Nat
  bytes : Bytes
  cfg : List Word := []
  prog : Nat := 0
  trk : Option Nat := none
  outs : List (Nat × Nat) := []
  deriving DecidableEq, Repr

/-- A stationary plane that mx.load filled (R362, R369): packed columns in the stored orientation, and its scale rows. -/
structure Plane where
  fmt : Nat
  rows : Nat
  cols : Nat
  sq : Bool
  data : List Bytes
  scales : List Bytes
  deriving DecidableEq, Repr

/-- One accumulator (R348 to R352): an FP32 encoding, an exact integer or unit count, or NaN in OIS mode. -/
inductive AccV where
  | fp (b : Nat)
  | num (n : Int)
  | nan
  deriving DecidableEq, Repr

/-- Held accumulators (R365), by rows, with the issuing bundle and address of the descriptor that last set HOLD. -/
structure Held where
  mode : Nat
  w : Int
  m : Nat
  n : Nat
  accs : List (List AccV)
  pc : Nat
  ea : Nat
  deriving DecidableEq, Repr

/-- The open hash accumulator (R435 to R445): what its first descriptor recorded, the 96-bit value of every key scattered,
and the issuing bundle and address of that descriptor. Which keys sit in the overflow table is no state (R445). -/
structure Hacc where
  bank : Nat
  ovfLog2 : Nat
  ovf : Nat
  m : Nat
  n : Nat
  w : Int
  keys : SMap Int
  pc : Nat
  ea : Nat
  deriving DecidableEq, Repr

/-- A descriptor that an engine works on, what it read at its start (the operand record of R361 and the window of R354 in the array, the
tensor descriptors and program words of R489 in the vector engine), and the device physical ranges that its outputs may be written in
while it runs. -/
structure Job where
  desc : Desc
  opr : Bytes := []
  w : Int := 0
  outs : List (Nat × Nat) := []
  deriving DecidableEq, Repr

/-- Supply-current control states of the array (R397). -/
inductive CurState where
  | off | rampUp | active | gap | rampDown
  deriving DecidableEq, Repr

/-- One cluster: its sequencer (R145 to R222), tiles, DMA fault word, its matrix array (R342 to R402, R434 to R452) and
its vector engine, each with the descriptor it works on. -/
structure Cluster where
  seq : SeqState := .idle
  gated : Bool := false
  ctx : Nat := 0
  staged : List SlotRec := []
  wait : Option (Nat × Nat) := none
  waitOk : Bool := false
  fetch : List Nat := []
  tiles : SMap Tile := []
  dmaFault : Word := 0
  mxNow : Option Job := none
  mxFrozen : Bool := false
  plane0 : Option Plane := none
  plane1 : Option Plane := none
  held : Option Held := none
  hacc : Option Hacc := none
  cur : CurState := .off
  act : Nat := 0
  vxNow : Option Job := none
  vxFrozen : Bool := false
  deriving DecidableEq, Repr

/-- The PLL of a cluster group (R135 to R137). -/
inductive Pll where
  | stopped | locking | locked
  deriving DecidableEq, Repr

/-- A packet header (R605); z holds the bits sent as 0: of word 1, of word 2 from bit 1, of word 3 from bit 11, and of the trailer
(R608) from bit 18. -/
structure Hdr where
  ty : Nat := 0
  vc : Nat := 0
  esc : Nat := 0
  sub : Nat := 0
  hops : Nat := 0
  dst : Nat := 0
  src : Nat := 0
  pkey : Nat := 0
  job : Nat := 0
  len : Nat := 0
  rmode : Nat := 0
  sop : Nat := 0
  sync : Nat := 0
  mcast : Nat := 0
  addr : Nat := 0
  aop : Nat := 0
  asz : Nat := 0
  seq : Nat := 0
  proxy : Nat := 0
  sval : Nat := 0
  z : Nat := 0
  deriving DecidableEq, Repr

/-- A packet held at the device's router: the port it came by (none where the device is its source), its payload, whether its trailer
carries POISON or a wrong CRC and which bits of that CRC are wrong (0: all of them), when it came, the output it waits at once routed,
with the ESC, SUB and HOPS it had before, the scratchpad words that its write loses (R510), and whether it stands in the input region it
came into (R612). -/
structure RPkt where
  port : Option Nat := none
  hdr : Hdr
  pay : Bytes := []
  poison : Bool := false
  bad : Bool := false
  flip : Nat := 0
  at_ : Nat := 0
  outp : Option Nat := none
  was : Option (Nat × Nat × Nat) := none
  lost : List (Nat × Nat) := []
  inReg : Bool := false
  deriving DecidableEq, Repr

/-- A combining entry (R641): the SRC and SEQ of every merged request (its PROXY in bit 24, log entry 21), when it was taken, and the
output at which the requests merged. -/
structure Combine where
  req : List (Nat × Nat)
  far : Bool
  since : Nat
  port : Nat := 0
  deriving DecidableEq, Repr

/-- A multicast entry (R646): the packet's SRC and SEQ, its arrival port, its branches that have not answered, and the
lowest refusal code received. -/
structure McEnt where
  src : Nat
  seq : Nat
  hdr : Hdr
  port : Option Nat
  left : List Nat
  nack : Option Nat := none
  deriving DecidableEq, Repr

/-- A superframe sent (R593, R594): its sequence, its 80-bit link word, its 160 units, and how many packets end in it. -/
structure Frame where
  seq : Nat
  lw : Nat
  units : Bytes
  ends : Nat
  deriving DecidableEq, Repr

/-- The link layer of a Nonex port (R593 to R603): sequence of the next superframe sent, sequence of the last accepted,
whether a retransmission is awaited, the superframes sent and not acknowledged, how often the
oldest was resent, whether the port was ADMITTED, when HOLD or SWING_WAIT began, whether the peer's SWING has come (R602); the packets of
the unit stream that have not left whole, each with whether its first unit has left; the link commands to send; whether a NAK is to be
sent; and the last ACK sent. -/
structure Link where
  txSeq : Nat := 0
  rxSeq : Nat := 4095
  awaiting : Bool := false
  replay : List Frame := []
  resent : Nat := 0
  admitted : Bool := false
  since : Nat := 0
  swing : Bool := false
  stream : List (Bool × Bytes) := []
  cmds : List (Nat × Nat) := []
  nakDue : Bool := false
  ackSent : Nat := 4095
  deriving DecidableEq, Repr

/-- A discovery epoch in progress (R647): the snapshot's ports, the ports that answered with the peer's node and port, and
when it began. -/
structure Disc where
  epoch : Nat
  ports : List Nat
  got : List (Nat × Nat × Nat) := []
  since : Nat
  deriving DecidableEq, Repr

/-- A line of the hub cache (R514, R518, R520): its way, its line number, and the context that pins it. -/
structure HcLine where
  way : Nat
  line : Nat
  pin : Option Nat := none
  deriving DecidableEq, Repr

/-- A Cabinet buffer that holds staged data: context, pool and index (R530). -/
structure Buf where
  ctx : Nat
  pool : Nat
  ix : Nat
  deriving DecidableEq, Repr

/-- A Cabinet request that waits (R532, R534): its context, client, size in bytes and the owner it names. -/
structure CabReq where
  ctx : Nat
  client : Nat
  size : Nat
  owner : Nat
  deriving DecidableEq, Repr

/-- An inbound packet moved out of its input region (R625): the Cabinet buffer it lies in, or none where its VC's client
is disabled (R525). -/
structure Parked where
  buf : Option Buf
  pkt : RPkt
  deriving DecidableEq, Repr

/-- A chunk in staging (R684, R686): the context, header, payload, whether poison covers it, and its Cabinet buffer. -/
structure Staged where
  ctx : Nat
  hdr : Hdr
  pay : Bytes
  poison : Bool := false
  buf : Option Buf := none
  deriving DecidableEq, Repr

/-- A transfer of the collectives engine that waits for a tracker of the hub-engine reserve: its packet, or, for a write
to the device itself, the local write, and what its tracker holds. -/
structure Send where
  hdr : Hdr
  pay : Bytes
  trk : Tracker
  here : Option LWrite := none
  deriving DecidableEq, Repr

/-- An operation of the collectives engine (R668): its group (0xFE and 0xFF the agreements of R681, 256 an exchange
operation), its number in the step, resolved window and input; the chunks consumed (source, phase, index, payload), the
outgoing streams handed over, the transfers that wait for a tracker, and those taken (tracker, generation). -/
structure CollOp where
  desc : Desc
  group : Nat
  seq : Nat
  w : Int := 0
  input : Bytes := []
  got : List (Nat × Nat × Nat × Bytes) := []
  sent : List Nat := []
  outq : List Send := []
  trks : List (Nat × Nat) := []
  outs : List (Nat × Nat) := []
  deriving DecidableEq, Repr

/-- A programmed flash unit (R573): its footer, and whether its location is stale. -/
structure FlashUnit where
  ns : Nat
  unit : Nat
  seq : Nat
  data : Bytes
  bad : Bool := false
  stale : Bool := false
  deriving DecidableEq, Repr

/-- A flash block: the Chest's record of it (R575 to R577). used is the number of its units programmed since its erase. -/
structure FlashBlk where
  used : Nat := 0
  erases : Nat := 0
  reads : Nat := 0
  retired : Bool := false
  deriving DecidableEq, Repr

/-- A namespace as the Chest keeps it over power cycles (R584, CHEST_NSk_INFO); born is the write sequence at its creation, which the
superblock keeps (log entry 123). -/
structure ChestNs where
  cap : Nat
  base : Nat
  ro : Bool := false
  born : Nat := 0
  deriving DecidableEq, Repr

/-- The Chest (R571 to R585): the geometry its flash reports (dies per channel, blocks per die, units per block), the usable
units U, the programmed units by location, the block records, the namespaces, the write sequence, units written since mount, the blocks
left of the reclamation reserve (R581), the last map checkpoint (R578, R583: the locations by namespace and unit, and the write sequence
it was made at), how often every good block was erased by FORMAT (R585), which each record counts on top of, and whether the blocks
without a record were retired by it. -/
structure Chest where
  dies : Nat := 0
  bpd : Nat := 0
  upb : Nat := 0
  usable : Nat := 0
  units : SMap FlashUnit := []
  blks : SMap FlashBlk := []
  ns : SMap ChestNs := []
  seq : Nat := 0
  since : Nat := 0
  reserve : Nat := 2048
  ckpt : SMap Nat := []
  ckSeq : Nat := 0
  formats : Nat := 0
  bare : Bool := false
  deriving DecidableEq, Repr

/-- What a RoCEv2 message of the device is (R804, R812). -/
inductive RdmaOp where
  | write | read | ack | nakAccess | nakInvalid | nakRnr
  deriving DecidableEq, Repr

/-- A RoCEv2 request of a target that is not acknowledged: kind 0 a shard, 1 a manifest, 2 a journal record, 3 a restore
read; its context, remote address, data or read length, first PSN and packets, whether it was sent, how often again, and when; and,
of a snapshot's, the tracker of the hub-engine reserve and the Cabinet buffer that it holds (R783). -/
structure NetMsg where
  kind : Nat
  ctx : Nat
  addr : Nat
  data : Bytes
  len : Nat
  psn : Nat
  pkts : Nat
  sent : Bool := false
  tries : Nat := 0
  at_ : Nat := 0
  trk : Option Nat := none
  buf : Option Buf := none
  deriving DecidableEq, Repr

/-- A queue pair (R805): 0 to 15 the targets, 16 to 31 the ingest regions; its next PSN, its requests, and how many congestion
notifications lowered its rate. -/
structure Qp where
  psn : Nat := 0
  msgs : List NetMsg := []
  slow : Nat := 0
  deriving DecidableEq, Repr

/-- A shard of a snapshot with its device physical pieces (R776, R777). -/
structure Shard where
  addr : Nat
  size : Nat
  roff : Nat
  name : Nat
  pieces : List (Nat × Nat)
  deriving DecidableEq, Repr

/-- A snapshot of a context (R775 to R785): phase 1 PENDING, 2 COPYING. From its point: the bytes of its shards, the protected
units with their poison, the state latched for the manifest, the shard messages sent and acknowledged, the manifest, and the units
copied before their turn with their buffers (R782). -/
structure Snap where
  cl : Nat
  body : Bytes
  shards : List Shard
  phase : Nat := 1
  step : Nat := 0
  datas : List Bytes := []
  units : List (Nat × Bool) := []
  head : Bytes := []
  syncs : Bytes := []
  bias : Bytes := []
  regs : Bytes := []
  sent : Nat := 0
  acked : Nat := 0
  man : Option Bytes := none
  manAcked : Bool := false
  early : List (Nat × Buf) := []
  deriving DecidableEq, Repr

/-- A restore in progress (R789): its context, target and manifest offset, the manifest as far as read, the shard and offset that
arrive next, the bytes of the shard so far, and the outcome once known. -/
structure Restore where
  ctx : Nat
  tgt : Nat
  off : Nat
  man : Bytes := []
  shard : Nat := 0
  buf : Bytes := []
  out : Option (Nat × Nat) := none
  deriving DecidableEq, Repr

/-- The Trestle's measurement of its offset (R705 to R707): the stamp, INTERVAL and port of the exchange in progress, when the
last began, consecutive good exchanges, the offset still to absorb, cycles since the counter last slewed, and whether it has
stepped. -/
structure Trs where
  sent : Option Nat := none
  intv : Nat := 0
  port : Nat := 0
  last : Option Nat := none
  good : Nat := 0
  slew : Int := 0
  wait : Nat := 0
  stepped : Bool := false
  deriving DecidableEq, Repr

/-- A placement command that BUR_PLACE_CTRL accepted (R326, R327): kind 1 STAGE, 2 CANCEL, 3 both; table is the private copy of
the staged table, none where it cannot be read. -/
structure PlaceCmd where
  kind : Nat
  ctx : Nat
  addr : Nat
  step : Nat
  late : Bool
  table : Option Bytes := none
  deriving DecidableEq, Repr

/-- The power-up sequence (R828 to R834, R846): the pins PWR_GOOD and PERST# (true while asserted), the stage reached (0 held,
1 hub PLL locking, 2 self test, 3 slot selection, 4 HBM training, 5 the groups rise, 6 capacity training, 7 the links rise, 8 done,
9 no valid slot), the booted slot, when the Bureau was released, whether a Bureau restart is in progress, whether a cold reset
waits for the package to cool (R856), the domains that rise (R849), the flash writes in progress as PWR_GOOD fell (R881), the
configuration the Bureau had set when power-up was complete (R895), and the parts declared failed since the cold reset (R770). -/
structure Boot where
  pwrGood : Bool := true
  perst : Bool := true
  stage : Nat := 0
  slot : Option Nat := none
  released : Nat := 0
  restart : Bool := false
  coldWait : Bool := false
  rising : List Nat := []
  flight : List (Nat × Nat) := []
  cfg : SMap Word := []
  declared : List (Nat × Nat) := []
  deriving DecidableEq, Repr

/-- A physical cluster slot (R27, R31 to R33): whether it is powered, and whether its clock reaches it. -/
structure PhysSlot where
  power : Bool := false
  clock : Bool := false
  deriving DecidableEq, Repr

/-- What the package keeps without power: the firmware store (R835) and the slots being written (R840), the identity memory (R823),
the parts declared failed (R770: kind 0 a cluster, 1 an HBM channel, 2 a capacity channel), and the fused root hash and
lifecycle byte (log entry 4). -/
structure Nv where
  fw : SMap Byte := []
  writing : List Nat := []
  idm : SMap Byte := []
  repair : List (Nat × Nat) := []
  rootHash : Bytes := List.replicate 48 0
  lifecycle : Byte := 0
  deriving DecidableEq, Repr

/-- The operation of the always-on controller in progress (R858, R860): its code once known, and when it began. -/
structure AonOp where
  op : Nat
  arg : Nat
  code : Nat
  since : Nat
  deriving DecidableEq, Repr

/-- An access of the identity memory that waits or runs (R825): by 0 the board controller, 1 the Bureau, 2 the host; path is the
management path of a message, none for a command of MGT_IDM_CMD; data is what a write stores. -/
structure IdmAcc where
  by_ : Nat
  path : Option Nat
  block : Nat
  data : Option Bytes
  deriving DecidableEq, Repr

/-- The always-on controller: its operation, f_t and f_p (R853), whether throttling is in force, THERMTRIP_N, consecutive hot
samples of each sensor (R856), the firmware update in progress with its slot and whether its last byte was written (R840),
identity memory accesses (R825), when telemetry was last sent (R867), and the uncorrectable errors of scratchpads and HBM that the
Bureau keeps as evidence (R770): when and where, and how many it has weighed. -/
structure Aon where
  op : Option AonOp := none
  fT : Nat := 1200
  fP : Nat := 1200
  hot : Bool := false
  thermtrip : Bool := false
  hots : SMap Nat := []
  upd : Option (Nat × Bool) := none
  idmQ : List IdmAcc := []
  telLast : Nat := 0
  ues : List (Nat × Nat) := []
  deriving DecidableEq, Repr

/-- What the block drives on its edges. -/
inductive Out where
  /-- An MSI-X event (R802): function 0 is the PF, 1 to 8 the VFs. -/
  | msix (fn vec : Nat)
  /-- An I3C In-Band Interrupt with its data byte (R818). -/
  | ibi (b : Nat)
  /-- The data of a register or window read, to its master. -/
  | data (src : Master) (bytes : Bytes)
  /-- A superframe that leaves by a Nonex port: its 80-bit link word and its 160 units (R593, R594). -/
  | superframe (port lw : Nat) (units : Bytes)
  /-- A RoCEv2 message on a network port to a remote queue pair (R804). -/
  | rdma (port dqpn : Nat) (op : RdmaOp) (psn rkey addr : Nat) (bytes : Bytes)
  /-- An alert over SGMII while the I3C bus is FAILED (R826). -/
  | sgmiiAlert (b : Nat)
  /-- A response of the management responder (R820, R822): path 0 I3C, 1 SGMII, 2 DOE; kind the request; code 0 performed, 1 refused,
  2 ALREADY_IN_UPDATE_MODE. -/
  | mgmt (path kind code : Nat) (bytes : Bytes)
  /-- The completion of a host read of a BAR of function fn; none is Unsupported Request (R796, R799). -/
  | bar (fn : Nat) (bytes : Option Bytes)
  /-- A recovery attempt of the I3C bus: SDA released, nine SCL pulses and a STOP (R826). -/
  | i3cRecover
  deriving DecidableEq, Repr

/-- Everything the spec gives the block. -/
structure Dev where
  time : Word := 0
  hubLocked : Bool := false
  csr : SMap Word := []
  mem : List Host.Cell := []
  poison : SMap Bool := []
  out : List Out := []
  freeCtr : Nat := 0
  planCmd : Option PlanCmd := none
  ctxs : SMap Ctx := []
  objs : SMap SyncObj := []
  syncQ : List SyncReq := []
  trks : SMap Tracker := []
  seqs : SMap SeqRegs := []
  clus : SMap Cluster := []
  descs : List Desc := []
  plls : SMap Pll := []
  windows : SMap Bool := []
  run : SMap Nat := []
  trkGen : SMap Nat := []
  lwrites : List LWrite := []
  tierEnts : List TierEnt := []
  prefetch : SMap Prefetch := []
  rtr : List RPkt := []
  combine : SMap Combine := []
  mcast : List McEnt := []
  links : SMap Link := []
  credit : SMap Nat := []
  drr : SMap Nat := []
  creditDue : SMap Nat := []
  disc : Option Disc := none
  swingNow : Option Nat := none
  swingMsg : Option (Nat × Nat × Nat) := none
  linkOff : SMap Bool := []
  parked : List Parked := []
  cabRec : SMap Nat := []
  jobs : List Job := []
  cache : SMap (List HcLine) := []
  biasWritten : SMap Bool := []
  placeTab : SMap Bytes := []
  placePend : SMap (Nat × Bytes) := []
  colls : List CollOp := []
  collSeq : SMap Nat := []
  staged : List Staged := []
  chest : Chest := {}
  nsCmd : Option Nat := none
  qps : SMap Qp := []
  netPause : SMap Bool := []
  netStage : SMap Word := []
  snaps : SMap Snap := []
  restore : Option Restore := none
  trs : Trs := {}
  placeCmd : Option PlaceCmd := none
  msixMask : SMap Bool := []
  msixPend : SMap Bool := []
  boot : Boot := {}
  nv : Nv := {}
  aon : Aon := {}
  slots : SMap PhysSlot := []
  cabPend : List CabReq := []
  netWait : List (Rdma × Option Nat) := []
  deriving DecidableEq, Repr

/-- The state: the commands that wait, first in first out, and the block. -/
structure State where
  pending : List Instr := []
  dev : Dev := {}
  deriving DecidableEq, Repr

/-- The block has no command that stops it with a fault: every fault of the device is a change of its state. -/
inductive Fault where
  /-- Raised by no command. -/
  | none
  deriving DecidableEq, Repr

/-- Reasons to refuse a command. -/
inductive Refusal where
  /-- The command has no meaning yet; raised by exec's refused arms only. Safe. -/
  | notModelled (mnemonic : String)
  deriving DecidableEq, Repr

/-- The block right after power-on reset (R828): every register at its reset value, nothing waiting. -/
def State.reset : State := {}

end Sys2Proof.Machine
end

