-- ==== Sys2Proof/Machine/Ops.lean ====
section
/-!
DEFINITION. The named operations over registers, memory, poison, the error log and contexts that every meaning is built from.
-/

namespace Sys2Proof.Machine

/-- What a byte of memory that nothing has written reads as (log entry 7). -/
def memDefault : Nat → Byte := fun _ => 0

/-- The canonical form of memory. -/
def Memory.wf (m : List Host.Cell) : Bool := mapWf memDefault m

/-- The tables of memory, registers, poison, contexts, sync objects, trackers and clusters in canonical form, so that equal contents
are equal data. -/
def Dev.settle (d : Dev) : Dev :=
  { d with
    mem := mapCanon memDefault d.mem
    csr := mapCanon csrReset d.csr
    poison := mapCanon (fun _ => false) d.poison
    ctxs := mapCanon (fun _ => {}) d.ctxs
    objs := mapCanon (fun _ => {}) d.objs
    trks := mapCanon (fun _ => {}) d.trks
    seqs := mapCanon (fun _ => {}) d.seqs
    clus := mapCanon (fun _ => {}) d.clus }

/-- Every table that a step settles is in canonical form. -/
def Dev.tablesWf (d : Dev) : Bool :=
  Memory.wf d.mem && mapWf csrReset d.csr && mapWf (fun _ => false) d.poison && mapWf (fun _ => ({} : Ctx)) d.ctxs &&
    mapWf (fun _ => ({} : SyncObj)) d.objs && mapWf (fun _ => ({} : Tracker)) d.trks && mapWf (fun _ => ({} : SeqRegs)) d.seqs &&
    mapWf (fun _ => ({} : Cluster)) d.clus

/-- Run a change of the block as a command's meaning: the queue is untouched. -/
def State.run (s : State) (f : Dev → Dev) : Host.Outcome State Fault Refusal := .next { s with dev := (f s.dev).settle }

/-! ### Registers -/

/-- The stored value of a register. -/
def Dev.reg (d : Dev) (off : Nat) : Word := mapGet csrReset d.csr off

/-- Write the stored value of a register. -/
def Dev.setReg (d : Dev) (off : Nat) (v : Word) : Dev := { d with csr := mapSet csrReset d.csr off v }

/-- Field of w bits at lo of a register. -/
def Dev.fld (d : Dev) (off lo w : Nat) : Nat := fieldOf (d.reg off) lo w

/-- Write a field of w bits at lo of a register. -/
def Dev.setFld (d : Dev) (off lo w x : Nat) : Dev := d.setReg off (setField (d.reg off) lo w x)

/-- One bit of a register. -/
def Dev.bit (d : Dev) (off i : Nat) : Bool := bitOf (d.reg off) i

/-- Write one bit of a register. -/
def Dev.setBit (d : Dev) (off i : Nat) (b : Bool) : Dev := d.setFld off i 1 b.toNat

/-- Add to a saturating counter field (R24). -/
def Dev.addFld (d : Dev) (off lo w n : Nat) : Dev := d.setFld off lo w (satAdd w (d.fld off lo w) n)

/-- A power domain is on (R848). -/
def Dev.domOn (d : Dev) (n : Nat) : Bool := n < 28 && d.bit Reg.PWR_DOMAIN_STATUS n

/-! ### What the block drives -/

/-- Drive a message on an edge. -/
def Dev.emit (d : Dev) (o : Out) : Dev := { d with out := d.out ++ [o] }

/-- Send an MSI-X event while domain 24 is on; a masked vector becomes pending instead (R802). The host masks and unmasks in the table of BAR4, which
no command reaches (log entry 42). -/
def Dev.msix (d : Dev) (fn vec : Nat) : Dev :=
  if !d.domOn 24 then d
  else if mapGet (fun _ => false) d.msixMask (fn * 16 + vec) then { d with msixPend := mapSet (fun _ => false) d.msixPend (fn * 16 + vec) true }
  else d.emit (.msix fn vec)

/-- The I3C bus is marked FAILED (R826). -/
def Dev.i3cFailed (d : Dev) : Bool := d.fld Reg.MGT_I3C_STATUS 0 2 == 3

/-- Raise an alert with its data byte: an In-Band Interrupt, or over SGMII while the I3C bus is FAILED (R818, R826). -/
def Dev.alert (d : Dev) (b : Nat) : Dev := d.emit (if d.i3cFailed then .sgmiiAlert b else .ibi b)

/-- The event of PF vector 1 + x, and vector 0 of each VF bound to x (R802). -/
def Dev.ctxEvent (d : Dev) (x : Nat) : Dev :=
  (upFrom 1 8).foldl
    (fun e n =>
      if e.bit (Reg.HIF_VF_CFG n) 3 && e.fld (Reg.HIF_VF_CFG n) 0 3 == x then e.msix n 0 else e)
    (d.msix 0 (1 + x))

/-- CSR block offset divided by 1 MiB, as an error log entry records it (R863). -/
def logBlock (off : Nat) : Nat :=
  let b := off / 0x100000
  if 16 ≤ b && b < 32 then 0x10 else if 48 ≤ b then 0xFF else b

/-- Write one error log entry (R862, R863) and raise its events (R865). -/
def Dev.log (d : Dev) (cls code block : Nat) (ctx : Option Nat) (unit detail : Nat) : Dev :=
  let n := (d.fld Reg.AON_LOG_STATUS 0 32 + 1) % 2 ^ 32
  let i := (n + 2 ^ 32 - 1) % 1024
  let w1 := n + cls * 2 ^ 32 + code * 2 ^ 40 + block * 2 ^ 48 +
    (match ctx with | some x => (x % 8) * 2 ^ 56 + 2 ^ 59 | none => 0)
  let d := d.setReg (Reg.AON_LOG i 0) d.time
  let d := d.setReg (Reg.AON_LOG i 1) (BitVec.ofNat 64 w1)
  let d := d.setReg (Reg.AON_LOG i 2) (BitVec.ofNat 64 (unit % 65536))
  let d := d.setReg (Reg.AON_LOG i 3) (BitVec.ofNat 64 detail)
  let d := d.setFld Reg.AON_LOG_STATUS 0 32 n
  (d.msix 0 0).alert 1

/-- Record a write that a register's own rule discards (R864, class CSR, code 0x02). -/
def Dev.logDiscard (d : Dev) (off : Nat) : Dev := d.log 1 2 (logBlock off) none 0 off

/-! ### Free values -/

/-- The next free value and the state that has used it (log entry 9). -/
def Dev.fresh (d : Dev) : Word × Dev := (Config.freeWord d.freeCtr, { d with freeCtr := d.freeCtr + 1 })

/-- n free bytes. -/
def Dev.freshBytes (d : Dev) (n : Nat) : Bytes × Dev :=
  ((upFrom d.freeCtr n).map Config.freeByte, { d with freeCtr := d.freeCtr + n })

/-! ### Contexts, clusters, objects, trackers -/

/-- Context x. -/
def Dev.ctx (d : Dev) (x : Nat) : Ctx := mapGet (fun _ => {}) d.ctxs x
/-- Write context x. -/
def Dev.setCtx (d : Dev) (x : Nat) (c : Ctx) : Dev := { d with ctxs := mapSet (fun _ => {}) d.ctxs x c }
/-- Change context x. -/
def Dev.modCtx (d : Dev) (x : Nat) (f : Ctx → Ctx) : Dev := d.setCtx x (f (d.ctx x))
/-- Cluster c. -/
def Dev.clu (d : Dev) (c : Nat) : Cluster := mapGet (fun _ => {}) d.clus c
/-- Write cluster c. -/
def Dev.setClu (d : Dev) (c : Nat) (k : Cluster) : Dev := { d with clus := mapSet (fun _ => {}) d.clus c k }
/-- Change cluster c. -/
def Dev.modClu (d : Dev) (c : Nat) (f : Cluster → Cluster) : Dev := d.setClu c (f (d.clu c))
/-- Sync object i. -/
def Dev.obj (d : Dev) (i : Nat) : SyncObj := mapGet (fun _ => {}) d.objs i
/-- Write sync object i. -/
def Dev.setObj (d : Dev) (i : Nat) (o : SyncObj) : Dev := { d with objs := mapSet (fun _ => {}) d.objs i o }
/-- Tracker k. -/
def Dev.trk (d : Dev) (k : Nat) : Tracker := mapGet (fun _ => {}) d.trks k
/-- Write tracker k. -/
def Dev.setTrk (d : Dev) (k : Nat) (t : Tracker) : Dev := { d with trks := mapSet (fun _ => {}) d.trks k t }
/-- Take a tracker for a transfer: its generation increases by 1 modulo 64 (R606). -/
def Dev.takeTrk (d : Dev) (k : Nat) (t : Tracker) : Dev :=
  { d.setTrk k t with trkGen := mapSet (fun _ => 0) d.trkGen k ((mapGet (fun _ => 0) d.trkGen k + 1) % 64) }
/-- The generation of a tracker. -/
def Dev.gen (d : Dev) (k : Nat) : Nat := mapGet (fun _ => 0) d.trkGen k
/-- Free a tracker. -/
def Dev.freeTrkEntry (d : Dev) (k : Nat) : Dev := d.setTrk k {}
/-- The sequencer registers of cluster c for context x (R145). -/
def Dev.seqr (d : Dev) (c x : Nat) : SeqRegs := mapGet (fun _ => {}) d.seqs (c * 8 + x)
/-- Write the sequencer registers of cluster c for context x. -/
def Dev.setSeqr (d : Dev) (c x : Nat) (r : SeqRegs) : Dev :=
  { d with seqs := mapSet (fun _ => {}) d.seqs (c * 8 + x) r }

/-- A context is loaded: it is not UNLOADED. -/
def Dev.loaded (d : Dev) (x : Nat) : Bool := (d.ctx x).state != .unloaded

/-- The contexts 0 to 7. -/
def allCtxs : List Nat := upFrom 0 8

/-- States in which a context can be frozen (R100). -/
def CtxState.active : CtxState → Bool
  | .armed | .waking | .running | .draining | .closing => true
  | _ => false

/-- The code of a state in TRS_CTXx_STATE. -/
def CtxState.code : CtxState → Nat
  | .unloaded => 0 | .loaded => 1 | .armed => 2 | .waking => 3 | .running => 4 | .draining => 5 | .closing => 6
  | .stopped => 7 | .done => 8 | .frozen => 9

/-- Populated size of the capacity tier in bytes (R542, R543). -/
def Dev.capSize (d : Dev) : Nat :=
  match d.fld Reg.TIER_CAP_CFG 0 3 with
  | 1 => 256 * 2 ^ 30
  | 2 => 512 * 2 ^ 30
  | 3 => 1024 * 2 ^ 30
  | 4 => 2048 * 2 ^ 30
  | _ => 0

/-- MAP_BYTES (R545). -/
def Dev.mapBytes (d : Dev) : Nat := d.fld Reg.TIER_CAP_CFG 40 8 * 2 ^ 30

/-- The segments of a context (R731, R732). -/
def Dev.segs (d : Dev) (x : Nat) : List Seg :=
  let c := d.ctx x
  if c.state = .unloaded then []
  else if (planFind c.plan 13).isSome then planSegs c.plan
  else defaultSegs d.capSize

/-! ### Memory (R67 to R70, R760, R762) -/

/-- One byte of device memory. -/
def Dev.byte (d : Dev) (a : Nat) : Byte := mapGet memDefault d.mem a

/-- The entries of bytes from an address upwards: those that an unlisted byte does not read as. -/
def memFresh : Nat → Bytes → List Host.Cell
  | _, [] => []
  | a, b :: t => if b = memDefault a then memFresh (a + 1) t else (a, b) :: memFresh (a + 1) t

/-- Write bytes from an address upwards: they stand between the entries below and above them. -/
def memSets (m : List Host.Cell) (a : Nat) (bs : Bytes) : List Host.Cell :=
  mapKeep (fun k => decide (k < a)) m ++ memFresh a bs ++ mapKeep (fun k => decide (a + bs.length ≤ k)) m

/-- Read n bytes of memory. -/
def Dev.read (d : Dev) (a n : Nat) : Bytes := (upFrom a n).map d.byte

/-- Size of the poison unit at an address (R760): 8 bytes in a scratchpad, 64 elsewhere. -/
def poisonUnit (a : Nat) : Nat := if 0x200000000000 ≤ a then 8 else 64

/-- One hub cycle: Trestle time counts while the hub clock runs (log entry 2); to absorb an offset it advances by 0 or by 2 in
one cycle of every 64 (R706). -/
def Dev.tick (d : Dev) : Dev :=
  if !d.hubLocked then d
  else if d.trs.slew = 0 then { d with time := d.time + 1 }
  else if d.trs.wait < 63 then { d with time := d.time + 1, trs := { d.trs with wait := d.trs.wait + 1 } }
  else if 0 < d.trs.slew then { d with time := d.time + 2, trs := { d.trs with wait := 0, slew := d.trs.slew - 1 } }
  else { d with trs := { d.trs with wait := 0, slew := d.trs.slew + 1 } }

/-- Some poison unit of a range is marked. -/
def Dev.poisoned (d : Dev) (a n : Nat) : Bool :=
  d.poison.any fun e => decide (e.1 < a + n) && decide (a < e.1 + poisonUnit e.1)

/-- Clear the marks of the units that a write covers whole (R762). -/
def clearPoison (p : SMap Bool) (a n : Nat) : SMap Bool :=
  mapKeep (fun k => !(decide (a ≤ k) && decide (k + poisonUnit k ≤ a + n))) p

/-- Write bytes to memory; a unit covered whole loses its mark, one covered in part keeps it (R762). -/
def Dev.write (d : Dev) (a : Nat) (bs : Bytes) : Dev :=
  { d with mem := memSets d.mem a bs, poison := clearPoison d.poison a bs.length }

/-- Mark every poison unit that a range touches (R762, R766). -/
def Dev.markPoison (d : Dev) (a n : Nat) : Dev :=
  if n = 0 then d
  else
    let u := poisonUnit a
    let first := a / u
    let last := (a + n - 1) / u
    let mark := fun (p : SMap Bool) (k : Nat) => mapSet (fun _ => false) p (k * u) true
    { d with poison := (upFrom first (last + 1 - first)).foldl mark d.poison }

/-- Device physical address of a cluster-local offset (R68). -/
def spadAddr (c off : Nat) : Nat := 0x200000000000 + c * 0x1000000 + off

/-- A word at an offset that a master of cluster c loses (R511). -/
def Dev.spmLoss (d : Dev) (c m off : Nat) : Dev :=
  let r := Reg.SEQ_SPM_LOST c
  let d := (d.setBit r m true).addFld (Reg.SEQ_SPM_LOSTCNT c) 0 64 1
  if d.bit r 39 then d else (d.setFld r 16 23 off).setBit r 39 true

/-- The rank of a scratchpad master at a bank (R504): 0 A, 1 B, 2 ACC, 3 VEC, 4 DIN, 5 DOUT, 6 DRS, 7 SEQ; 0 at its home bank. -/
def spmRank (m bank : Nat) : Nat := if m = bank then 0 else [2, 3, 1, 4, 6, 7, 5, 8].getD m 9

/-- A scratchpad master that writes (R504). -/
def spmWrites (m : Nat) : Bool := m == 2 || m == 3 || m == 4 || m == 6 || m == 7

/-- A write of master m loses the word at a cluster-local offset to a merged write of master w: w has the lower rank at the word's
bank (R509, R510). -/
def spmLoses (m w off : Nat) : Bool :=
  spmWrites m && spmWrites w && m != w && decide (spmRank w (off / 0x100000) < spmRank m (off / 0x100000))

/-- The scratchpad of a device address. -/
def spadOf (a : Nat) : Nat := (a - 0x200000000000) / 0x1000000

/-- Scratchpad words that a write loses, by device address and winning master (R509 to R511), m being its master at each address: each
word that the write covers and that the winner outranks is as before it, and the loss is recorded. -/
def Dev.loseWords (d before : Dev) (m : Nat → Nat) (covers : Nat → Bool) (lost : List (Nat × Nat)) : Dev :=
  let words := lost.filter fun l =>
    l.1 % 8 == 0 && decide (0x200000000000 ≤ l.1) && covers l.1 && spmLoses (m l.1) l.2 (l.1 % 0x1000000)
  (words.map Prod.fst).eraseDups.foldl
    (fun e a =>
      let p := mapSet (fun _ => false) e.poison a (mapGet (fun _ => false) before.poison a)
      ({ e with mem := memSets e.mem a (before.read a 8), poison := p } : Dev).spmLoss (spadOf a) (m a) (a % 0x1000000)) d

/-- The words that an engine of cluster c loses as master m in the ranges it writes; in another cluster's scratchpad its writes arrive
from the hub, as DIN (R504, R510). -/
def Dev.loseOuts (d before : Dev) (m c : Nat) (outs : List (Nat × Nat)) (lost : List (Nat × Nat)) : Dev :=
  d.loseWords before (fun a => if spadOf a = c then m else 4)
    (fun a => outs.any fun r => decide (r.1 < a + 8) && decide (a < r.1 + r.2)) lost

/-- The end of an engine's work, with the words that it loses; none while the work still stands, for it has not written. -/
def Dev.endLosing (d before : Dev) (stands : Bool) (m c : Nat) (outs : List (Nat × Nat)) (lost : List (Nat × Nat)) : Dev :=
  if stands then d else d.loseOuts before m c outs lost

/-- Keep an uncorrectable error of a scratchpad or of HBM as evidence (R770). -/
def Dev.keepUe (d : Dev) (a : Nat) : Dev :=
  if a < 0x6000000000 || 0x200000000000 ≤ a then { d with aon := { d.aon with ues := d.aon.ues ++ [(d.time.toNat, a)] } } else d

/-- An error that a read finds; lane 0 SRAM, 1 HBM, 2 capacity, 3 Chest (R761, R762): the error is counted and logged; an
uncorrectable one marks the word. -/
def Dev.eccEvent (d : Dev) (e : Ecc) (lane : Nat) (a : Nat) : Dev :=
  match e with
  | .clean => d
  | .corrected => (d.addFld Reg.AON_ECC_CE (16 * lane) 16 1).log 2 lane 0xFF none 0 a
  | .uncorrectable =>
    let d := (d.addFld Reg.AON_ECC_UE (16 * lane) 16 1).markPoison a 1
    (if lane ≤ 1 then d.keepUe a else d).log 3 lane 0xFF none 0 a

/-- An address of HBM (R67). -/
def isHbm (a : Nat) : Bool := decide (a < 0x6000000000)

/-- A range wholly in HBM. -/
def inHbm (a n : Nat) : Bool := decide (a + n ≤ 0x6000000000)

/-- A range wholly in the populated capacity tier outside MAP_BYTES (R545). -/
def Dev.inCap (d : Dev) (a n : Nat) : Bool :=
  decide (0x100000000000 ≤ a) && decide (a + n ≤ 0x100000000000 + d.capSize - d.mapBytes)

/-- A range wholly in one scratchpad window below the reserved offsets (R68, R69). -/
def inSpad (a n : Nat) : Bool :=
  decide (0x200000000000 ≤ a) && decide (a < 0x200080000000) && decide (a % 0x1000000 + n ≤ 0x800000)

/-- A range that touches the code store of its window (R148). -/
def touchesCode (off n : Nat) : Bool := decide (off < 0x780000) && decide (0x700000 < off + n)

/-- Domain of a cluster group's die interconnect (R58). -/
def dieDomain (g : Nat) : Nat := 16 + g / 8

/-! ### Fields of a cluster's registers -/

/-- Add to a running count of the context at a cluster. -/
def Dev.countUp (d : Dev) (off w n : Nat) : Dev := d.addFld off 0 w n

end Sys2Proof.Machine
end

