-- ==== Sys2Proof/Machine/Packet.lean ====
section
/-!
DEFINITION. Nonex packets (R604 to R609): the header, its words, the trailer, and the packets the device forms.
-/

namespace Sys2Proof.Machine

/-- The 32 header bytes (R605). -/
def Hdr.bytes (h : Hdr) : Bytes :=
  leBytes 8 (h.ty % 32 + h.vc % 8 * 2 ^ 5 + h.esc % 2 * 2 ^ 8 + h.sub % 2 * 2 ^ 9 + h.hops % 64 * 2 ^ 10 +
      h.dst % 65536 * 2 ^ 16 + h.src % 65536 * 2 ^ 32 + h.pkey % 65536 * 2 ^ 48) ++
    leBytes 8 (h.job % 65536 + h.len % 512 * 2 ^ 16 + h.rmode % 4 * 2 ^ 25 + h.sop % 16 * 2 ^ 28 + h.z % 2 * 2 ^ 27 +
      h.sync % 65536 * 2 ^ 32 + h.mcast % 65536 * 2 ^ 48) ++
    leBytes 8 (h.addr % 2 ^ 48 + h.aop % 16 * 2 ^ 48 + h.asz % 4 * 2 ^ 52 + h.z / 2 % 2 ^ 10 * 2 ^ 54) ++
    leBytes 8 (h.seq % 2 ^ 24 + h.proxy % 2 * 2 ^ 24 + h.z / 2 ^ 11 % 2 ^ 7 * 2 ^ 25 + h.sval % 2 ^ 32 * 2 ^ 32)

/-- The header in 32 bytes (R605). -/
def hdrOf (bs : Bytes) : Hdr :=
  let w0 := atLe bs 0 8
  let w1 := atLe bs 8 8
  let w2 := atLe bs 16 8
  let w3 := atLe bs 24 8
  { ty := bitsOf w0 0 5, vc := bitsOf w0 5 3, esc := bitsOf w0 8 1, sub := bitsOf w0 9 1, hops := bitsOf w0 10 6,
    dst := bitsOf w0 16 16, src := bitsOf w0 32 16, pkey := bitsOf w0 48 16, job := bitsOf w1 0 16,
    len := bitsOf w1 16 9, rmode := bitsOf w1 25 2, sop := bitsOf w1 28 4, sync := bitsOf w1 32 16,
    mcast := bitsOf w1 48 16, addr := bitsOf w2 0 48, aop := bitsOf w2 48 4, asz := bitsOf w2 52 2,
    seq := bitsOf w3 0 24, proxy := bitsOf w3 24 1, sval := bitsOf w3 32 32,
    z := bitsOf w1 27 1 + bitsOf w2 54 10 * 2 + bitsOf w3 25 7 * 2 ^ 11 }

/-- Payload units on the wire: a READ carries none (R607, R608). -/
def Hdr.units (h : Hdr) : Nat := if h.ty = 3 then 0 else h.len

/-- Units of the whole packet (R604). -/
def Hdr.wire (h : Hdr) : Nat := h.units + 3

/-- CRC of a packet (R608): ESC, SUB and HOPS are taken as 0. -/
def Hdr.crc (h : Hdr) (pay : Bytes) : Nat :=
  crc32c (Hdr.bytes { h with esc := 0, sub := 0, hops := 0 } ++ pay)

/-- The bytes of a packet: header, payload, trailer (R608). A packet that came with a wrong CRC leaves with it. -/
def RPkt.bytes (p : RPkt) : Bytes :=
  let c := p.hdr.crc p.pay
  p.hdr.bytes ++ p.pay ++ leBytes 4 (if p.bad then c ^^^ (if p.flip = 0 then 2 ^ 32 - 1 else p.flip) else c) ++
    leBytes 12 (p.poison.toNat + p.hdr.z / 2 ^ 18 * 2)

/-- A packet that arrives at a port, from its bytes (R604, R608); a string of the wrong length has no right CRC. -/
def arrive (p : Packet) (now : Nat) : RPkt :=
  let h := hdrOf p.bytes
  let n := 16 * h.units
  let pay := (p.bytes.drop 32).take n
  let tr := p.bytes.drop (32 + n)
  { port := some p.port, hdr := { h with z := h.z + bitsOf (leNat tr) 33 95 * 2 ^ 18 }, pay := pay,
    poison := bitsOf (leNat tr) 32 1 == 1, bad := p.bytes.length != n + 48 || atLe tr 0 4 != h.crc pay,
    flip := atLe tr 0 4 ^^^ h.crc pay, at_ := now, lost := p.lost, inReg := true }

/-- The device's own node (R656). -/
def Dev.node (d : Dev) : Nat := d.fld Reg.FAB_NODE 0 16
/-- The bench number of a node (R591). -/
def benchOf (n : Nat) : Nat := n / 16 % 4096
/-- PKEY of a context (R622). -/
def Dev.pkey (d : Dev) (x : Nat) : Nat := d.fld (Reg.FAB_CTX_ID x) 16 16

/-- Hand a packet that the device forms to its router. -/
def Dev.inject (d : Dev) (h : Hdr) (pay : Bytes) (poison : Bool) : Dev :=
  { d with rtr := d.rtr ++ [{ hdr := h, pay := pay, poison := poison, at_ := d.time.toNat }] }

/-- The header of a packet sent for a context (R622). -/
def Dev.ctxHdr (d : Dev) (x ty vc dst : Nat) : Hdr :=
  { ty := ty, vc := vc, dst := dst, src := d.node, pkey := d.pkey x, job := planJob (d.ctx x).plan }

/-- The SEQ of a transfer on tracker k (R605, R606). -/
def Dev.tag (d : Dev) (k : Nat) : Nat := k % 2 ^ 18 + d.gen k % 64 * 2 ^ 18

/-- The header of a response to a request (R605, R607). -/
def Dev.respHdr (d : Dev) (q : Hdr) (ty len sval : Nat) : Hdr :=
  { ty := ty, vc := 6, dst := q.src, src := d.node, pkey := q.pkey, job := q.job, len := len, seq := q.seq,
    proxy := q.proxy, sval := sval }

/-- A management message on VC0 under the fabric key (R622, R868). -/
def Dev.sendMgmt (d : Dev) (dst : Nat) (body : Bytes) : Dev :=
  let n := (body.length + 15) / 16
  d.inject { ty := 0x18, vc := 0, dst := dst, src := d.node, pkey := 0xFFFF, len := n }
    (body ++ List.replicate (16 * n - body.length) 0) false

end Sys2Proof.Machine
end

