-- ==== Sys2Proof/Machine/Pools.lean ====
section
/-!
DEFINITION. The pools of the Cabinet (R524 to R532): their registers, buffers, ownership records and free lists.
-/

namespace Sys2Proof.Machine

/-- The offset lies in the bank of an open hash accumulator (R437). -/
def Dev.inOpenHash (d : Dev) (c off n : Nat) : Bool :=
  match (d.clu c).hacc with
  | none => false
  | some h => decide (off < h.bank * 0x100000 + 0x100000) && decide (h.bank * 0x100000 < off + n)

/-- The largest request of a client in bytes (R524); 0 for a number that is not used. -/
def cabLargest : Nat → Nat
  | 1 => 256 | 2 => 4096 | 3 => 4096 | 4 => 4096 | 5 => 4096 | 6 => 4096 | 8 => 16384 | 9 => 65536 | 10 => 262144
  | 11 => 4096 | _ => 0

/-- Pools of a context. -/
def Dev.cabPools (d : Dev) (x : Nat) : Nat := d.fld (Reg.CAB_CTX_CFG x) 0 4
/-- A client is enabled for a context (R525). -/
def Dev.cabOn (d : Dev) (x c : Nat) : Bool := d.bit (Reg.CAB_CTX_CFG x) (16 + c)
/-- Buffer size of a pool. -/
def Dev.cabSize (d : Dev) (x p : Nat) : Nat := 2 ^ d.fld (Reg.CAB_CTX_P_BASE x p) 48 5
/-- The pools that a context holds: BASE, buffer size exponent and COUNT (R529, R539). -/
def Dev.cabHas (d : Dev) (x : Nat) : List (Nat × Nat × Nat) :=
  (upFrom 0 (d.cabPools x)).map fun p =>
    (d.fld (Reg.CAB_CTX_P_BASE x p) 0 48, d.fld (Reg.CAB_CTX_P_BASE x p) 48 5, d.fld (Reg.CAB_CTX_P_STATE x p) 32 15)
/-- Address of a buffer (R530). -/
def Dev.cabAddr (d : Dev) (b : Buf) : Nat :=
  d.fld (Reg.CAB_CTX_P_BASE b.ctx b.pool) 0 48 + b.ix * d.cabSize b.ctx b.pool
/-- Free buffers of a pool. -/
def Dev.cabFree (d : Dev) (x p : Nat) : Nat := d.fld (Reg.CAB_CTX_P_STATE x p) 0 16
/-- Reserves of a pool that are held (R532). -/
def Dev.cabHeld (d : Dev) (x p : Nat) : Nat := popCount 16 (d.fld (Reg.CAB_CTX_P_RES x p) 0 16)
/-- Key of an ownership record (R531). -/
def recKey (b : Buf) : Nat := (b.ctx * 8 + b.pool) * 16384 + b.ix
/-- The owner of a buffer, or none while it is FREE (R531). -/
def Dev.cabOwner (d : Dev) (b : Buf) : Option Nat :=
  match mapGet (fun _ => 0) d.cabRec (recKey b) with
  | 0 => none
  | n + 1 => some n
/-- Write an ownership record. -/
def Dev.setOwner (d : Dev) (b : Buf) (o : Option Nat) : Dev :=
  { d with cabRec := mapSet (fun _ => 0) d.cabRec (recKey b) (match o with | some n => n + 1 | none => 0) }

/-- The smallest pool whose buffers hold n bytes: the home pool of a client for its largest request (R527). -/
def Dev.fitPool (d : Dev) (x n : Nat) : Option Nat := firstIn (fun p => decide (n ≤ d.cabSize x p)) (upFrom 0 (d.cabPools x))
/-- The home pool of a client (R527). -/
def Dev.homePool (d : Dev) (x c : Nat) : Option Nat := d.fitPool x (cabLargest c)

/-- The link word of a free buffer (R530). -/
def linkWord (next pool ctx : Nat) : Nat := next % 65536 + pool % 8 * 2 ^ 16 + ctx % 8 * 2 ^ 19 + 0x46424143 * 2 ^ 32

/-- A buffer lies in the bank of an open hash accumulator, which refuses the Cabinet's access (R437). -/
def Dev.cabBlocked (d : Dev) (b : Buf) : Bool :=
  let a := d.cabAddr b
  decide (0x200000000000 ≤ a) && d.inOpenHash (spadOf a) (a % 0x1000000) (d.cabSize b.ctx b.pool)

/-- The cause a handoff or release meets first by code (R532, R537): own is the code of the owner check. -/
def Dev.cabCheck (d : Dev) (b : Buf) (by_ own : Nat) : Option Nat :=
  if d.cabPools b.ctx ≤ b.pool || d.fld (Reg.CAB_CTX_P_STATE b.ctx b.pool) 32 15 ≤ b.ix then some 4
  else
    match d.cabOwner b with
    | none => some 2
    | some o => if o = by_ then none else some own

/-- Refill the lowest empty reserve of a pool after a release (R532). -/
def Dev.cabRefill (d : Dev) (x p : Nat) : Dev :=
  let c := firstIn (fun c => d.cabOn x c && d.homePool x c == some p && !d.bit (Reg.CAB_CTX_P_RES x p) c) (upFrom 0 16)
  match c with
  | some c => d.setBit (Reg.CAB_CTX_P_RES x p) c true
  | none => d

/-- A buffer whose release passes its checks goes to the head of its free list, and the lowest empty reserve of its pool is
refilled (R532). -/
def Dev.cabPut (d : Dev) (b : Buf) : Dev :=
  let st := Reg.CAB_CTX_P_STATE b.ctx b.pool
  let d := d.write (d.cabAddr b) (leBytes 8 (linkWord (d.fld st 16 16) b.pool b.ctx))
  let d := d.setFld st 16 16 b.ix
  let d := (d.setOwner b none).setFld st 0 16 (d.cabFree b.ctx b.pool + 1)
  d.cabRefill b.ctx b.pool

/-- The pool and whether from the client's reserve that serves an allocation (R532): a shared buffer of the smallest fitting pool
that has one, else the client's reserve in its home pool; none is WAIT. -/
def Dev.cabPick (d : Dev) (x c n : Nat) : Option (Nat × Bool) :=
  match firstIn (fun p => decide (n ≤ d.cabSize x p) && decide (d.cabHeld x p < d.cabFree x p)) (upFrom 0 (d.cabPools x)) with
  | some p => some (p, false)
  | none =>
    match d.homePool x c with
    | none => none
    | some h => if d.bit (Reg.CAB_CTX_P_RES x h) c then some (h, true) else none

end Sys2Proof.Machine
end

