-- ==== Sys2Proof/Machine/Freeze.lean ====
section
/-!
DEFINITION. Freezing a context (R746 to R751): the one shared operation every fault of the device ends in, and the
recording of a sequencer exception (R214 to R220); the marks of an operation (R699 to R703) and the running per-step counts.
-/

namespace Sys2Proof.Machine

/-- A job of context x that is stopped. -/
def keepJob (x : Nat) : Option Job → Option Job
  | some j => if j.desc.ctx = x then none else some j
  | none => none

/-- The array's current control when its context leaves RUNNING and DRAINING or its stream ends (R397). -/
def Cluster.leaveGap (k : Cluster) : Cluster := if k.cur = .gap then { k with cur := .rampDown } else k

/-- A frozen context's sequencer stops at a bundle boundary, and the cluster's engines stop its descriptors (R220, R748). -/
def stopCluster (x : Nat) (k : Cluster) : Cluster :=
  let k := { k with mxNow := keepJob x k.mxNow, vxNow := keepJob x k.vxNow }
  if k.ctx = x && (k.seq = .running || k.seq = .waiting || k.seq = .ended) then
    { k with seq := .frozen, staged := [], wait := none, waitOk := false }
  else k

/-- The current control of an array as context x leaves RUNNING and DRAINING: GAP is left, and so is ACTIVE where the array holds no
descriptor, by way of GAP at its LEVEL (R397). -/
def leaveCurrent (x level : Nat) (k : Cluster) : Cluster :=
  if k.ctx ≠ x then k
  else if k.cur = .active && k.mxNow.isNone then { k with cur := .rampDown, act := level }
  else k.leaveGap

/-- The same at every cluster. -/
def Dev.leaveCurrents (d : Dev) (x : Nat) : Dev :=
  d.clus.foldl (fun e q => e.modClu q.1 (leaveCurrent x (e.fld (Reg.MXA_CURR q.1) 8 5))) d

/-- The sequencers of the plan's clusters that have not begun to run for the context enter FROZEN as well (R88, R220). -/
def Dev.stopIdle (d : Dev) (x : Nat) : Dev :=
  (planClusters (d.ctx x).plan).foldl
    (fun e p => if (e.clu p.cl).seq = .idle then e.modClu p.cl fun k => { k with seq := .frozen, ctx := x } else e) d

/-- The output ranges of a job of context x. -/
def jobOuts (x : Nat) : Option Job → List (Nat × Nat)
  | some j => if j.desc.ctx = x then j.outs else []
  | none => []

/-- The output ranges of every descriptor of context x that an engine works on. -/
def Dev.openOuts (d : Dev) (x : Nat) : List (Nat × Nat) :=
  d.clus.flatMap (fun e => jobOuts x e.2.mxNow ++ jobOuts x e.2.vxNow) ++ d.jobs.flatMap (fun j => jobOuts x (some j)) ++
    d.colls.flatMap (fun o => if o.desc.ctx = x then o.outs else []) ++ d.descs.flatMap (fun q => if q.ctx = x then q.outs else [])

/-- A range of memory, or the shadow copy of a bias entry (its CSR address), holds free values. -/
def Dev.loosenOne (d : Dev) (r : Nat × Nat) : Dev :=
  if 0x300000000000 ≤ r.1 then
    let f := d.fresh
    f.2.setFld (r.1 - 0x300000000004) 32 32 (fieldOf f.1 0 32)
  else
    let f := d.freshBytes r.2
    { f.2 with mem := memSets f.2.mem r.1 f.1 }

/-- The outputs of stopped descriptors may or may not have been written (R277, R335, R406, R501, R587, R690): every byte of
them holds a free value. -/
def Dev.loosen (d : Dev) (rs : List (Nat × Nat)) : Dev := rs.foldl Dev.loosenOne d

/-- A buffer of the checkpoint engine goes back to its pool (R534, R782). -/
def Dev.ckpBack (d : Dev) (b : Buf) : Dev := if (d.cabCheck b 10 1).isNone && !d.cabBlocked b then d.cabPut b else d

/-- A request that leaves its queue pair frees the tracker and the buffer it holds. -/
def Dev.endMsg (d : Dev) (m : NetMsg) : Dev :=
  let d := match m.trk with | some k => d.freeTrkEntry k | none => d
  match m.buf with | some b => d.ckpBack b | none => d

/-- The requests that pass a test leave their queue pairs. -/
def Dev.dropMsgs (d : Dev) (p : NetMsg → Bool) : Dev :=
  let keep := fun (q : Qp) => { q with msgs := q.msgs.filter fun m => !p m }
  (d.qps.flatMap fun e => e.2.msgs.filter p).foldl Dev.endMsg { d with qps := mapVals (fun _ => {}) keep d.qps }

/-- End the snapshot of a context as ABORTED (R785). -/
def Dev.snapAbort (d : Dev) (x reason : Nat) : Dev :=
  match mapFind d.snaps x with
  | none => d
  | some s =>
    let d := { d with snaps := mapPut d.snaps x none }.dropMsgs fun m => m.ctx == x && decide (m.kind < 2)
    let d := s.early.foldl (fun e p => e.ckpBack p.2) d
    (d.setFld (Reg.CKP_CTX_STATUS x) 0 3 4).setFld (Reg.CKP_CTX_STATUS x) 8 4 reason

/-- A step that freezes before its snapshot point ends the snapshot (R785). -/
def Dev.snapFrozen (d : Dev) (x : Nat) : Dev :=
  match mapFind d.snaps x with
  | some s => if s.phase = 1 then d.snapAbort x 7 else d
  | none => d

/-- Every engine stops the context's descriptors and discards those queued (R748). -/
def Dev.dropWork (d : Dev) (x : Nat) : Dev :=
  let d := (d.loosen (d.openOuts x)).snapFrozen x
  Dev.stopIdle (x := x) <| Dev.leaveCurrents (x := x) { d with
    clus := mapVals (fun _ => {}) (stopCluster x) d.clus
    jobs := d.jobs.filter fun j => j.desc.ctx != x
    colls := d.colls.filter fun o => o.desc.ctx != x
    descs := d.descs.filter fun q => q.ctx != x
    trks := mapKeep (fun k => !((d.trk k).ctx == x && (d.trk k).state == 1)) d.trks
    syncQ := d.syncQ.filter fun q => q.ctx != x
    prefetch := mapPut d.prefetch x none }

/-- The FREEZE message to the fabric manager (R751, R868). -/
def Dev.reportFreeze (d : Dev) (x : Nat) : Dev :=
  let c := d.ctx x
  d.sendMgmt (d.fld Reg.BUR_FM 0 16)
    ([1, 0, 0, 0] ++ leBytes 2 (planJob c.plan) ++ [BitVec.ofNat 8 x, 0] ++ leBytes 8 c.step.toNat ++
      leBytes 8 (d.reg (Reg.CTX_FR x 0)).toNat)

/-- CTX_FRx_SUMMARY (R757). -/
def freezeSummary (source code sub trans unit : Nat) : Word :=
  BitVec.ofNat 64 (source % 256 + (code % 256) * 2 ^ 8 + (sub % 256) * 2 ^ 16 + (trans % 8) * 2 ^ 24 +
    (unit % 65536) * 2 ^ 32)

/-- Fill the head of the fault record of a context (R757). -/
def Dev.fillRecord (d : Dev) (x : Nat) (summary : Word) (detail : Nat) : Dev :=
  let d := d.setReg (Reg.CTX_FR x 0) summary
  let d := d.setReg (Reg.CTX_FR x 1) (d.ctx x).step
  let d := d.setReg (Reg.CTX_FR x 2) d.time
  d.setReg (Reg.CTX_FR x 3) (BitVec.ofNat 64 detail)

/-- A fault freezes the context: it is active, or it became STOPPED or DONE in this hub cycle (R100, R104, R750). -/
def Dev.freezable (d : Dev) (x : Nat) : Bool :=
  let c := d.ctx x
  c.state.active || ((c.state == .stopped || c.state == .done) && c.ended == some d.time.toNat)

/-- A cause of a context that froze in this hub cycle goes before the one recorded: lower SOURCE, or the same and lower unit (R749). -/
def Dev.causeFirst (d : Dev) (x source unit : Nat) : Bool :=
  let s := d.fld (Reg.CTX_FR x 0) 0 8
  (d.ctx x).phase == 1 && d.reg (Reg.CTX_FR x 2) == d.time &&
    (decide (source < s) || (source == s && decide (unit < d.fld (Reg.CTX_FR x 0) 32 16)))

/-- Freeze a context by a cause (R746 to R751). Of the causes of one hub cycle the record holds the first by SOURCE and unit, with
MULTI; one that arises later sets MULTI only (R749). A context in another state is not frozen (R100, R104). -/
def Dev.freeze (d : Dev) (x source code sub trans unit detail : Nat) : Dev :=
  let c := d.ctx x
  if d.freezable x then
    let d := d.fillRecord x (freezeSummary source code sub trans unit) detail
    let d := d.setCtx x { c with state := .frozen, phase := 1, holdEnd := d.time.toNat + planHold c.plan * 1600 }
    let d := d.dropWork x
    let d := d.log 4 source 0xFF (some x) unit c.step.toNat
    ((d.ctxEvent x).alert 2).reportFreeze x
  else if c.state = .frozen then
    let d := if d.causeFirst x source unit then d.fillRecord x (freezeSummary source code sub trans unit) detail else d
    d.setBit (Reg.CTX_FR x 0) 27 true
  else d

/-- Record an exception of cluster c's sequencer and freeze its context (R214 to R220). A fault after one has been
recorded sets MULTI only (R219). -/
def Dev.seqExc (d : Dev) (c x code info slot sub pc : Nat) (precise multi : Bool) (trans : Nat) : Dev :=
  if d.bit (Reg.SEQ_EXC c) 12 then (d.setBit (Reg.SEQ_EXC c) 11 true).freeze x 1 code sub trans c info
  else
    let w := code % 256 + (slot % 4) * 2 ^ 8 + precise.toNat * 2 ^ 10 + multi.toNat * 2 ^ 11 + 2 ^ 12 +
      (sub % 256) * 2 ^ 16 + (pc % 2 ^ 32) * 2 ^ 32
    let d := d.setReg (Reg.SEQ_EXC c) (BitVec.ofNat 64 w)
    let d := d.setReg (Reg.SEQ_EXC_INFO c) (BitVec.ofNat 64 info)
    let d := d.modClu c fun k => { k with seq := .frozen, staged := [], wait := none, waitOk := false }
    d.freeze x 1 code sub trans c info

/-- Some context is in a life-cycle state of R100 in which a step of it runs. -/
def Dev.anyActive (d : Dev) : Bool := allCtxs.any fun x => (d.ctx x).state.active

/-- The marks of an operation at image offset pc of cluster c (R699, R701). -/
def planMark (p : Bytes) (c pc : Nat) : Option (Nat × Bool) :=
  match planFind p 6 with
  | none => none
  | some s =>
    let es := (upFrom 0 s.count).map fun i => s.off + 16 * i
    (es.find? fun o =>
      (atLe p (o + 2) 1 == c || atLe p (o + 2) 1 == 0xFF) && decide (atLe p (o + 4) 4 ≤ pc) &&
        decide (pc < atLe p (o + 8) 4)).map fun o => (atLe p o 2, atLe p (o + 3) 1 % 2 == 1)

/-- An OIS event of an operation of context x: SAT of its mark, or UNMARKED (R702). -/
def Dev.markSat (d : Dev) (x c pc : Nat) : Dev :=
  match planMark (d.ctx x).plan c pc with
  | some (m, _) => d.modCtx x fun k => { k with flags := k.flags ||| 2 ^ (2 * m) }
  | none => d.modCtx x fun k => { k with unmarked := true }

/-- A reduction that breaches OIS completeness sets BREACH of an OIS_COMPLETE mark (R703). -/
def Dev.markBreach (d : Dev) (x c pc : Nat) : Dev :=
  match planMark (d.ctx x).plan c pc with
  | some (m, true) => d.modCtx x fun k => { k with flags := k.flags ||| 2 ^ (2 * m + 1) }
  | _ => d

/-- Add to a running per-step count, kept under the offset of the register that latches it (R105). -/
def Dev.bump (d : Dev) (off n : Nat) : Dev :=
  { d with run := mapSet (fun _ => 0) d.run off (mapGet (fun _ => 0) d.run off + n) }

end Sys2Proof.Machine
end

