-- ==== Sys2Proof/Machine/Operands.lean ====
section
/-!
DEFINITION. The operand forms of the slots (R157, R162), the registers they name (R145), and the checks on a cluster-local
address (R169, R179, R200, R737).
-/

namespace Sys2Proof.Machine

/-- Bits [lo + w - 1 : lo] of a slot's operands. -/
def opF (a : Slot) (lo w : Nat) : Nat := bitsOf a.args.toNat lo w

/-- A signed immediate of a slot: bits [w - 1 : 0] (R162). -/
def opImm (a : Slot) (w : Nat) : Int := toSigned w (opF a 0 w)

/-- The 32 bits of a slot with opcode opc (R157). -/
def slotBits (a : Slot) (opc : Nat) : Nat :=
  a.neg.toNat * 2 ^ 31 + a.preg.toNat * 2 ^ 28 + (opc % 64) * 2 ^ 22 + a.args.toNat

/-- A scalar register; s0 reads 0 (R145). -/
def SeqRegs.sr (r : SeqRegs) (i : Nat) : Word := if i = 0 then 0 else mapGet (fun _ => 0) r.s i
/-- An address register (R145). -/
def SeqRegs.ar (r : SeqRegs) (i : Nat) : BitVec 48 := mapGet (fun _ => 0) r.a i
/-- A predicate; p0 reads 1 (R145). -/
def SeqRegs.pr (r : SeqRegs) (i : Nat) : Bool := if i = 0 then true else mapGet (fun _ => false) r.p i
/-- Write a scalar register; a write to s0 is discarded (R145). -/
def SeqRegs.setS (r : SeqRegs) (i : Nat) (v : Word) : SeqRegs :=
  if i = 0 then r else { r with s := mapSet (fun _ => 0) r.s i v }
/-- Write an address register. -/
def SeqRegs.setA (r : SeqRegs) (i : Nat) (v : BitVec 48) : SeqRegs := { r with a := mapSet (fun _ => 0) r.a i v }
/-- Write a predicate; a write to p0 is discarded (R145). -/
def SeqRegs.setP (r : SeqRegs) (i : Nat) (v : Bool) : SeqRegs :=
  if i = 0 then r else { r with p := mapSet (fun _ => false) r.p i v }

/-- The slot is enabled: p[PREG] XOR NEG (R158). -/
def slotEnabled (r : SeqRegs) (a : Slot) : Bool := xor (r.pr a.preg.toNat) a.neg

/-- A sign-extended immediate as a 64-bit register value. -/
def sext64 (x : Int) : Word := BitVec.ofInt 64 x

/-- The region checks on a cluster-local range, which every master makes first (R69, R154, R437, R737). -/
def Dev.localRegion (d : Dev) (c off n : Nat) : Bool :=
  decide (off + n ≤ 0x800000) && !touchesCode off n && !d.inOpenHash c off n

/-- Segments that cover a cluster-local range of cluster c's own window (R737). -/
def Dev.spadCover (d : Dev) (x c off n : Nat) : List Seg :=
  (d.segs x).filter fun g => g.kind == 4 && decide (g.pbase ≤ spadAddr c off) &&
    decide (spadAddr c off + n ≤ g.pbase + g.size)

/-- The translation reason of a cluster-local access of context x, or 0 (R737, R738): perm is the segment permission
bit, 1 for R and 2 for W. -/
def Dev.localCheck (d : Dev) (x c off n perm : Nat) : Nat :=
  if !d.localRegion c off n then 4
  else
    let g := d.spadCover x c off n
    if g.isEmpty then 1
    else if g.any fun e => bitsOf e.perm (if perm = 1 then 0 else 1) 1 == 1 then 0
    else 2

/-- The address of a MEM form: an + sext(imm11) × size, modulo 2^48 (R145, R168). -/
def memEa (r : SeqRegs) (a : Slot) : Nat :=
  (r.ar (opF a 13 4) + BitVec.ofInt 48 (toSigned 11 (opF a 0 11) * ((2 ^ opF a 11 2 : Nat) : Int))).toNat

/-- The checks of R169 on a scalar access, ending with the segment check of R737. -/
def scalarCheck (d : Dev) (x c ea n perm : Nat) : Option SlotFault :=
  if ea % n ≠ 0 then some (.exc 3 ea 0)
  else
    match d.localCheck x c ea n perm with
    | 0 => none
    | t => some (.exc 4 ea t)

/-- The address of a DESC form: an + imm12 × 64 (R179). -/
def descEa (r : SeqRegs) (a : Slot) : Nat := (r.ar (opF a 18 4) + BitVec.ofNat 48 (opF a 6 12 * 64)).toNat

/-- The address of a TILE form: an + imm12 × 256 (R200). -/
def tileEa (r : SeqRegs) (a : Slot) : Nat := (r.ar (opF a 12 4) + BitVec.ofNat 48 (opF a 0 12 * 256)).toNat

/-- The checks on an aligned cluster-local range at issue (R179, R200, R737). -/
def rangeCheck (d : Dev) (x c ea align n perm : Nat) : Option SlotFault :=
  if ea % align ≠ 0 then some (.exc 3 ea 0)
  else
    match d.localCheck x c ea n perm with
    | 0 => none
    | t => some (.exc 4 ea t)

/-- Bytes of a cluster's own scratchpad. -/
def Dev.localRead (d : Dev) (c off n : Nat) : Bytes := d.read (spadAddr c off) n

/-- The common head of a descriptor passes R183: COP at most 3, ADDLEN on fab.dma only, reserved bytes 0. -/
def headOk (bs : Bytes) (kind : Nat) : Bool :=
  let cop := atLe bs 4 1
  decide (cop ≤ 3) && (cop != 3 || kind == 0x20) && zeroAt bs 1 1 && zeroAt bs 5 3 && zeroAt bs 12 4

end Sys2Proof.Machine
end

