-- ==== Sys2Proof/Machine/Sync.lean ====
section
/-!
DEFINITION. The sync store (R112 to R125): applying an update, the trigger, the waits, and the commands SYNC_UPDATE_APPLY and
WAIT_COMPLETE.
-/

namespace Sys2Proof.Machine

/-- A context owns an object (R117). -/
def Dev.owns (d : Dev) (x o : Nat) : Bool := (d.obj o).owned && (d.obj o).ctx == x

/-- COUNT, OVF and FIRED of an object after an addition (R113, R116). -/
def SyncObj.add (o : SyncObj) (v : Nat) : SyncObj :=
  let sum := o.count.toNat + v % 2 ^ 32
  let ovf := o.ovf || decide (2 ^ 32 ≤ sum)
  let fire := o.chain && !o.fired && !ovf && decide (o.count.toNat < o.target) && decide (o.target ≤ sum)
  { o with count := BitVec.ofNat 32 sum, ovf := ovf, fired := o.fired || fire }

/-- The addition fires the trigger (R116). -/
def SyncObj.fires (o : SyncObj) (v : Nat) : Bool := (o.add v).fired && !o.fired

/-- The clusters whose sequencer waits on an object. -/
def Dev.waiters (d : Dev) (i : Nat) : List Nat :=
  (d.clus.filter fun e => e.2.seq == .waiting &&
    (match e.2.wait with | some w => w.1 == i | none => false)).map Prod.fst

/-- A wait on an object whose COUNT has reached its threshold is satisfied (R114, R122). -/
def satisfy (i : Nat) (o : SyncObj) (k : Cluster) : Cluster :=
  match k.wait with
  | some (j, thr) => if j = i && k.seq = .waiting && thr ≤ o.count.toNat then { k with waitOk := true } else k
  | none => k

/-- A stalled wait completes with SYNC_OVF, at the bundle after the WAIT (R115, R197, R215). -/
def Dev.waitOverflow (d : Dev) (i c : Nat) : Dev :=
  let x := (d.clu c).ctx
  if (d.clu c).waitOk then d else d.seqExc c x 0x11 i 3 0 (d.seqr c x).pc true false 0

/-- Apply an addition to an object (R113 to R116): the trigger's INC is sent on, waits are satisfied or overflow. -/
def Dev.syncAdd (d : Dev) (i v : Nat) : Dev :=
  let o := d.obj i
  let o' := o.add v
  let d1 := d.setObj i o'
  let d2 := if o.fires v then { d1 with syncQ := d1.syncQ ++ [{ ctx := o.ctx, obj := o.next, val := 1 }] } else d1
  if o'.ovf && !o.ovf then (d2.waiters i).foldl (fun e c => e.waitOverflow i c) d2
  else if o'.ovf then d2
  else { d2 with clus := mapVals (fun _ => {}) (satisfy i o') d2.clus }

/-- The operand of an operation code (R112): INC, ADD or ADDLEN; none for NONE. -/
def syncVal (op val units : Nat) : Option Nat :=
  match op with
  | 1 => some 1
  | 2 => some val
  | 3 => some units
  | _ => none

/-- Apply a sync operation that a transfer carries (R127, R128): its object's owner was checked with the transfer. -/
def Dev.syncOp (d : Dev) (x op obj val units : Nat) : Dev :=
  match syncVal op val units with
  | some v => if d.owns x obj then d.syncAdd obj v else d
  | none => d

/-- Apply a descriptor's completion operation (R184): on an object its context does not own, nothing is updated and the
issuing sequencer takes SYNC_PROT (R117, R214, log entry 16). -/
def Dev.copOp (d : Dev) (x c pc slot op obj val units : Nat) : Dev :=
  match syncVal op val units with
  | none => d
  | some v => if d.owns x obj then d.syncAdd obj v else d.seqExc c x 0x10 obj slot 0 pc false false 0

/-- A descriptor completes: its completion operation (R182, R184). -/
def Dev.descDone (d : Dev) (q : Desc) (slot : Nat) : Dev :=
  d.copOp q.ctx q.cl q.pc slot (atLe q.bytes 4 1) (atLe q.bytes 2 2) (atLe q.bytes 8 4) 0

/-- The k-th waiting update stands behind none of its cluster for the same store bank (R78, R120). -/
def Dev.syncFirst (d : Dev) (k : Nat) : Bool :=
  match d.syncQ[k]? with
  | none => false
  | some r =>
    match r.issuer with
    | none => true
    | some (c, _) =>
      !(d.syncQ.take k).any fun q => q.issuer.any (fun i => i.1 == c) && q.obj % 16 == r.obj % 16

/-- The sync store applies the k-th waiting update, once none of its cluster for the same bank goes before it (R78, R120: the order
among banks is a choice of the sender of commands). An update of a sequencer on an object its context does not own raises SYNC_PROT
(R117, R214). -/
def Dev.syncApply (d : Dev) (k : Nat) : Dev :=
  match (if d.syncFirst k then d.syncQ[k]? else none) with
  | none => d
  | some r =>
    let d := { d with syncQ := d.syncQ.eraseIdx k }
    if d.owns r.ctx r.obj then d.syncAdd r.obj r.val
    else
      match r.issuer with
      | some (c, pc) => d.seqExc c r.ctx 0x10 r.obj 3 0 pc false false 0
      | none => d

/-! ### Background windows (R138 to R144) -/

/-- The default window of a resource: PERIOD, LENGTH, PHASE (R144). -/
def defaultWindow (r : Nat) : Nat × Nat × Nat :=
  if r ≤ 1 then (6400, 128, 0) else if r = 2 then (65536, 1024, 0) else (65536, 256, 32768)

/-- The entry with the larger LENGTH / PERIOD; on a tie the first (R142). -/
def widerWindow (a b : Nat × Nat × Nat) : Nat × Nat × Nat := if a.2.1 * b.1 < b.2.1 * a.1 then b else a

/-- The window in force for instance n of a resource (R142, R144). -/
def Dev.bgWindow (d : Dev) (r n : Nat) : Nat × Nat × Nat :=
  let es := (allCtxs.filter d.loaded).flatMap fun x =>
    ((planWindows (d.ctx x).plan).filter fun e => e.res == r && bitsOf e.mask n 1 == 1).map fun e => (e.period, e.len, e.phase)
  match es with
  | [] => defaultWindow r
  | e :: t => t.foldl widerWindow e

/-- Trestle time lies in the window of instance n of a resource. -/
def Dev.inWin (d : Dev) (r n : Nat) : Bool :=
  let w := d.bgWindow r n
  w.1 != 0 && decide ((d.time.toNat + w.1 - w.2.2 % w.1) % w.1 < w.2.1)

/-- The instances of a resource (R95). -/
def instances (r : Nat) : Nat := match r with | 0 => 8 | 1 => 4 | 2 => 1 | 3 => 1 | _ => 0

/-- Ungate a cluster at a wake event (R134, R137): a stopped group PLL starts and the event counts as unplanned. -/
def Dev.wakeCluster (d : Dev) (c : Nat) : Dev :=
  let g := c / 8
  let d := d.modClu c fun k => { k with gated := false }
  if mapGet (fun _ => Pll.stopped) d.plls g = .stopped then
    ({ d with plls := mapSet (fun _ => Pll.stopped) d.plls g .locking }).addFld Reg.PWR_WAKE 32 32 1
  else d

/-- A satisfied WAIT reaches its sequencer, which ungates and resumes (R122, R134, R137). -/
def Dev.waitDone (d : Dev) (c : Nat) : Dev :=
  let k := d.clu c
  if k.seq = .waiting && k.waitOk then
    (d.modClu c fun k => { k with seq := .running, wait := none, waitOk := false }).wakeCluster c
  else d

/-- SYNC_UPDATE_APPLY (R113). -/
def execSyncUpdateApply (k : Nat) (s : State) : Host.Outcome State Fault Refusal := s.run (·.syncApply k)

/-- WAIT_COMPLETE (R122). -/
def execWaitComplete (c : Nat) (s : State) : Host.Outcome State Fault Refusal := s.run (·.waitDone c)

/-- Word 0 of sync object i in CSR space (R125). -/
def SyncObj.word0 (o : SyncObj) : Word :=
  BitVec.ofNat 64 (o.count.toNat + o.ovf.toNat * 2 ^ 32 + o.owned.toNat * 2 ^ 33 + (o.ctx % 8) * 2 ^ 34 +
    o.reinit.toNat * 2 ^ 37 + o.chain.toNat * 2 ^ 38 + o.fired.toNat * 2 ^ 39 + (o.next % 65536) * 2 ^ 48)

/-- Word 1 of sync object i in CSR space (R125). -/
def SyncObj.word1 (o : SyncObj) : Word := BitVec.ofNat 64 (o.target % 2 ^ 32 + (o.init % 2 ^ 32) * 2 ^ 32)

/-- Word 0 of a tracker (R133). -/
def Tracker.word0 (t : Tracker) : Word := BitVec.ofNat 64 (t.addr % 2 ^ 48 + (t.node % 65536) * 2 ^ 48)

/-- Word 1 of a tracker (R133). -/
def Tracker.word1 (t : Tracker) : Word :=
  BitVec.ofNat 64 (t.lsync % 65536 + (t.lop % 16) * 2 ^ 16 + (t.ctx % 8) * 2 ^ 20 + (if t.hub then 0 else t.cluster % 128) * 2 ^ 24 +
    t.hub.toNat * 2 ^ 31 + (t.length % 8192) * 2 ^ 32 + (t.kind % 8) * 2 ^ 45 + (t.state % 16) * 2 ^ 48)

end Sys2Proof.Machine
end

