-- ==== Sys2Proof/Machine/View.lean ====
section
/-!
DEFINITION. Reading a register: registers whose value is state held elsewhere are computed from it, every other register
reads its stored value; write-only and reserved bits read 0 (R22).
-/

namespace Sys2Proof.Machine

/-- Code of SEQ_STATUS.STATE (R221). -/
def SeqState.code : SeqState → Nat
  | .idle => 0 | .running => 1 | .waiting => 2 | .ended => 3 | .frozen => 4

/-- SEQ_STATUS of cluster c (R221). -/
def Dev.seqStatus (d : Dev) (c : Nat) : Word :=
  let k := d.clu c
  let r := d.seqr c k.ctx
  BitVec.ofNat 64 (k.seq.code + k.gated.toNat * 8 + r.loops.length % 4 * 16 + k.ctx % 8 * 2 ^ 8 +
    r.pc % 2 ^ 32 * 2 ^ 32)

/-- SEQ_CODE of cluster c (R221): the image of context REGCTX. -/
def Dev.seqCode (d : Dev) (c : Nat) : Word :=
  match (d.ctx (d.fld (Reg.SEQ_CFG c) 0 3)).images.find? (fun e => e.cl == c) with
  | none => 0
  | some e => BitVec.ofNat 64 (e.base % 2 ^ 19 + 2 ^ 19 + e.len % 2 ^ 20 * 2 ^ 32)

/-- SEQ_PREGS: p0 to p7 of a copy (R221). -/
def SeqRegs.pregs (r : SeqRegs) : Word :=
  BitVec.ofNat 64 ((upFrom 0 8).foldl (fun v i => v + (r.pr i).toNat * 2 ^ i) 0)

/-- The registers of a sequencer's block that are state held elsewhere: offset rel in cluster c's block. -/
def Dev.seqView (d : Dev) (c rel : Nat) : Option Word :=
  let r := d.seqr c (d.fld (Reg.SEQ_CFG c) 0 3)
  if rel = 0 then some (d.seqStatus c)
  else if rel = 0x38 then some (d.seqCode c)
  else if 0x100 ≤ rel && rel < 0x200 then some (r.sr ((rel - 0x100) / 8))
  else if 0x200 ≤ rel && rel < 0x280 then some ((r.ar ((rel - 0x200) / 8)).setWidth 64)
  else if rel = 0x280 then some r.pregs
  else none

/-- Code of a current-control state (MXA_STATUS.CSTATE). -/
def CurState.code : CurState → Nat
  | .off => 0 | .rampUp => 1 | .active => 2 | .gap => 3 | .rampDown => 4

/-- Descriptors of a queue of cluster c that wait (R185). -/
def Dev.waitingIn (d : Dev) (c lo hi : Nat) : Nat :=
  (d.descs.filter fun e => e.cl == c && decide (lo ≤ e.kind) && decide (e.kind ≤ hi)).length

/-- STATE of an engine's status register: 0 IDLE, 1 BUSY, 2 FROZEN. -/
def engState (frozen busy : Bool) : Nat := if frozen then 2 else if busy then 1 else 0

/-- MXA_STATUS of cluster c. -/
def Dev.mxStatus (d : Dev) (c : Nat) : Word :=
  let k := d.clu c
  BitVec.ofNat 64 (engState k.mxFrozen k.mxNow.isSome + d.waitingIn c 1 5 % 8 * 4 + k.plane0.isSome.toNat * 2 ^ 5 +
    k.plane1.isSome.toNat * 2 ^ 6 + k.held.isSome.toNat * 2 ^ 7 + k.act % 32 * 2 ^ 8 + k.cur.code * 2 ^ 13)

/-- MXA_HACC of cluster c (R435). -/
def Dev.haccWord (d : Dev) (c : Nat) : Word :=
  match (d.clu c).hacc with
  | none => 0
  | some h =>
    BitVec.ofNat 64 (1 + h.bank % 8 * 2 + h.ovfLog2 % 32 * 2 ^ 8 + wrapTo 16 h.w * 2 ^ 16 + min h.keys.length 57344 * 2 ^ 32)

/-- MXA_HACC_OVF of cluster c. -/
def Dev.haccOvfWord (d : Dev) (c : Nat) : Word :=
  match (d.clu c).hacc with
  | none => 0
  | some h => BitVec.ofNat 64 (h.keys.length - 57344)

/-- VEC_STATUS of cluster c. -/
def Dev.vxStatus (d : Dev) (c : Nat) : Word :=
  let k := d.clu c
  BitVec.ofNat 64 (engState k.vxFrozen k.vxNow.isSome + d.waitingIn c 8 9 % 8 * 4)

/-- The registers of a cluster's engines that are state held elsewhere. -/
def Dev.engView (d : Dev) (c rel : Nat) : Option Word :=
  match rel with
  | 0x8000 => some (d.mxStatus c)
  | 0x8038 => some (d.haccWord c)
  | 0x8040 => some (d.haccOvfWord c)
  | 0x10000 => some (d.vxStatus c)
  | _ => none

/-- The queue of a descriptor kind (R185): 0 matrix array, 1 vector engine, 2 DMA, 3 collectives, 4 Dresser, 5 tier engine,
6 checkpoint engine. -/
def kindQueue (kind : Nat) : Nat :=
  if kind ≤ 5 then 0 else if kind ≤ 9 then 1 else if kind ≤ 0x21 then 2 else if kind = 0x22 then 3
  else if kind ≤ 0x32 then 4 else if kind = 0x38 then 5 else 6

/-- The Dresser unit that serves a cluster in the step that runs (R226, R227). -/
def Dev.unitOf (d : Dev) (c : Nat) : Nat := d.fld Reg.DRS_GROUP_UNIT (4 * (c / 8)) 4

/-- The descriptors that a Dresser unit runs. -/
def Dev.unitJobs (d : Dev) (u : Nat) : List Job := d.jobs.filter fun j => kindQueue j.desc.kind == 4 && d.unitOf j.desc.cl == u

/-- DRS_Uu_STATUS; CTX is 0 while the unit runs none. -/
def Dev.unitStatus (d : Dev) (u : Nat) : Word :=
  let js := d.unitJobs u
  let x := match js with | j :: _ => j.desc.ctx | [] => 0
  BitVec.ofNat 64 (engState (d.bit (Reg.DRS_U_FAULT u) 8) (!js.isEmpty) + js.length % 16 * 4 + x % 8 * 2 ^ 8)

/-- TRS_CTXx_STATE (R98). -/
def Ctx.stateWord (c : Ctx) : Word := BitVec.ofNat 64 (c.state.code + c.late % 2 ^ 24 * 2 ^ 8)

/-- CTX_CTXx_STATUS (R757): the section's fields while the context is loaded. -/
def Dev.ctxStatus (d : Dev) (x : Nat) : Word :=
  let c := d.ctx x
  let head := c.phase % 8 + c.slice.toNat * 8
  if c.state = .unloaded then BitVec.ofNat 64 head
  else BitVec.ofNat 64 (head + (planPartitioned c.plan).toNat * 16 + (planInteractive c.plan).toNat * 32 +
    planPart c.plan % 8 * 2 ^ 8 + planGroups c.plan * 2 ^ 16 + planStacks c.plan * 2 ^ 32 +
    (d.segs x).length % 2 ^ 11 * 2 ^ 40)

/-- CTX_CTXx_SEGi, word w (R759). -/
def Dev.segWord (d : Dev) (x i w : Nat) : Word :=
  match (d.segs x)[i]? with
  | none => 0
  | some g =>
    BitVec.ofNat 64 (match w with
      | 0 => g.vbase
      | 1 => g.size
      | 2 => g.pbase
      | _ => g.kind % 256 + g.perm % 256 * 256)

/-- The value a register would read, before write-only bits are masked. -/
def Dev.view (d : Dev) (off : Nat) : Word :=
  if off = Reg.TRS_TIME then d.time
  else if 0x600100 ≤ off && off < 0x600180 then
    let c := d.ctx ((off - 0x600100) / 16)
    if off % 16 = 0 then c.stateWord else c.step
  else if 0x700000 ≤ off && off < 0x700200 && off % 0x40 = 0 then d.ctxStatus ((off - 0x700000) / 0x40)
  else if 0x740000 ≤ off && off < 0x780000 then
    let rel := off - 0x740000
    d.segWord (rel / 0x8000) (rel % 0x8000 / 32) (rel % 32 / 8)
  else if 0xa00100 ≤ off && off < 0xa00300 && off % 0x40 = 0 then d.unitStatus ((off - 0xa00100) / 0x40)
  else if 0x1000000 ≤ off && off < 0x2000000 then
    let rel := off - 0x1000000
    match d.seqView (rel / 0x20000) (rel % 0x20000), d.engView (rel / 0x20000) (rel % 0x20000) with
    | some v, _ => v
    | none, some v => v
    | none, none => d.reg off
  else if 0x2000000 ≤ off && off < 0x2100000 then
    let o := d.obj ((off - 0x2000000) / 16)
    if off % 16 = 0 then o.word0 else o.word1
  else if 0x2100000 ≤ off && off < 0x2500000 then
    let t := d.trk ((off - 0x2100000) / 16)
    if off % 16 = 0 then t.word0 else t.word1
  else d.reg off

/-- There is a register at an offset of CSR space (R70, R73, R125, R133) or of the hub cache control region beyond it (R522). -/
def regExists (off : Nat) : Bool :=
  off % 8 == 0 && ((regAt off).isSome || (0x2000000 ≤ off && off < 0x2500000))

/-- The bits of a register that read back: all but write-only ones. -/
def Dev.readReg (d : Dev) (off : Nat) : Word :=
  match regAt off with
  | some r => d.view off &&& ~~~ BitVec.ofNat 64 r.wo
  | none => d.view off

/-- A read through s.csrr: timing fields read 0 (R204), an offset without a register reads 0 (R205). -/
def Dev.seqRead (d : Dev) (c rel : Nat) : Word :=
  let off := 0x1000000 + c * 0x20000 + rel
  match regAt off with
  | some r => d.readReg off &&& ~~~ BitVec.ofNat 64 r.timing
  | none => 0

end Sys2Proof.Machine
end

