-- ==== Sys2Proof/Machine/Csr.lean ====
section
/-!
DEFINITION. The checks every register access passes (R20, R63, R70, R851, R896) and the plain write of a register's fields
(R22).
-/

namespace Sys2Proof.Machine

/-- The bit of BUR_ADMIT that admits writes to the block of an offset. -/
def admitBit (off : Nat) : Nat :=
  if off < 0x1000000 then off / 0x100000 else if off < 0x2000000 then 16 else 17

/-- A write by a master is admitted (R851). -/
def Dev.admits (d : Dev) (src : Master) (off : Nat) : Bool :=
  let b := admitBit off
  match src with
  | .aon => true
  | .bureau => true
  | .mgmt => b == 1 || b == 3 || d.bit Reg.BUR_ADMIT (32 + b)
  | .host => b == 3 || d.bit Reg.BUR_ADMIT b

/-- Host accesses reach the device: domain 24 is out of reset (R3, R801). -/
def Dev.hostOn (d : Dev) : Bool := d.domOn 24

/-- The code of the first refusal of an access that is not narrow, as the error log records it (R896): 5 ADDRESS,
4 NOT_ADMITTED, 3 DOMAIN_OFF; 0 for an access of the host while its interface is in reset, which does not reach the device (R3). The
hub cache control region beyond the CSR offsets is the Bureau's alone (R522). -/
def Dev.refusal (d : Dev) (src : Master) (off : Nat) (write : Bool) : Option Nat :=
  if src = .host && !d.hostOn then some 0
  else if !regExists off || (decide (0x10000000 ≤ off) && src != .bureau) then some 5
  else if write && !d.admits src off then some 4
  else if !d.domOn (regDomain off) then some 3
  else none

/-- Record a refused access (R896); one that does not reach the device leaves no record. -/
def Dev.logRefusal (d : Dev) (code off : Nat) : Dev := if code = 0 then d else d.log 1 code (logBlock off) none 0 off

/-- A write to a register that passes the common checks does f; one that does not is logged (R896). -/
def Dev.guard (d : Dev) (src : Master) (off : Nat) (f : Dev → Dev) : Dev :=
  match d.refusal src off true with
  | some c => d.logRefusal c off
  | none => f d

/-- The stored value after a write of a register's fields by their access types (R22). -/
def writeFields (r : RegRow) (old w : Word) : Word :=
  let rw : Word := BitVec.ofNat 64 r.rw
  let v := (old &&& ~~~ rw) ||| (w &&& rw)
  (v &&& ~~~ (w &&& BitVec.ofNat 64 r.w1c)) ||| (w &&& BitVec.ofNat 64 r.w1s)

/-- Write the fields of a register (R22). -/
def Dev.plainWrite (d : Dev) (off : Nat) (w : Word) : Dev :=
  match regAt off with
  | some r => d.setReg off (writeFields r (d.reg off) w)
  | none => d

end Sys2Proof.Machine
end

