-- ==== Sys2Proof/Machine/Cache.lean ====
section
/-!
DEFINITION. The hub cache (R514 to R523): its lines decide latency only (R517), so no read takes data from it; its
lookups are counted and its lines held as the rules place them.
-/

namespace Sys2Proof.Machine

/-- Set of a line (R515). -/
def hcSet (line : Nat) : Nat := line % 98304
/-- PIN ways of every loaded context (CAB_HC_STATUS.PINNED). -/
def Dev.hcPinned (d : Dev) : Nat :=
  allCtxs.foldl (fun v x => v ||| d.fld (Reg.CAB_HC_CTX_WAYS x) 16 16) 0
/-- Effective allocation ways of a context (R518). -/
def Dev.hcAlloc (d : Dev) (x : Nat) : Nat :=
  (upFrom 0 16).foldl
    (fun v w => if d.bit (Reg.CAB_HC_CTX_WAYS x) w && bitsOf d.hcPinned w 1 = 0 then v + 2 ^ w else v) 0
/-- A line lies in the pinned range of a context (R520). -/
def Dev.hcInPin (d : Dev) (x line : Nat) : Bool :=
  let base := d.fld (Reg.CAB_HC_CTX_PIN_BASE x) 0 48
  decide (base ≤ line * 128) && decide (line * 128 < base + d.fld (Reg.CAB_HC_CTX_PIN_SIZE x) 0 28)

/-- The way a new line takes among ways: an empty one, lowest first, else that of the least recently used unpinned line
(the last of the list, which runs from the most recently used). -/
def hcVictim (ls : List HcLine) (ways : Nat) : Option Nat :=
  match firstIn (fun w => bitsOf ways w 1 == 1 && !ls.any fun l => l.way == w) (upFrom 0 16) with
  | some w => some w
  | none => (ls.reverse.find? fun l => bitsOf ways l.way 1 == 1 && l.pin.isNone).map HcLine.way

/-- Write the lines of a set. -/
def Dev.setHc (d : Dev) (s : Nat) (ls : List HcLine) : Dev := { d with cache := mapSet (fun _ => []) d.cache s ls }

/-- The context whose pinned range holds a line, whoever accesses it (R520). -/
def Dev.hcPinner (d : Dev) (x line : Nat) : Option Nat := firstIn (fun c => d.hcInPin c line) (x :: allCtxs)

/-- A line in the way it takes among ways, in front of the other lines of its set; none where no way is free for it. -/
def hcPlace (ls : List HcLine) (ways line : Nat) (pin : Option Nat) : Option (List HcLine) :=
  (hcVictim ls ways).map fun w => { way := w, line := line, pin := pin } :: ls.filter fun k => k.way != w

/-- The lines of a set after a hit of line l, which is in a pinned range where pin is some, with these PIN ways: one that was cached
before its range was pinned moves to a PIN way, unless it stands in one (R520, log entry 127). -/
def hcHit (ls : List HcLine) (l : HcLine) (pin : Option Nat) (pinWays : Nat) : List HcLine :=
  let rest := ls.filter fun k => k.line != l.line
  if pin.isNone || l.pin.isSome then l :: rest
  else if bitsOf pinWays l.way 1 = 1 then { l with pin := pin } :: rest
  else (hcPlace rest pinWays l.line pin).getD (l :: rest)

/-- One lookup of a line for context x (R518 to R520). alloc is false for a write and for a master that does not allocate; a line of a
pinned range is allocated all the same, in the PIN ways of its context. -/
def Dev.hcLook (d : Dev) (x line : Nat) (alloc : Bool) : Dev :=
  let s := hcSet line
  let ls := mapGet (fun _ => []) d.cache s
  let pin := d.hcPinner x line
  let pinWays := pin.elim 0 fun c => d.fld (Reg.CAB_HC_CTX_WAYS c) 16 16
  match ls.find? fun l => l.line == line with
  | some l => (d.setHc s (hcHit ls l pin pinWays)).addFld Reg.CAB_HC_HITS 0 64 1
  | none =>
    let d := d.addFld Reg.CAB_HC_MISSES 0 64 1
    let ways := if pin.isSome then pinWays else if alloc then d.hcAlloc x else 0
    match hcPlace ls ways line pin with
    | none => d
    | some ls => d.setHc s ls

/-- The lookups of an access to HBM or the capacity tier: one for each line it touches. -/
def Dev.hcTouch (d : Dev) (x a n : Nat) (alloc : Bool) : Dev :=
  if 0x200000000000 ≤ a || n = 0 then d
  else (upFrom (a / 128) ((a + n - 1) / 128 + 1 - a / 128)).foldl (fun e l => e.hcLook x l alloc) d

/-- A write of bytes to hub memory by a master that is no descriptor of a context (R516, R519, R520). -/
def Dev.hubWrite (d : Dev) (a : Nat) (bs : Bytes) : Dev := (d.write a bs).hcTouch 0 a bs.length false

/-- A write of CAB_HC_INV by the Bureau (R523): the unpinned lines of WAYS go, and BUSY is 1 until they are gone. -/
def Dev.hcInv (d : Dev) (w : Word) : Dev :=
  if !d.domOn 21 then d.logRefusal 3 Reg.CAB_HC_INV
  else if d.bit Reg.CAB_HC_STATUS 0 then d.logDiscard Reg.CAB_HC_INV
  else if !bitOf w 16 then d
  else
    let keep := fun (l : HcLine) => l.pin.isSome || !bitOf w l.way
    { d with cache := mapVals (fun _ => []) (List.filter keep) d.cache }.setBit Reg.CAB_HC_STATUS 0 true

/-- Invalidate the pinned lines of a context (R521). -/
def Dev.hcUnpin (d : Dev) (x : Nat) : Dev :=
  let d := { d with cache := mapVals (fun _ => []) (List.filter fun l => l.pin != some x) d.cache }
  let d := ((d.setReg (Reg.CAB_HC_CTX_WAYS x) 0).setReg (Reg.CAB_HC_CTX_PIN_BASE x) 0).setReg (Reg.CAB_HC_CTX_PIN_SIZE x) 0
  d.setFld Reg.CAB_HC_STATUS 16 16 d.hcPinned

/-- HC_INVALIDATE (R523): only the Bureau reaches the register (R522). -/
def execHcInvalidate (w : Word) (s : State) : Host.Outcome State Fault Refusal := s.run (·.hcInv w)
/-- HC_INVALIDATE_DONE (R523). -/
def execHcInvalidateDone (s : State) : Host.Outcome State Fault Refusal := s.run (·.setBit Reg.CAB_HC_STATUS 0 false)

/-- A write of SEQ_SPM_LOST clears the bits it sets (R22, R511). -/
def Dev.spmClear (d : Dev) (src : Master) (c : Nat) (w : Word) : Dev :=
  if c < 128 then d.guard src (Reg.SEQ_SPM_LOST c) (·.plainWrite (Reg.SEQ_SPM_LOST c) w) else d
/-- SPM_LOST_CLEAR (R511): the words lost in the same cycle, by losing master, offset and winning master, are recorded after the clear,
for the set wins (R23). -/
def execSpmLostClear (src : Master) (c : LostNow) (w : Word) (s : State) : Host.Outcome State Fault Refusal :=
  s.run fun d =>
    (c.lost.filter fun l => decide (c.c < 128) && d.domOn (c.c / 8) && decide (l.2.1 < 0x800000) && l.2.1 % 8 == 0 &&
      spmLoses l.1 l.2.2 l.2.1).foldl (fun e l => e.spmLoss c.c l.1 l.2.1) (d.spmClear src c.c w)

end Sys2Proof.Machine
end

