-- ==== Sys2Proof/Machine/Cabinet.lean ====
section
/-!
DEFINITION. The Cabinet (R524 to R539): allocation, handoff and release of staging buffers, and its faults.
-/

namespace Sys2Proof.Machine

/-- A Cabinet fault (R537, R538): CAB_FAULT, and the freeze with the client as its unit (none for CORRUPT). -/
def Dev.cabFault (d : Dev) (b : Buf) (code client : Nat) : Dev :=
  let d :=
    if d.bit Reg.CAB_FAULT 8 then d.setBit Reg.CAB_FAULT 9 true
    else d.setReg Reg.CAB_FAULT (BitVec.ofNat 64 (code + 2 ^ 8 + client % 16 * 2 ^ 16 + b.ctx % 8 * 2 ^ 20 +
      b.pool % 8 * 2 ^ 24 + b.ix % 16384 * 2 ^ 32))
  d.freeze b.ctx 6 code 0 0 (if code = 5 then 0 else client) (d.reg Reg.CAB_FAULT).toNat

/-- Take the head buffer of a pool (R532). A link word that the Cabinet may not read fails the checks of take: the bank of an open hash
accumulator refuses the access (R437, log entry 126). -/
def Dev.cabTake (d : Dev) (x p c owner : Nat) : Option Buf × Dev :=
  let b : Buf := { ctx := x, pool := p, ix := d.fld (Reg.CAB_CTX_P_STATE x p) 16 16 }
  let w := leNat (d.read (d.cabAddr b) 8)
  if d.cabBlocked b || bitsOf w 32 32 ≠ 0x46424143 || bitsOf w 16 3 ≠ p || bitsOf w 19 3 ≠ x || (d.cabOwner b).isSome then
    (none, d.cabFault b 5 c)
  else
    let d := (d.hcTouch x (d.cabAddr b) 8 true).setFld (Reg.CAB_CTX_P_STATE x p) 16 16 (bitsOf w 0 16)
    let d := d.setFld (Reg.CAB_CTX_P_STATE x p) 0 16 (d.cabFree x p - 1)
    (some b, d.setOwner b (some owner))

/-- An allocation that waits counts against its home pool and its smallest fitting pool (CAB_CTXx_Pp_WAIT). -/
def Dev.cabWait (d : Dev) (x c n : Nat) : Dev :=
  let ps := (d.homePool x c).toList ++ ((d.fitPool x n).toList.filter fun p => d.homePool x c != some p)
  ps.foldl (fun e p => e.addFld (Reg.CAB_CTX_P_WAIT x p) 0 64 1) d

/-- Allocate a buffer of n bytes for a client, owned by owner (R532), or wait. A reserve is held until its buffer is taken: a fault of
take leaves it (R537). -/
def Dev.cabAlloc (d : Dev) (x c n owner : Nat) : Option Buf × Dev :=
  match d.cabPick x c n with
  | none => (none, d.cabWait x c n)
  | some (p, own) =>
    match d.cabTake x p c owner with
    | (some b, e) => (some b, if own then e.setBit (Reg.CAB_CTX_P_RES x p) c false else e)
    | (none, e) => (none, e)

/-- Hand a buffer to a new owner (R532). -/
def Dev.cabHandoff (d : Dev) (b : Buf) (by_ to_ : Nat) : Dev :=
  match d.cabCheck b by_ 3 with
  | some code => d.cabFault b code by_
  | none => d.setOwner b (some to_)

/-- Release a buffer to its free list (R532). Where the bank of an open hash accumulator refuses the link word's write, the release is not
performed (R437, log entry 126). -/
def Dev.cabRelease (d : Dev) (b : Buf) (by_ : Nat) : Dev :=
  match d.cabCheck b by_ 1 with
  | some code => d.cabFault b code by_
  | none => if d.cabBlocked b then d.cabFault b 5 by_ else (d.cabPut b).hcTouch b.ctx (d.cabAddr b) 8 false

/-- Staged data is written into a buffer (R524, R530). -/
def Dev.cabFill (d : Dev) (b : Buf) (bs : Bytes) : Dev := d.hubWrite (d.cabAddr b) bs

/-- A client is a hub engine that raises CLASS against itself (R525). -/
def hubClient (c : Nat) : Bool := decide (8 ≤ c) && decide (c ≤ 10)

/-- A request that a client makes: a client that the context has not enabled makes none, and a hub engine raises CLASS (R525). One that
returns WAIT is asked again in the next hub cycle (R532, R534). -/
def Dev.cabRequest (d : Dev) (q : CabReq) : Dev :=
  if !d.loaded q.ctx || decide (cabLargest q.client < q.size) then d
  else if !d.cabOn q.ctx q.client then if hubClient q.client then d.cabFault ⟨q.ctx, 0, 0⟩ 6 q.client else d
  else
    let e := (d.cabAlloc q.ctx q.client q.size q.owner).2
    if (d.cabPick q.ctx q.client q.size).isNone then { e with cabPend := e.cabPend ++ [q] } else e

/-- The requests that wait are asked again in a hub cycle, in ascending client; a pool performs one allocation in it (R532, R533), and
those of a context that no longer runs are gone (R748). The pools that served are kept by context and number. -/
def Dev.cabAskAgain : List CabReq → List (Nat × Nat) → Dev → Dev
  | [], _, d => d
  | q :: t, used, d =>
    if !d.loaded q.ctx || (d.ctx q.ctx).state == .frozen then Dev.cabAskAgain t used d
    else
      match d.cabPick q.ctx q.client q.size with
      | some (p, _) =>
        if used.contains (q.ctx, p) then Dev.cabAskAgain t used { d with cabPend := d.cabPend ++ [q] }
        else Dev.cabAskAgain t ((q.ctx, p) :: used) (d.cabAlloc q.ctx q.client q.size q.owner).2
      | none => Dev.cabAskAgain t used (d.cabRequest q)

/-- A hub cycle of the Cabinet: every request that waits is asked again (R532 to R534). -/
def Dev.cabCycle (d : Dev) : Dev :=
  let ascending := (upFrom 0 16).flatMap fun c => d.cabPend.filter fun q => q.client == c
  Dev.cabAskAgain ascending [] { d with cabPend := [] }

/-- CABINET_ALLOC (R532). -/
def execCabinetAlloc (x c n owner : Nat) (s : State) : Host.Outcome State Fault Refusal :=
  s.run (·.cabRequest ⟨x, c, n, owner⟩)
/-- CABINET_HANDOFF (R532). -/
def execCabinetHandoff (x p i by_ to_ : Nat) (s : State) : Host.Outcome State Fault Refusal :=
  s.run fun d => if d.loaded x then d.cabHandoff ⟨x, p, i⟩ by_ to_ else d
/-- CABINET_RELEASE (R532). -/
def execCabinetRelease (x p i by_ : Nat) (s : State) : Host.Outcome State Fault Refusal :=
  s.run fun d => if d.loaded x then d.cabRelease ⟨x, p, i⟩ by_ else d

end Sys2Proof.Machine
end

