-- ==== Sys2Proof/Machine/Translate.lean ====
section
/-!
DEFINITION. Translation and protection (R734, R736 to R738) and tier windows (R548, R549): a context virtual range becomes
a list of device physical pieces, or the reason and address of the first failing check.
-/

namespace Sys2Proof.Machine

/-- The kind of an access (R736, R632, R635): local read, local write, inbound read, write and atomic, local atomic. -/
inductive Acc where
  | r | w | ir | iw | ia | la
  deriving DecidableEq, Repr

/-- The segment permission bits an access needs (R731, R736). -/
def Acc.need : Acc → Nat
  | .r => 1 | .w => 2 | .ir => 4 | .iw => 8 | .ia => 16 | .la => 3

/-- The access changes its target. -/
def Acc.writes : Acc → Bool
  | .r | .ir => false
  | _ => true

/-- The access is an atomic: only HBM and the capacity tier take one (R632, R635). -/
def Acc.atomic : Acc → Bool
  | .ia | .la => true
  | _ => false

/-- A piece of a translated range; page is the object and page of a tier window that an HBM copy serves. -/
structure Piece where
  pa : Nat
  len : Nat
  page : Option (Nat × Nat) := none
  deriving DecidableEq, Repr

/-- The channel of an HBM address: its stack and its logical number in the stack (R540). -/
def hbmChannel (a : Nat) : Nat × Nat :=
  let c := a / 256 % 248
  (c % 8, c / 8)

/-- The offset of an HBM address in its channel (R540). -/
def hbmOffset (a : Nat) : Nat := a / 256 / 248 * 256 + a % 256

/-- Where an address of the capacity tier lies: its controller, the channel in that controller, and the offset in the channel (R544). -/
def capPlace (a : Nat) : Nat × Nat × Nat :=
  let y := a - 0x100000000000
  let k := y / 256 % 32
  (k % 4, k / 4, y / 256 / 32 * 256 + y % 256)

/-- Base address of a staging pool (R547). -/
def Dev.poolBase (d : Dev) (t : Nat) : Nat := d.fld (Reg.TIER_POOL_CFG t) 0 48
/-- Frames of a staging pool. -/
def Dev.poolFrames (d : Dev) (t : Nat) : Nat := d.fld (Reg.TIER_POOL_CFG t) 48 16 * 1024

/-- Two ranges share a byte. -/
def overlap (a n b m : Nat) : Bool := decide (a < b + m) && decide (b < a + n) && decide (0 < n) && decide (0 < m)

/-- The range touches a staging pool. -/
def Dev.touchesPool (d : Dev) (a n : Nat) : Bool :=
  overlap a n (d.poolBase 0) (d.poolFrames 0 * 65536) || overlap a n (d.poolBase 1) (d.poolFrames 1 * 65536)

/-- A target range outside a window accepts the access (R69, R70, R154, R437, R545, R547, R632). -/
def Dev.regionOk (d : Dev) (k : Acc) (a n : Nat) : Bool :=
  if inHbm a n || d.inCap a n then !d.touchesPool a n
  else
    inSpad a n && !k.atomic && d.localRegion ((a - 0x200000000000) / 0x1000000) (a % 0x1000000) n

/-- The numbers of the stacks in a mask, ascending. -/
def stackList (mask : Nat) : List Nat := (upFrom 0 8).filter fun i => bitsOf mask i 1 == 1

/-- The device physical address of a partition-space address (R734). -/
def phbm (mask p : Nat) : Nat :=
  let s := stackList mask
  let u := p / 256
  (8 * (u / s.length) + s.getD (u % s.length) 0) * 256 + p % 256

/-- Pieces of a range cut at every multiple of g; the fuel is their number. -/
def cutFrom (g : Nat) : Nat → Nat → Nat → List (Nat × Nat)
  | 0, _, _ => []
  | f + 1, a, n =>
    let m := min n (g - a % g)
    if n = 0 then [] else (a, m) :: cutFrom g f (a + m) (n - m)

/-- A range cut at every multiple of g. -/
def cutAt (g a n : Nat) : List (Nat × Nat) := cutFrom g ((a + n) / g - a / g + 1) a n

/-- The entry of an object in a pool that resolves (R548, R557). -/
def Dev.tierEnt (d : Dev) (x obj pool : Nat) : Option TierEnt :=
  d.tierEnts.find? fun e => e.ctx == x && e.obj == obj && e.pool == pool && !e.evicting

/-- The object of a context whose window holds an address, with its index. -/
def Dev.windowOf (d : Dev) (x va : Nat) : Option (Nat × TierObj) :=
  if (d.ctx x).state = .unloaded then none
  else
    let os := planObjs (d.ctx x).plan
    match os.findIdx? (fun o => decide (o.window ≤ va) && decide (va < o.window + o.size)) with
    | none => none
    | some j => (os[j]?).map fun o => (j, o)

/-- A range of a staging frame or of a home exists: it lies in HBM or in the populated capacity tier (R70, R545, R547). -/
def Dev.hubMem (d : Dev) (a n : Nat) : Bool := inHbm a n || d.inCap a n

/-- A window page resolves to its HBM copy, its capacity copy or its capacity home (R548, R549); an address that does not exist is an
address fault (R70). -/
def Dev.resolveWindow (d : Dev) (x j : Nat) (o : TierObj) (k : Acc) (va n : Nat) : Except Nat Piece :=
  let pg := (va - o.window) / 65536
  let off := (va - o.window) % 65536
  let at_ := fun (p : Piece) => if d.hubMem p.pa p.len then Except.ok p else Except.error 4
  if k.writes && !o.writable then .error 2
  else
    match d.tierEnt x j 0 with
    | some e => at_ { pa := d.poolBase 0 + e.frames.getD pg 0 * 65536 + off, len := n, page := some (j, pg) }
    | none =>
      match d.tierEnt x j 1 with
      | some e => at_ { pa := d.poolBase 1 + e.frames.getD pg 0 * 65536 + off, len := n }
      | none => if o.home = 1 then at_ { pa := o.addr + (va - o.window), len := n } else .error 3

/-- The pieces of a range within one 64 KiB page, or the translation reason (R736, R738). -/
def Dev.transPage (d : Dev) (x : Nat) (k : Acc) (va n : Nat) : Except Nat (List Piece) :=
  match d.windowOf x va with
  | some (j, o) => (d.resolveWindow x j o k va n).map fun p => [p]
  | none =>
    match (d.segs x).find? fun g => decide (g.vbase ≤ va) && decide (va < g.vbase + g.size) with
    | none => .error 1
    | some g =>
      if g.perm &&& k.need ≠ k.need then .error 2
      else
        let o := va - g.vbase
        let ps : List Piece :=
          if g.kind = 2 then
            (cutAt 256 (g.pbase + o) n).map fun q => { pa := phbm (planStacks (d.ctx x).plan) q.1, len := q.2 }
          else [{ pa := g.pbase + o, len := n }]
        if ps.all fun q => d.regionOk k q.pa q.len then .ok ps else .error 4

/-- The pieces of a list of page ranges, or the reason and address of the first that fails. -/
def Dev.transPages (d : Dev) (x : Nat) (k : Acc) : List (Nat × Nat) → Except (Nat × Nat) (List Piece)
  | [] => .ok []
  | (a, n) :: t =>
    match d.transPage x k a n with
    | .error r => .error (r, a)
    | .ok ps =>
      match d.transPages x k t with
      | .error r => .error r
      | .ok qs => .ok (ps ++ qs)

/-- Translate a context virtual range for an access (R736). -/
def Dev.translate (d : Dev) (x : Nat) (k : Acc) (va n : Nat) : Except (Nat × Nat) (List Piece) :=
  d.transPages x k (cutAt 65536 va n)

/-- Read the bytes of translated pieces. -/
def Dev.readPieces (d : Dev) (ps : List Piece) : Bytes := ps.flatMap fun p => d.read p.pa p.len

/-- A piece holds poison. -/
def Dev.piecesPoisoned (d : Dev) (ps : List Piece) : Bool := ps.any fun p => d.poisoned p.pa p.len

/-- Mark a page of an object's HBM copy dirty (R549). -/
def markDirty (x : Nat) (pg : Option (Nat × Nat)) (e : TierEnt) : TierEnt :=
  match pg with
  | some (j, p) =>
    if e.ctx = x && e.obj = j && e.pool = 0 && !e.evicting && !e.dirty.contains p then { e with dirty := e.dirty ++ [p] } else e
  | none => e

/-- Write bytes over translated pieces; a page of an HBM copy becomes dirty (R549). -/
def Dev.writePieces (d : Dev) (x : Nat) : List Piece → Bytes → Dev
  | [], _ => d
  | p :: t, bs =>
    let d := d.write p.pa (bs.take p.len)
    Dev.writePieces { d with tierEnts := d.tierEnts.map (markDirty x p.page) } x t (bs.drop p.len)

/-- One step of CRC-64/ECMA-182: n bits, most significant first (R716). -/
def crc64Bits : Nat → Nat → Nat
  | 0, c => c
  | n + 1, c => crc64Bits n (if 2 ^ 63 ≤ c then (2 * (c - 2 ^ 63)) ^^^ 0x42F0E1EBA9EA3693 else 2 * c)

/-- CRC-64/ECMA-182 over bytes: initial value 0, no reflection, no final inversion (R716). -/
def crc64 (bs : Bytes) : Nat := bs.foldl (fun c b => crc64Bits 8 (c ^^^ (b.toNat * 2 ^ 56))) 0

/-- The block hash of one granule at off from BASE: bs are the bytes written, from position lo of the granule (R716). -/
def blockHash (off lo : Nat) (bs : Bytes) : Nat :=
  let mask := (2 ^ bs.length - 1) * 2 ^ lo
  crc64 (leBytes 8 off ++ leBytes 32 mask ++ List.replicate lo 0 ++ bs ++ List.replicate (256 - lo - bs.length) 0)

/-- The sum of the block hashes of a write of bytes at pa over one run (address, length, offset from BASE) of a slot. -/
def runHash (pa : Nat) (bs : Bytes) (r : Nat × Nat × Nat) : Nat :=
  let lo := max pa r.1
  let hi := min (pa + bs.length) (r.1 + r.2.1)
  if hi ≤ lo then 0
  else
    (cutAt 256 (r.2.2 + (lo - r.1)) (hi - lo)).foldl
      (fun v g => v + blockHash (g.1 - g.1 % 256) (g.1 % 256)
        ((bs.drop (r.1 + (g.1 - r.2.2) - pa)).take g.2)) 0

/-- The fingerprint units see one tagged write of a context (R714 to R717): every slot it lands in adds its block hashes. -/
def Dev.tagWrite (d : Dev) (x pa : Nat) (bs : Bytes) : Dev :=
  (d.ctx x).slots.foldl
    (fun e s =>
      let h := s.runs.foldl (fun v r => v + runHash pa bs r) 0
      let k := Reg.FPU_SLOT s.slot
      { e with run := mapSet (fun _ => 0) e.run k ((mapGet (fun _ => 0) e.run k + h) % 2 ^ 64) }) d

/-- The hub cache lookups of an access over translated pieces. -/
def Dev.hcPieces (d : Dev) (x : Nat) (ps : List Piece) (alloc : Bool) : Dev :=
  ps.foldl (fun e p => e.hcTouch x p.pa p.len alloc) d

/-- A tagged write of bytes over translated pieces for a context. -/
def Dev.store (d : Dev) (x : Nat) : List Piece → Bytes → Dev
  | [], _ => d
  | p :: t, bs =>
    let d := ((d.tagWrite x p.pa (bs.take p.len)).writePieces x [p] bs).hcTouch x p.pa p.len false
    Dev.store d x t (bs.drop p.len)

/-- A tagged write that arrives from the hub (master DIN, R504) and loses scratchpad words (R509 to R511). -/
def Dev.storeLosing (d : Dev) (lost : List (Nat × Nat)) (x : Nat) (ps : List Piece) (bs : Bytes) : Dev :=
  (d.store x ps bs).loseWords d (fun _ => 4) (fun a => ps.any fun p => decide (p.pa < a + 8) && decide (a < p.pa + p.len)) lost

/-- The same for a write that is never tagged (R790, R808). -/
def Dev.writeLosing (d : Dev) (lost : List (Nat × Nat)) (x : Nat) (ps : List Piece) (bs : Bytes) : Dev :=
  ((d.writePieces x ps bs).hcPieces x ps false).loseWords d (fun _ => 4) (fun a => ps.any fun p => decide (p.pa < a + 8) && decide (a < p.pa + p.len)) lost

/-- Write poison over translated pieces (R653, R762). -/
def Dev.poisonPieces (d : Dev) (ps : List Piece) : Dev := ps.foldl (fun e p => e.markPoison p.pa p.len) d

/-- Read a context virtual range for a hub engine: the bytes, or the failing translation, or poison (R738, R762). -/
inductive VRead where
  | ok (bs : Bytes)
  | bad (trans addr : Nat)
  | poison (addr : Nat)
  deriving DecidableEq, Repr

/-- Read n bytes at a context virtual address (R736). DESIGN CHOICE (log entry 118): poison anywhere in the range is reported at its
start. -/
def Dev.vread (d : Dev) (x va n : Nat) : VRead :=
  match d.translate x .r va n with
  | .error r => .bad r.1 r.2
  | .ok ps => if d.piecesPoisoned ps then .poison va else .ok (d.readPieces ps)

/-- Write bytes at a context virtual address, or the failing translation (R736). -/
def Dev.vwrite (d : Dev) (x va : Nat) (bs : Bytes) : Except (Nat × Nat) Dev :=
  match d.translate x .w va bs.length with
  | .error r => .error r
  | .ok ps => .ok (d.store x ps bs)

end Sys2Proof.Machine
end

