-- ==== Sys2Proof/Machine/Bundle.lean ====
section
/-!
DEFINITION. Issue of a bundle (R158 to R161, R173 to R186, R214 to R218): each slot is gathered with the effects it has on the
state before the bundle, and the slot that closes the bundle issues all of them together, or none.
-/

namespace Sys2Proof.Machine

/-- Queue entries per cluster (R185). -/
def queueDepth : Nat → Nat
  | 0 => 4 | 1 => 4 | 2 => 16 | 3 => 4 | 4 => 2 | 5 => 4 | _ => 1

/-- Entries of a cluster in a queue. -/
def Dev.queued (d : Dev) (c q : Nat) : Nat :=
  (d.descs.filter fun e => e.cl == c && kindQueue e.kind == q).length

/-- A vx.run or vx.wmax of the cluster is queued or running (R189, R202). -/
def Dev.vecHeld (d : Dev) (c : Nat) : Bool := (d.clu c).vxNow.isSome || d.queued c 1 != 0

/-- The quota of a cluster in a context's plan (R88). -/
def Dev.quota (d : Dev) (x c : Nat) : Nat :=
  match planCluster (d.ctx x).plan c with
  | some e => e.quota
  | none => 0

/-- Trackers of a cluster in use (R130). -/
def Dev.trkInUse (d : Dev) (x c : Nat) : Nat :=
  (d.trks.filter fun e => e.2.kind != 0 && !e.2.hub && e.2.ctx == x && e.2.cluster == c).length

/-- The lowest key, from a on, that a sparse table does not list. -/
def firstFree {α : Type} (m : SMap α) : Nat → Nat → Option Nat
  | _, 0 => none
  | a, n + 1 => if (mapFind m a).isSome then firstFree m (a + 1) n else some a

/-- A free tracker of the plans' pool; the lowest free one (log entry 12). -/
def Dev.freeTrk (d : Dev) : Option Nat := firstFree d.trks 0 (min 245760 (d.trks.length + 1))

/-- A free tracker of the hub-engine reserve (R97, R133). -/
def Dev.freeHubTrk (d : Dev) : Option Nat := firstFree d.trks 245760 (min 16384 (d.trks.length + 1))

/-- IMAGE_LEN of a cluster in a context's plan (R88). -/
def Dev.imageLen (d : Dev) (x c : Nat) : Nat :=
  match planCluster (d.ctx x).plan c with
  | some e => e.len
  | none => 0

/-- Registers of a cluster sampled when a descriptor issues (R206). -/
def Dev.sampled (d : Dev) (c q : Nat) : List Word :=
  if q = 0 then [d.reg (Reg.MXA_WIN c), d.reg (Reg.MXA_SPTHR c)]
  else if q = 1 then
    [d.reg (Reg.VEC_WIN c), d.reg (Reg.VEC_RMODE c), d.reg (Reg.VEC_SRKEY c), d.reg (Reg.VEC_SRIDX c)]
  else []

/-- Current control when a descriptor comes to the array (R397), while MXA_CURR.ENABLE is 1. -/
def Dev.currArrive (d : Dev) (c : Nat) : Dev :=
  if d.bit (Reg.MXA_CURR c) 0 then
    d.modClu c fun k =>
      match k.cur with
      | .off => { k with cur := .rampUp }
      | .gap => { k with cur := if k.act = 16 then .active else .rampUp }
      | .rampDown => { k with cur := .rampUp }
      | _ => k
  else d

/-- Node of a global address (R191). -/
def gNode (a : Nat) : Nat := bitsOf a 48 16
/-- Context virtual part of a global address. -/
def gVa (a : Nat) : Nat := bitsOf a 0 48

/-- First device physical address of translated pieces. -/
def headPa (ps : List Piece) : Nat := match ps with | [] => 0 | p :: _ => p.pa

/-- Bytes of the segment of a fab.dma that begins at PROG (R126). -/
def segLen (q : Desc) : Nat := min (atLe q.bytes 0x20 4 - q.prog) (4096 - (gVa (atLe q.bytes 0x18 8) + q.prog) % 4096)

/-- The tracker of a DMA segment (R129, R133, R184). -/
def segTracker (q : Desc) (addr node len kind now : Nat) : Tracker :=
  { addr := addr, node := node, lsync := atLe q.bytes 2 2, lop := atLe q.bytes 4 1, lval := atLe q.bytes 8 4,
    ctx := q.ctx, cluster := q.cl, length := len, kind := kind, state := 2, src := 2, unit := q.cl, pc := q.pc, since := now,
    rop := atLe q.bytes 0x26 1, robj := atLe q.bytes 0x24 2, rval := atLe q.bytes 0x28 4 }

/-- The tracker of a fab.amo (R133, R635); dva is out of range where no old value returns. -/
def amoTracker (q : Desc) (now : Nat) : Tracker :=
  let dst := atLe q.bytes 0x18 8
  { addr := gVa dst, node := gNode dst, lsync := atLe q.bytes 2 2, lop := atLe q.bytes 4 1, lval := atLe q.bytes 8 4,
    ctx := q.ctx, cluster := q.cl, length := 1, kind := 4, state := 2, src := 2, unit := q.cl, pc := q.pc, since := now,
    dva := if 8 ≤ atLe q.bytes 0x10 1 then atLe q.bytes 0x30 8 else 2 ^ 48 }

/-- The tracker that a DMA descriptor takes at issue: ISSUED, with what its first transfer will be (R133, R188). -/
def Dev.issuedTrk (d : Dev) (q : Desc) : Tracker :=
  let src := atLe q.bytes 0x10 8
  let dst := atLe q.bytes 0x18 8
  let n := segLen q
  if q.kind = 0x21 then { amoTracker q 0 with state := 1 }
  else if gNode src ≠ d.node then { segTracker q (gVa src) (gNode src) (n / 16) 4 0 with state := 1, dva := gVa dst, rd := true }
  else if gNode dst ≠ d.node then { segTracker q (gVa dst) (gNode dst) (n / 16) 2 0 with state := 1 }
  else
    let pa := match d.translate q.ctx .w (gVa dst) n with | .ok ps => headPa ps | .error _ => 0
    { segTracker q pa d.node (n / 16) 1 0 with state := 1 }

/-- One effect of an enabled slot of the bundle at offset pc. -/
def Dev.applyEff (c x pc : Nat) (d : Dev) (e : SlotEff) : Dev :=
  match e with
  | .setS i v => d.setSeqr c x ((d.seqr c x).setS i v)
  | .setA i v => d.setSeqr c x ((d.seqr c x).setA i v)
  | .setP i v => d.setSeqr c x ((d.seqr c x).setP i v)
  | .jump _ => d
  | .openLoop l => d.setSeqr c x { d.seqr c x with loops := l :: (d.seqr c x).loops }
  | .skipTo _ => d
  | .popLoop => d.setSeqr c x { d.seqr c x with loops := (d.seqr c x).loops.tail }
  | .store ea data => d.write (spadAddr c ea) data
  | .storeLosing m ea data lost =>
    let a := spadAddr c ea
    (d.write a data).loseWords d (fun _ => m) (fun w => decide (a < w + 8) && decide (w < a + data.length))
      (lost.map fun k => (a / 8 * 8 + 8 * k.1, k.2))
  | .csrw off v => d.setReg (0x1000000 + c * 0x20000 + off) v
  | .issue kind ea data =>
    let q := kindQueue kind
    let t := if q = 2 then d.freeTrk else none
    let d := if q = 0 then d.currArrive c else d
    let e : Desc := { ctx := x, cl := c, kind := kind, ea := ea, pc := pc, bytes := data, cfg := d.sampled c q, trk := t }
    let d1 := { d with descs := d.descs ++ [e] }
    match t with
    | some k => d1.takeTrk k (d1.issuedTrk e)
    | none => d1
  | .setTile t v => d.modClu c fun k => { k with tiles := mapSet (fun _ => 0) k.tiles t v }
  | .sync obj val => { d with syncQ := d.syncQ ++ [{ ctx := x, obj := obj, val := val, issuer := some (c, pc) }] }
  | .wait _ _ => d
  | .endstep => d
  | .count reg n => d.bump reg n
  | .useVec => d
  | .vecIdx v => d.setReg (Reg.VEC_SRIDX c) v
  | .oisMark => d.markSat x c pc
  | .breachMark => d.markBreach x c pc

/-- An effect cannot issue yet: its queue is full, or it needs a tracker and none is free (R130, R186, R188). -/
def Dev.stalls (d : Dev) (c x : Nat) : SlotEff → Bool
  | .issue kind _ _ =>
    let q := kindQueue kind
    decide (queueDepth q ≤ d.queued c q) ||
      (q == 2 && (decide (d.quota x c ≤ d.trkInUse x c) || d.freeTrk.isNone))
  | .useVec => d.vecHeld c
  | _ => false

/-- An s.csrw to VEC_SRIDX in the bundle takes the place of the advance of a draw (R477). -/
def keepIdx (effs : List SlotEff) : List SlotEff :=
  let written := effs.any fun e => match e with | .csrw off _ => off == 0x10028 | _ => false
  if written then effs.filter fun e => match e with | .vecIdx _ => false | _ => true else effs

/-- A descriptor's issue. -/
def SlotEff.isIssue : SlotEff → Bool
  | .issue _ _ _ => true
  | _ => false

/-- The order in which a bundle's effects apply: the descriptors first, since an s.csrw of the same bundle is for what issues after
it (R206, R355, R475, R494). -/
def issueOrder (effs : List SlotEff) : List SlotEff :=
  let es := keepIdx effs
  es.filter SlotEff.isIssue ++ es.filter fun e => !e.isIssue

/-- The target of a taken control transfer among effects. -/
def jumpOf : List SlotEff → Option Nat
  | [] => none
  | .jump t :: _ => some t
  | _ :: l => jumpOf l

/-- The target of an s.loop that skips its body. -/
def skipOf : List SlotEff → Option Nat
  | [] => none
  | .skipTo t :: _ => some t
  | _ :: l => skipOf l

/-- PC and loop stack after the bundle at pc has issued (R175, R177, R178). -/
def nextPc (pc : Nat) (effs : List SlotEff) (loops : List LoopLevel) : Nat × List LoopLevel :=
  match jumpOf effs with
  | some t => (t, loops)
  | none =>
    let seq := (skipOf effs).getD (pc + 16)
    match loops with
    | [] => (seq, [])
    | l :: t =>
      if l.last = pc then
        if l.left - 1 ≠ 0 then (l.first, { l with left := l.left - 1 } :: t) else (seq, t)
      else (seq, loops)

/-- Every active sequencer of a context has executed sync.endstep (R100). -/
def Dev.allEnded (d : Dev) (x : Nat) : Bool :=
  (planClusters (d.ctx x).plan).all fun e => (d.clu e.cl).seq == .ended && (d.clu e.cl).ctx == x

/-- A fault in a descriptor of the array or the vector engine, reported as DESC_BODY (R190, R406, R501). -/
def Dev.descFault (d : Dev) (q : Desc) (sub trans : Nat) : Dev :=
  d.seqExc q.cl q.ctx 0x12 q.ea 1 sub q.pc false false trans

/-- A context virtual address that cannot be used, with its translation reason in bits [50:48] (R738). -/
def located (trans addr : Nat) : Nat := addr % 2 ^ 48 + trans % 8 * 2 ^ 48

/-- A fault of the array (R404, R406): MXA_FAULT_INFO, FROZEN, the queued descriptors discarded, and the exception. entry is
the group table index in a grouped walk. -/
def Dev.mxFault (d : Dev) (q : Desc) (sub addr : Nat) (entry : Option Nat) : Dev :=
  let a := if 3 ≤ sub && sub ≤ 5 then addr % 2 ^ 32 else 0
  let d := d.setReg (Reg.MXA_FAULT_INFO q.cl) (BitVec.ofNat 64 ((entry.getD 0) % 65536 +
    (if q.kind = 2 then 2 ^ 16 else 0) + sub % 256 * 2 ^ 24 + a * 2 ^ 32))
  let d := d.modClu q.cl fun k => { k with mxFrozen := true }
  let d := { d with descs := d.descs.filter fun e => !(e.cl == q.cl && kindQueue e.kind == 0) }
  d.descFault q sub (if sub = 4 then bitsOf addr 48 3 else 0)

/-- The array of cluster c holds no descriptor. -/
def Dev.mxEmpty (d : Dev) (c : Nat) : Bool := (d.clu c).mxNow.isNone && d.queued c 0 == 0

/-- Accumulators held, or the hash accumulator open, in the array of cluster c as context x enters DRAINING (R367, R452). -/
def Dev.heldCheck (d : Dev) (x c : Nat) : Dev :=
  match (d.clu c).held, (d.clu c).hacc with
  | some h, _ => d.mxFault { ctx := x, cl := c, kind := 1, ea := h.ea, pc := h.pc, bytes := [] } 7 0 none
  | none, some h => d.mxFault { ctx := x, cl := c, kind := 3, ea := h.ea, pc := h.pc, bytes := [] } 0xB 0 none
  | none, none => d

/-- sync.endstep: the stream ends, and the last one moves the context to DRAINING, where each array of it that still holds
accumulators faults (R198, R100, R367, R452, log entry 17). -/
def Dev.endStream (d : Dev) (c x : Nat) : Dev :=
  let d := d.modClu c fun k => { k.leaveGap with seq := .ended }
  if d.allEnded x then
    (planClusters (d.ctx x).plan).foldl (fun e p => e.heldCheck x p.cl)
      (d.modCtx x fun k => { k with state := .draining })
  else d

/-- A WAIT at issue (R114, R117, R195 to R197): not owned, overflowed, satisfied or stalled. pc is the bundle after it. -/
def Dev.startWait (d : Dev) (c x obj thr pc0 pc : Nat) : Dev :=
  let o := d.obj obj
  if !d.owns x obj then d.seqExc c x 0x10 obj 3 0 pc0 false false 0
  else if o.ovf then d.seqExc c x 0x11 obj 3 0 pc true false 0
  else if thr = 0 then d
  else d.modClu c fun k => { k with seq := .waiting, wait := some (obj, thr), waitOk := decide (thr ≤ o.count.toNat) }

/-- The last effect of a bundle on its sequencer: a WAIT or the end of the stream. -/
def Dev.finish (c x pc0 pc : Nat) (d : Dev) (e : SlotEff) : Dev :=
  match e with
  | .wait obj thr => d.startWait c x obj thr pc0 pc
  | .endstep => d.endStream c x
  | _ => d

/-- The fetch buffer after a bundle at pc issued and pc' comes next; a taken control transfer discards what it holds (R209). -/
def fetchAfter (buf : List Nat) (pc pc' : Nat) (taken : Bool) : List Nat :=
  let rest := if buf.head? = some pc then buf.tail else buf
  if !taken && rest.head? = some pc' then rest else []

/-- The precise fault of a slot, with BUNDLE where the V slot and the tile load name one tile (R161, R218). -/
def slotFaultIn (recs : List SlotRec) (r : SlotRec) : Option SlotFault :=
  match r.fault with
  | some f => some f
  | none =>
    if r.slot = 2 && r.tile.isSome && recs.any fun q => q.slot == 3 && q.tile == r.tile then some (.exc 2 r.bits 0)
    else none

/-- Issue a bundle (R159, R160, R215, R217): faults first, then stalls, then every effect. A bundle that cannot issue yet issues none of
its slots, and they come again (R159, R180, R202, log entry 3). -/
def Dev.issueBundle (d : Dev) (c x : Nat) (recs : List SlotRec) : Dev :=
  let pc := (d.seqr c x).pc
  let bad := recs.filter fun r => (slotFaultIn recs r).isSome
  match bad with
  | r :: more =>
    match slotFaultIn recs r with
    | some (.exc code info tr) => d.seqExc c x code info r.slot 0 pc true (!more.isEmpty) tr
    | _ => d.freeze x 0x0B (c / 8) 0 0 0 0
  | [] =>
    let effs := issueOrder (recs.flatMap SlotRec.effs)
    if effs.any (d.stalls c x) then d.modClu c fun k => { k with staged := [] }
    else
      let d := effs.foldl (Dev.applyEff c x pc) d
      let r := d.seqr c x
      let n := nextPc pc effs r.loops
      let d := d.setSeqr c x { r with pc := n.1, loops := n.2 }
      let d := d.addFld (Reg.SEQ_ISSUED c) 0 64 1
      let d := d.modClu c fun k => { k with staged := [], fetch := fetchAfter k.fetch pc n.1 (jumpOf effs).isSome }
      effs.foldl (Dev.finish c x pc n.1) d

/-- Put a slot into its place in the order S, M, V, X. -/
def slotInsert (r : SlotRec) : List SlotRec → List SlotRec
  | [] => [r]
  | q :: t => if r.slot < q.slot then r :: q :: t else q :: slotInsert r t

/-- The fast clock of cluster c runs: the PLL of its group is locked (R136, R137). -/
def Dev.clocked (d : Dev) (c : Nat) : Bool := mapGet (fun _ => Pll.stopped) d.plls (c / 8) == .locked

/-- A sequencer that may issue: running, for a context that is RUNNING (R100), with its fast clock (R137). -/
def Dev.mayIssue (d : Dev) (c : Nat) : Bool :=
  (d.clu c).seq == .running && (d.ctx (d.clu c).ctx).state == .running && d.clocked c

/-- A slot that comes to issue. ill marks a decode fault (R161), tile the tile it names as its destination, work its
effects when it is enabled. A slot that comes where none can issue, or whose effects stall (R186, R202), changes nothing (log
entries 1 and 3); one that comes at IMAGE_LEN raises FETCH (R175), which belongs to no slot: SEQ_EXC.SLOT is then 0 (the model's
choice, log entry 110). -/
def Dev.slot (d : Dev) (a : Slot) (ix opc : Nat) (ill : Bool) (tile : Option Nat)
    (work : Nat → SeqRegs → Except SlotFault (List SlotEff)) : Dev :=
  let c := a.cl
  let k := d.clu c
  let x := k.ctx
  let r := d.seqr c x
  if !d.mayIssue c || k.staged.any (fun q => q.slot == ix) then d
  else if d.imageLen x c ≤ r.pc then d.seqExc c x 6 (d.imageLen x c) 0 0 r.pc true false 0
  else
    let bits := slotBits a opc
    let rec0 : SlotRec :=
      if ill then { slot := ix, bits := bits, tile := tile, fault := some (.exc 1 bits 0), effs := [] }
      else if !slotEnabled r a then { slot := ix, bits := bits, tile := tile, fault := none, effs := [] }
      else
        match work x r with
        | .error f => { slot := ix, bits := bits, tile := tile, fault := some f, effs := [] }
        | .ok effs => { slot := ix, bits := bits, tile := tile, fault := none, effs := effs }
    let recs := slotInsert rec0 k.staged
    if a.last then d.issueBundle c x recs
    else if rec0.effs.any (d.stalls c x) then d
    else d.modClu c fun k => { k with staged := recs }

end Sys2Proof.Machine
end

