-- ==== Sys2Proof/Machine/Router.lean ====
section
/-!
DEFINITION. The device's Nonex router: port states, credits, routing decisions (R614 to R619, R623, R624, R904), arbitration
(R611 to R613), combining of waiting requests (R639 to R642) and multicast branches (R643 to R646).
-/

namespace Sys2Proof.Machine

/-- STATE of a port (R594 onward): 0 DOWN, 1 TRAINING, 2 UP, 3 HOLD, 4 ADMITTED, 5 SWING_WAIT. -/
def Dev.portState (d : Dev) (n : Nat) : Nat := d.fld (Reg.FAB_P_STATUS n) 0 3
/-- Write STATE of a port. -/
def Dev.setPort (d : Dev) (n st : Nat) : Dev := d.setFld (Reg.FAB_P_STATUS n) 0 3 st
/-- Link layer of a port. -/
def Dev.link (d : Dev) (n : Nat) : Link := mapGet (fun _ => {}) d.links n
/-- Write the link layer of a port. -/
def Dev.setLink (d : Dev) (n : Nat) (l : Link) : Dev := { d with links := mapSet (fun _ => {}) d.links n l }
/-- A port is ADMITTED for routing; one in HOLD keeps what it was (R598, R651). -/
def Dev.admitted (d : Dev) (n : Nat) : Bool := d.portState n == 4 || (d.portState n == 3 && (d.link n).admitted)
/-- A port may send or accept a packet now (R624): only VC0 and TIME packets while UP and not ADMITTED. -/
def Dev.portTakes (d : Dev) (n : Nat) (h : Hdr) : Bool :=
  d.portState n == 4 || (d.portState n == 2 && (h.vc == 0 || h.ty == 0x1A))

/-- Largest packet of a VC in units (R612). -/
def vcUnits (vc : Nat) : Nat := if vc = 1 then 19 else 259
/-- Credit of a region when the receiver is empty: key port * 32 + VC * 4 + region (R612). -/
def creditFull (k : Nat) : Nat := (if k % 4 = 0 then 2 else 1) * vcUnits (k / 4 % 8)
/-- Key of a credit count. -/
def creditKey (n vc region : Nat) : Nat := n * 32 + vc * 4 + region
/-- Credit that a port holds for a region of its peer. -/
def Dev.creditOf (d : Dev) (n vc region : Nat) : Nat := mapGet creditFull d.credit (creditKey n vc region)
/-- Write a credit count. -/
def Dev.setCredit (d : Dev) (n vc region v : Nat) : Dev :=
  { d with credit := mapSet creditFull d.credit (creditKey n vc region) v }
/-- The region a packet takes: adaptive, or the escape region of its sub-class (R615, R617). -/
def Hdr.region (h : Hdr) : Nat := if h.esc = 0 then 0 else 1 + h.sub % 2
/-- The port has credit for the whole packet (R612). -/
def Dev.hasCredit (d : Dev) (n : Nat) (h : Hdr) : Bool := decide (h.wire ≤ d.creditOf n h.vc h.region)

/-- Units queued at an output for a VC (R617). -/
def Dev.queueUnits (d : Dev) (n vc : Nat) : Nat :=
  d.rtr.foldl (fun v p => if p.outp = some n && p.hdr.vc = vc then v + p.hdr.wire else v) 0

/-- The fabric key passes management types only; any other key needs a valid entry that permits the port (R623). -/
def Dev.pkeyOk (d : Dev) (n : Nat) (h : Hdr) : Bool :=
  if h.pkey = 0xFFFF then [0x18, 0x19, 0x1A, 0x1B].contains h.ty
  else (upFrom 0 16).any fun k =>
    d.fld (Reg.FAB_PKEY k) 0 16 == h.pkey && d.bit (Reg.FAB_PKEY k) 16 && d.bit (Reg.FAB_PKEY k) (32 + n)

/-- Count a discarded packet in a field of FAB_DROP: 0 PKEY, 1 HOPS, 2 NOROUTE, 3 LOST. -/
def Dev.dropCount (d : Dev) (f n : Nat) : Dev := d.addFld Reg.FAB_DROP (16 * f) 16 n

/-- Bench port p, or port 15 while it is swung in its place (R602, R615). -/
def Dev.swungPort (d : Dev) (p : Nat) : Nat :=
  if d.bit Reg.FAB_SWING 12 && d.fld Reg.FAB_SWING 8 4 = p then 15 else p

/-- The ports that a mask names, port 15 in place of a port it is swung for (R602). -/
def Dev.swungMask (d : Dev) (m : Nat) : Nat :=
  let p := d.fld Reg.FAB_SWING 8 4
  if d.bit Reg.FAB_SWING 12 && bitsOf m p 1 == 1 then (m - 2 ^ p) ||| 2 ^ 15 else m

/-- The node at the far end of a port: by the cabling of the bench (R591), port 15 in place of the port it is swung for, and what
discovery recorded of a span port (R648). -/
def Dev.peerNode (d : Dev) (n : Nat) : Nat :=
  if n < 16 then
    let i := if n = 15 then d.fld Reg.FAB_SWING 8 4 else n
    d.node / 16 * 16 + (d.node % 16 + i + 1) % 16
  else d.fld (Reg.FAB_P_PEER n) 0 16

/-- The bench port to a position of the device's own bench (R591, R615). -/
def Dev.benchPort (d : Dev) (pos : Nat) : Nat := d.swungPort ((pos + 16 - d.node % 16 + 15) % 16)

/-- What a routing decision answers. -/
inductive Route where
  /-- The packet is for this device (R614). -/
  | here
  /-- It waits for credit (R613). -/
  | wait
  /-- It is discarded and counted in a field of FAB_DROP. -/
  | drop (f : Nat)
  /-- It leaves by a port with this header. -/
  | out (n : Nat) (h : Hdr)
  deriving DecidableEq, Repr

/-- A decision to leave by a port with header h: PKEY first, then credit (R612, R623). -/
def Dev.leave (d : Dev) (n : Nat) (h : Hdr) : Route :=
  if !d.pkeyOk n h then .drop 0 else if d.hasCredit n h then .out n h else .wait

/-- A packet arrived on a bench port, or on port 15 swung in place of one. -/
def fromBench (p : RPkt) : Bool :=
  match p.port with
  | some n => decide (n < 16)
  | none => false

/-- Routing within the bench (R615, R616). far is the mask of positions whose port to the destination is ADMITTED, which
the peers know (log entry 14). -/
def Dev.routeBench (d : Dev) (p : RPkt) (far : Nat) : Route :=
  let h := p.hdr
  let pos := h.dst % 16
  let n := d.benchPort pos
  let transit := fromBench p && h.esc == 1
  let h' := if transit then { h with sub := 1 } else h
  if d.admitted n || d.portTakes n h then d.leave n h'
  else if transit then .drop 2
  else
    match firstIn (fun q => q != pos && q != d.node % 16 && bitsOf far q 1 == 1 && d.admitted (d.benchPort q)) (upFrom 0 16) with
    | none => .drop 2
    | some q => d.leave (d.benchPort q) { h with esc := 1, sub := if h.sub = 1 then 1 else 0 }

/-- The header as it leaves by a port (R618, R619): a span port adds a hop, and its DATELINE sets SUB. -/
def Dev.spanHdr (d : Dev) (n : Nat) (h : Hdr) : Hdr :=
  if 16 ≤ n then { h with hops := h.hops + 1, sub := if d.bit (Reg.FAB_P_CFG n) 1 then 1 else h.sub } else h

/-- The adaptive port with credit and the fewest queued units, ties to the lower number (R617). -/
def Dev.bestAdapt (d : Dev) (mask : Nat) (h : Hdr) : Option Nat :=
  (upFrom 0 32).foldl
    (fun b n =>
      if bitsOf mask n 1 = 1 && d.admitted n && d.hasCredit n (d.spanHdr n h) then
        match b with
        | none => some n
        | some m => if d.queueUnits n h.vc < d.queueUnits m h.vc then some n else some m
      else b) none

/-- Checks on leaving by a chosen port toward another bench (R619, R904). -/
def Dev.leaveSpan (d : Dev) (p : RPkt) (n : Nat) (h : Hdr) : Route :=
  if fromBench p && n < 16 then .drop 2
  else if 16 ≤ n && p.hdr.hops = 31 then .drop 1
  else d.leave n (d.spanHdr n h)

/-- Routing to another bench (R617 to R619, R904). -/
def Dev.routeSpan (d : Dev) (p : RPkt) : Route :=
  let h := p.hdr
  let r := Reg.FAB_ROUTE (benchOf h.dst)
  let adapt := d.swungMask (d.fld r 0 32)
  let esc := d.swungPort (d.fld r 32 5)
  let escOk := d.bit r 37 && d.admitted esc
  let anyAdapt := (upFrom 0 32).any fun n => bitsOf adapt n 1 == 1 && d.admitted n
  if !escOk && !anyAdapt then .drop 2
  else
    let tryEsc := if escOk then d.leaveSpan p esc { h with esc := 1 } else .wait
    if h.esc = 1 || h.rmode = 1 then tryEsc
    else
      match d.bestAdapt adapt h with
      | some n => d.leaveSpan p n h
      | none => tryEsc

/-- The routing decision for a unicast packet (R614 to R619). -/
def Dev.route (d : Dev) (p : RPkt) (far : Nat) : Route :=
  if p.hdr.dst = d.node then .here
  else if benchOf p.hdr.dst = benchOf d.node then d.routeBench p far
  else d.routeSpan p

/-- The branches of a multicast packet: its ports and whether a copy is delivered here; none where the group's entry is
not VALID (R643, R644). -/
def Dev.branches (d : Dev) (p : RPkt) : Option (List Nat × Bool) :=
  let h := p.hdr
  if h.rmode = 2 then
    if p.port.isSome then some ([], true)
    else
      let own := d.node % 16
      some ((((upFrom 0 16).filter fun q => q != own && bitsOf h.mcast q 1 == 1).map d.benchPort), bitsOf h.mcast own 1 == 1)
  else
    let r := Reg.FAB_MCAST (h.mcast % 4096)
    if d.bit r 33 then
      let m := d.swungMask (d.fld r 0 32)
      some ((upFrom 0 32).filter (fun n => bitsOf m n 1 == 1 && some n != p.port), d.bit r 32)
    else none

/-- Weight of a VC at the arbiter (R611). -/
def Dev.weight (d : Dev) (vc : Nat) : Nat := d.fld Reg.FAB_VCW (4 * (vc - 2)) 4

/-- The units of the packet of a VC that is sent next at an output: p, or the first that waits there and has credit (R611, R612). -/
def Dev.readyUnits (d : Dev) (n : Nat) (p : RPkt) (vc : Nat) : Option Nat :=
  if p.hdr.vc = vc then some p.hdr.wire
  else
    (d.rtr.find? fun q => q.outp == some n && q.hdr.vc == vc && d.portTakes n q.hdr && d.hasCredit n q.hdr).map fun q => q.hdr.wire

/-- The deficits of a port by key port * 8 + VC (R611); the key of VC 0 keeps the VC that the round robin visits. -/
def drrGet (m : SMap Nat) (n v : Nat) : Nat := mapGet (fun _ => 0) m (n * 8 + v)
/-- Write a deficit. -/
def drrPut (m : SMap Nat) (n v x : Nat) : SMap Nat := mapSet (fun _ => 0) m (n * 8 + v) x

/-- The VC visited after one (R611). -/
def nextVc (v : Nat) : Nat := if v < 7 then v + 1 else 2

/-- Visits of the round robin from VC v on, in ascending order (R611): a VC with a ready packet gains its quantum, and is served where its
deficit covers the packet; one without loses its deficit. -/
def Dev.drrVisit (d : Dev) (n : Nat) (ready : Nat → Option Nat) : Nat → Nat → SMap Nat → Option (Nat × SMap Nat)
  | 0, _, _ => none
  | f + 1, v, m =>
    match ready v with
    | none => d.drrVisit n ready f (nextVc v) (drrPut m n v 0)
    | some u =>
      let t := drrGet m n v + d.weight v * 64
      if u ≤ t then some (v, drrPut m n v t) else d.drrVisit n ready f (nextVc v) (drrPut m n v t)

/-- The deficits of a port once packet p of VC2 to VC7 has been sent, where it is the one that the round robin serves (R611): the VC in
visit while its deficit covers its packet, else the next that one covers. At most five rounds of 64 units cover any packet. -/
def Dev.drrServe (d : Dev) (n : Nat) (p : RPkt) : Option (SMap Nat) :=
  let ready := d.readyUnits n p
  let cur := drrGet d.drr n 0
  let stays := decide (2 ≤ cur) && (ready cur).any fun u => decide (u ≤ drrGet d.drr n cur)
  let m := if decide (2 ≤ cur) && (ready cur).isNone then drrPut d.drr n cur 0 else d.drr
  match (if stays then some (cur, m) else d.drrVisit n ready 36 (if cur < 2 then 2 else nextVc cur) m) with
  | none => none
  | some (v, m) => if v = p.hdr.vc then some (drrPut (drrPut m n 0 v) n v (drrGet m n v - p.hdr.wire)) else none

/-- A packet of a higher strict priority waits at the same output (R611). -/
def Dev.outranked (d : Dev) (n vc : Nat) : Bool :=
  d.rtr.any fun p => p.outp == some n && p.hdr.vc < 2 && p.hdr.vc < vc && d.hasCredit n p.hdr

/-- Two READ requests are combinable (R639). -/
def readsMerge (a b : Hdr) : Bool :=
  a.ty == 3 && b.ty == 3 && a.dst == b.dst && a.addr == b.addr && a.len == b.len && a.job == b.job && a.pkey == b.pkey &&
    decide (a.rmode ≤ 1) && decide (b.rmode ≤ 1)

/-- The operand of a sync operation that two atomics would merge into (R640): NONE counts nothing. -/
def syncOperand (h : Hdr) : Nat := if h.sop = 1 then 1 else if h.sop = 2 then h.sval else 0

/-- Two AMO requests are combinable (R640). -/
def amosMerge (a b : Hdr) : Bool :=
  a.ty == 4 && b.ty == 4 && a.dst == b.dst && a.addr == b.addr && a.job == b.job && a.pkey == b.pkey && a.aop == b.aop &&
    a.asz == b.asz && decide (a.aop ≤ 7) &&
    ((a.sop == 0 && b.sop == 0) ||
      ((a.sop == 1 || a.sop == 2) && (b.sop == 1 || b.sop == 2) && a.sync == b.sync &&
        decide (syncOperand a + syncOperand b < 2 ^ 32)))

/-- Bytes of an atomic's operand (R636). -/
def amoBytes (asz : Nat) : Nat := if asz = 0 then 4 else if asz = 1 then 8 else 12

/-- The new value of an atomic on n-byte numbers (R636). -/
def amoValue (aop n old op : Nat) : Nat :=
  let w := 8 * n
  let less := fun a b => decide (toSigned w a < toSigned w b)
  match aop with
  | 0 => (old + op) % 2 ^ w
  | 1 => if less op old then op else old
  | 2 => if less old op then op else old
  | 3 => min old op
  | 4 => max old op
  | 5 => old &&& op
  | 6 => old ||| op
  | 7 => old ^^^ op
  | 8 => (old + op) % 2 ^ w
  | _ => op

/-- A waiting request with another merged into it (R640, R641): SRC this node, SEQ the entry, PROXY 1. -/
def mergeInto (node e : Nat) (a b : RPkt) : RPkt :=
  let h := { a.hdr with src := node, seq := e, proxy := 1 }
  if a.hdr.ty = 3 then { a with hdr := h }
  else
    let n := amoBytes a.hdr.asz
    let v := amoValue a.hdr.aop n (atLe a.pay 0 n) (atLe b.pay 0 n)
    let pay := leBytes n v ++ a.pay.drop n
    if a.hdr.sop = 0 then { a with hdr := h, pay := pay }
    else { a with hdr := { h with sop := 2, sval := syncOperand a.hdr + syncOperand b.hdr }, pay := pay }

/-- A packet can take another into it at its output (R641): combining enabled, within WINDOW, at most 16 requests. -/
def Dev.combinable (d : Dev) (n : Nat) (a b : RPkt) : Bool :=
  let merged :=
    if a.hdr.proxy = 1 && a.hdr.src = d.node then ((mapFind d.combine a.hdr.seq).map fun e => e.req.length).getD 16 else 1
  a.outp == some n && a.hdr.vc == b.hdr.vc && !a.bad && !b.bad && decide (d.time.toNat ≤ a.at_ + d.fld Reg.FAB_COMBINE 8 7) &&
    decide (merged < 16) &&
    ((d.bit Reg.FAB_COMBINE 0 && readsMerge a.hdr b.hdr) || (d.bit Reg.FAB_COMBINE 1 && amosMerge a.hdr b.hdr))

/-- Combine the arriving packet b, routed to output n, with one that waits there, or answer none (R641). -/
def Dev.tryCombine (d : Dev) (n : Nat) (b : RPkt) : Option Dev :=
  match d.rtr.findIdx? (fun a => d.combinable n a b) with
  | none => none
  | some i =>
    match d.rtr[i]? with
    | none => none
    | some a =>
      let held := a.hdr.proxy == 1 && a.hdr.src == d.node
      match (if held then some a.hdr.seq else firstIn (fun e => (mapFind d.combine e).isNone) (upFrom 0 256)) with
      | none => none
      | some e =>
        let who := fun (h : Hdr) => (h.src, h.seq % 2 ^ 24 + h.proxy % 2 * 2 ^ 24)
        let old := ((mapFind d.combine e).map Combine.req).getD [who a.hdr]
        let ent : Combine :=
          { req := old ++ [who b.hdr], far := benchOf a.hdr.dst != benchOf d.node, since := d.time.toNat, port := n }
        some { d with
          rtr := d.rtr.set i (mergeInto d.node e a b)
          combine := mapPut d.combine e (some ent) }

/-- A packet that loses its output is routed again, with the header it came with (R619). -/
def RPkt.unroute (p : RPkt) : RPkt :=
  match p.was with
  | none => { p with outp := none }
  | some w => { p with outp := none, was := none, hdr := { p.hdr with esc := w.1, sub := w.2.1, hops := w.2.2 } }

/-! ### Superframes (R593 to R597) -/

/-- What a superframe takes of the unit stream: its units, the first that begins a packet, the packets that end in it, and what stays. -/
structure Taken where
  units : Bytes
  start : Option Nat
  ends : Nat
  rest : List (Bool × Bytes)
  deriving DecidableEq, Repr

/-- Take up to room units of the stream, the first of them at index i of the superframe (R593, R604). -/
def takeUnits : Nat → Nat → List (Bool × Bytes) → Taken
  | _, _, [] => ⟨[], none, 0, []⟩
  | i, room, (begun, bs) :: t =>
    let n := bs.length / 16
    let here := if begun then none else some i
    if room = 0 then ⟨[], none, 0, (begun, bs) :: t⟩
    else if room < n then ⟨bs.take (16 * room), here, 0, (true, bs.drop (16 * room)) :: t⟩
    else
      let r := takeUnits (i + n) (room - n) t
      ⟨bs ++ r.units, if begun then r.start else here, r.ends + 1, r.rest⟩

/-- START of a link word: the first unit that begins a packet, else the first idle unit, else 0xFF (R594). -/
def Taken.startAt (t : Taken) : Nat := t.start.getD (if t.units.length / 16 < 160 then t.units.length / 16 else 0xFF)

/-- The credit that a port is to return, at most two regions and 1,023 units of each in a superframe (R594, R612). -/
def Dev.dueAt (d : Dev) (n : Nat) : List (Nat × Nat) :=
  ((d.creditDue.filter fun e => e.1 / 32 == n && e.2 != 0).take 2).map fun e => (e.1, min 1023 e.2)

/-- CSEL and CNT of a link word for a region's credit (R594). -/
def creditWord (e : Nat × Nat) : Nat := e.1 / 4 % 8 + e.1 % 4 * 8 + e.2 % 1024 * 32

/-- The link word of a port's next superframe (R594). -/
def Link.word (l : Link) (start : Nat) (due : List (Nat × Nat)) : Nat :=
  let cmd := l.cmds.headD (0, 0)
  l.txSeq % 4096 + l.rxSeq % 4096 * 2 ^ 12 + l.nakDue.toNat * 2 ^ 24 + start % 256 * 2 ^ 25 +
    ((due[0]?).map creditWord).getD 0 * 2 ^ 33 + ((due[1]?).map creditWord).getD 0 * 2 ^ 48 + cmd.1 % 256 * 2 ^ 64 + cmd.2 % 256 * 2 ^ 72

/-- A port sends a superframe, which stays in its replay buffer until acknowledged; with 512 there none leaves (R597). One with a link
command, or in HOLD, carries idle units alone. -/
def Dev.sendFrame (d : Dev) (n : Nat) : Dev :=
  let l := d.link n
  if 512 ≤ l.replay.length then d
  else
    let t := takeUnits 0 (if l.cmds.isEmpty && d.portState n != 3 then 160 else 0) l.stream
    let due := d.dueAt n
    let f : Frame :=
      { seq := l.txSeq, lw := l.word t.startAt due, units := t.units ++ List.replicate (2560 - t.units.length) 0, ends := t.ends }
    let d := { d with creditDue := due.foldl (fun m (e : Nat × Nat) => mapSet (fun _ => 0) m e.1 (mapGet (fun _ => 0) m e.1 - e.2)) d.creditDue }
    (d.setLink n { l with
      txSeq := (l.txSeq + 1) % 4096, stream := t.rest, replay := l.replay ++ [f], cmds := l.cmds.drop 1, nakDue := false
      ackSent := l.rxSeq }).emit (.superframe n f.lw f.units)

/-- Units that wait in a port's stream. -/
def Link.waiting (l : Link) : Nat := l.stream.foldl (fun v e => v + e.2.length / 16) 0

/-- Superframes leave while the stream fills them. -/
def Dev.pumpGo (n : Nat) : Nat → Dev → Dev
  | 0, d => d
  | f + 1, d => if 160 ≤ (d.link n).waiting then Dev.pumpGo n f (d.sendFrame n) else d

/-- The whole superframes of a port's stream leave; units that fill none wait for more, or for the next hub cycle (R593). -/
def Dev.pump (d : Dev) (n : Nat) : Dev := Dev.pumpGo n ((d.link n).waiting / 160) d

/-- Send a link command to the peer of a port (R594). -/
def Dev.linkCmd (d : Dev) (n cmd arg : Nat) : Dev :=
  (d.setLink n { d.link n with cmds := (d.link n).cmds ++ [(cmd, arg)] }).sendFrame n

/-- Send the superframes of a port's replay buffer again, in order and with the same contents (R595). -/
def Dev.resend (d : Dev) (n : Nat) : Dev :=
  let fs := (d.link n).replay
  (fs.foldl (fun e f => e.emit (.superframe n f.lw f.units)) d).addFld (Reg.FAB_P_RETRY n) 32 32 fs.length

/-- A packet leaves the input region it came into, whose credit returns to the sender (R612). -/
def Dev.freeRegion (d : Dev) (p : RPkt) : Dev :=
  match p.inReg, p.port with
  | true, some n =>
    let h := match p.was with | some w => { p.hdr with esc := w.1, sub := w.2.1 } | none => p.hdr
    let k := creditKey n h.vc h.region
    { d with creditDue := mapSet (fun _ => 0) d.creditDue k (mapGet (fun _ => 0) d.creditDue k + p.hdr.wire) }
  | _, _ => d

/-- Send a packet that waits at its output (R611 to R613, R623): credit is taken, and its units join the port's stream. -/
def Dev.transmit (d : Dev) (k n : Nat) (p : RPkt) : Dev :=
  let gone : Dev := { d.freeRegion p with rtr := d.rtr.eraseIdx k }
  if !d.portTakes n p.hdr then
    if d.portState n = 3 || d.portState n = 5 then d
    else { d with rtr := d.rtr.set k p.unroute }
  else if !d.pkeyOk n p.hdr then gone.dropCount 0 1
  else if !d.hasCredit n p.hdr || d.outranked n p.hdr.vc || decide (160 ≤ (d.link n).waiting) then d
  else
    match (if p.hdr.vc < 2 then some d.drr else d.drrServe n p) with
    | none => d
    | some m =>
      let l := d.link n
      let d := { gone with drr := m }.setCredit n p.hdr.vc p.hdr.region (d.creditOf n p.hdr.vc p.hdr.region - p.hdr.wire)
      (d.setLink n { l with stream := l.stream ++ [(false, p.bytes)] }).pump n

end Sys2Proof.Machine
end

