-- ==== Sys2Proof/Machine/Transfer.lean ====
section
/-!
DEFINITION. Transfers and their trackers (R126 to R133, R654, R900, R901), the cluster DMA queue (R188, R191, R192, R633) and
fab.amo (R635 to R637).
-/

namespace Sys2Proof.Machine

/-- A fault of cluster c's DMA queue for context x (R654): the DMA fault word, and the freeze. -/
def Dev.dmaFault (d : Dev) (x c code detail trans : Nat) : Dev :=
  let d := d.modClu c fun k =>
    { k with dmaFault :=
        if bitOf k.dmaFault 8 then setField k.dmaFault 9 1 1
        else BitVec.ofNat 64 (code % 256 + 2 ^ 8 + detail % 2 ^ 32 * 2 ^ 32) }
  d.freeze x 2 code 0 trans c detail

/-- A fault of the collectives engine for context x (R689, R690): COL_FAULT, and the freeze. op is the OP of the operation,
0xFF for an agreement. -/
def Dev.colFault (d : Dev) (x c op code detail trans : Nat) : Dev :=
  let d :=
    if d.bit Reg.COL_FAULT 8 then d.setBit Reg.COL_FAULT 9 true
    else d.setReg Reg.COL_FAULT (BitVec.ofNat 64 (code % 256 + 2 ^ 8 + x % 8 * 2 ^ 10 + c % 128 * 2 ^ 16 +
      (if op = 0xFF then 2 ^ 23 else 0) + op % 256 * 2 ^ 24 + detail % 2 ^ 32 * 2 ^ 32))
  d.freeze x 4 code 0 trans 0 detail

/-- The fault of the master that a tracker serves (R654). -/
def Dev.masterFault (d : Dev) (t : Tracker) (code detail trans : Nat) : Dev :=
  if t.src = 4 then d.colFault t.ctx t.cluster t.unit code detail trans
  else d.dmaFault t.ctx t.cluster code detail trans

/-- The master that a tracker serves has recorded a fault of the tracker's context. -/
def Dev.masterFaulted (d : Dev) (t : Tracker) : Bool :=
  if t.src = 4 then d.bit Reg.COL_FAULT 8 && d.fld Reg.COL_FAULT 10 3 == t.ctx else bitOf (d.clu t.cluster).dmaFault 8

/-- A tracker of an atomic that returns the old value (R635). -/
def Tracker.fetches (t : Tracker) : Bool := t.kind == 4 && !t.rd && decide (t.dva < 2 ^ 48)

/-- A fault of the DMA queue or an engine whose transfer needs no tracker any more: the tracker becomes free (R129), and its master
raises its fault, which adds MULTI to one it has recorded (R654, R749). -/
def Dev.failTrk (d : Dev) (k code detail trans : Nat) : Dev := (d.freeTrkEntry k).masterFault (d.trk k) code detail trans

/-- The lane of an address in the error counters (R761). -/
def eccLane (a : Nat) : Nat := if isHbm a then 1 else if a < 0x200000000000 then 2 else 0

/-- What a read of translated pieces finds in its codes. -/
def Dev.eccPieces (d : Dev) (e : Ecc) (ps : List Piece) : Dev :=
  match ps with
  | [] => d
  | p :: _ => d.eccEvent e (eccLane p.pa) p.pa


/-- The least of the offsets whose check fails. -/
def leastBad (l : List (Nat × Bool)) : Option Nat :=
  (l.filter Prod.snd).foldl (fun m e => match m with | none => some e.1 | some o => some (min o e.1)) none

/-- Each of n reserved bytes of a descriptor body from an offset, with whether it is non-zero: a check of reserved bytes rejects the
offset of the byte (log entry 114). -/
def badBytes (b : Bytes) (off n : Nat) : List (Nat × Bool) := (upFrom off n).map fun i => (i, atLe b i 1 != 0)

/-- The DBODY checks of a fab.dma (R191, R192, R633). -/
def Dev.dmaBody (d : Dev) (b : Bytes) : Option Nat :=
  let src := atLe b 0x10 8
  let dst := atLe b 0x18 8
  let len := atLe b 0x20 4
  let own := d.node
  let remS := gNode src != own
  let remD := gNode dst != own
  leastBad [(0x10, (remS && remD) || (remS && (gVa src % 16 != 0 || gVa src % 4096 != gVa dst % 4096))),
    (0x18, gVa dst % 16 != 0), (0x20, len % 16 != 0 || len < 16 || 0x10000000 < len), (0x26, 3 < atLe b 0x26 1),
    (0x27, (remS || remD) && (atLe b 0x27 1 < 2 || 5 < atLe b 0x27 1)), (0x2C, !zeroAt b 0x2C 20)]

/-- SYNC of a packet with a sync operation, and 0 with none (R119, log entry 111). -/
def sopSync (op obj : Nat) : Nat := if op = 0 then 0 else obj

/-- The body checks of a fab.amo (R609, R635 to R637): a target on the device is aligned to its size, one elsewhere to 16 bytes as
its packet's ADDR (log entry 23). -/
def Dev.amoBody (d : Dev) (b : Bytes) : Option Nat :=
  let aop := atLe b 0x10 1
  let asz := atLe b 0x11 1
  let res := atLe b 0x30 8
  let dst := atLe b 0x18 8
  let align := if gNode dst = d.node then (if asz = 0 then 4 else if asz = 1 then 8 else 16) else 16
  leastBad [(0x10, 0xA < aop), (0x11, 2 < asz || (asz == 2 && 2 < aop)), (0x14, 2 < atLe b 0x14 1),
    (0x15, !zeroAt b 0x15 3), (0x18, gVa dst % align != 0),
    (0x30, if 8 ≤ aop then res % 16 != 0 || 2 ^ 48 ≤ res else res != 0), (0x3C, !zeroAt b 0x3C 4)]

/-- Change the first descriptor that passes a test. -/
def updFirst (p : Desc → Bool) (f : Desc → Desc) : List Desc → List Desc
  | [] => []
  | q :: t => if p q then f q :: t else q :: updFirst p f t

/-- The descriptor a cluster's DMA queue works on: the oldest (R187). -/
def dmaOf (c : Nat) (q : Desc) : Bool := q.cl == c && kindQueue q.kind == 2

/-- Remove the descriptor a cluster's DMA queue works on. -/
def Dev.popDma (d : Dev) (c : Nat) : Dev := { d with descs := d.descs.eraseP (dmaOf c) }

/-- The tracker of the next segment: the one taken at issue for the first, a free one of the quota for the others (R188). -/
def Dev.segTrk (d : Dev) (q : Desc) : Option Nat :=
  match q.trk with
  | some k => some k
  | none => if d.quota q.ctx q.cl ≤ d.trkInUse q.ctx q.cl then none else d.freeTrk

/-- A fault in a descriptor of the DMA queue: no segment is performed and its tracker frees. -/
def Dev.dmaStop (d : Dev) (q : Desc) (code detail trans : Nat) : Dev :=
  let d := match q.trk with | some k => d.freeTrkEntry k | none => d
  (d.popDma q.cl).dmaFault q.ctx q.cl code detail trans

/-- Take the tracker of a segment; the descriptor has advanced by n bytes, and leaves the queue after its last. -/
def Dev.takeSeg (d : Dev) (q : Desc) (k : Nat) (t : Tracker) (n total : Nat) : Dev :=
  let d := if q.trk = some k then d.setTrk k t else d.takeTrk k t
  if q.prog + n < total then
    { d with descs := updFirst (dmaOf q.cl) (fun e => { e with prog := e.prog + n, trk := none }) d.descs }
  else d.popDma q.cl


/-- A segment whose source is local: the bytes are read and leave (R126, R609, R901). -/
def Dev.segOut (d : Dev) (q : Desc) (k n : Nat) (e : Ecc) : Dev :=
  let src := gVa (atLe q.bytes 0x10 8) + q.prog
  let dstG := atLe q.bytes 0x18 8
  let dst := gVa dstG + q.prog
  let total := atLe q.bytes 0x20 4
  match d.translate q.ctx .r src n with
  | .error r => d.dmaStop q 0x52 (r.2 % 2 ^ 32) r.1
  | .ok ps =>
    let d := (d.eccPieces e ps).hcPieces q.ctx ps true
    if d.piecesPoisoned ps then d.dmaStop q 0x55 (src % 2 ^ 32) 0
    else
      let data := d.readPieces ps
      if gNode dstG = d.node then
        match d.translate q.ctx .w dst n with
        | .error r => d.dmaStop q 0x52 (r.2 % 2 ^ 32) r.1
        | .ok qs =>
          let t := segTracker q (headPa qs) d.node (n / 16) 1 d.time.toNat
          let d := d.takeSeg q k t n total
          let w : LWrite := { trk := k, ctx := q.ctx, va := dst, data := data, rop := t.rop, robj := t.robj, rval := t.rval }
          { d with lwrites := d.lwrites ++ [w] }
      else
        let t := segTracker q dst (gNode dstG) (n / 16) 2 d.time.toNat
        let d := d.takeSeg q k t n total
        d.inject { d.ctxHdr q.ctx 1 (atLe q.bytes 0x27 1) (gNode dstG) with
          len := n / 16, sop := t.rop, sync := sopSync t.rop t.robj, addr := dst, seq := d.tag k,
          sval := if t.rop = 2 then t.rval else 0 } data false

/-- A segment whose source is remote: one READ on VC5 (R633). -/
def Dev.segIn (d : Dev) (q : Desc) (k n : Nat) : Dev :=
  let srcG := atLe q.bytes 0x10 8
  let dst := gVa (atLe q.bytes 0x18 8) + q.prog
  match d.translate q.ctx .w dst n with
  | .error r => d.dmaStop q 0x52 (r.2 % 2 ^ 32) r.1
  | .ok _ =>
    let t := { segTracker q (gVa srcG + q.prog) (gNode srcG) (n / 16) 4 d.time.toNat with dva := dst, rd := true }
    let d := d.takeSeg q k t n (atLe q.bytes 0x20 4)
    d.inject { d.ctxHdr q.ctx 3 5 (gNode srcG) with len := n / 16, addr := gVa srcG + q.prog, seq := d.tag k } [] false

/-- The next segment of a fab.dma (R126, R192, R631, R633). -/
def Dev.dmaSegment (d : Dev) (q : Desc) (e : Ecc) : Dev :=
  let srcG := atLe q.bytes 0x10 8
  let n := segLen q
  match d.dmaBody q.bytes with
  | some o => d.dmaStop q 0x50 o 0
  | none =>
    if gNode srcG ≠ d.node && benchOf (gNode srcG) ≠ benchOf d.node then d.dmaStop q 0x51 (gNode srcG) 0
    else
      match d.segTrk q with
      | none => d
      | some k => if gNode srcG = d.node then d.segOut q k n e else d.segIn q k n

/-- A fab.amo (R631, R635): a remote one sends its packet, a local one goes to the local controller. -/
def Dev.amoStart (d : Dev) (q : Desc) : Dev :=
  let b := q.bytes
  let dstG := atLe b 0x18 8
  let aop := atLe b 0x10 1
  let res := atLe b 0x30 8
  match d.amoBody b, d.segTrk q with
  | some o, _ => d.dmaStop q 0x50 o 0
  | none, none => d
  | none, some k =>
    let t := amoTracker q d.time.toNat
    let rop := atLe b 0x14 1
    let robj := atLe b 0x12 2
    let rval := atLe b 0x38 4
    let operand := (b.drop 0x20).take 16
    let resBad := if 8 ≤ aop then (match d.translate q.ctx .w res 16 with | .error r => some r | .ok _ => none) else none
    match resBad with
    | some r => d.dmaStop q 0x52 (r.2 % 2 ^ 32) r.1
    | none =>
      if gNode dstG = d.node then
        let n := amoBytes (atLe b 0x11 1)
        match d.translate q.ctx .la (gVa dstG) n with
        | .error r => d.dmaStop q 0x52 (r.2 % 2 ^ 32) r.1
        | .ok ps =>
          let d := (d.setTrk k { t with addr := headPa ps }).popDma q.cl
          let w : LWrite :=
            { trk := k, ctx := q.ctx, va := gVa dstG, data := operand, rop := rop, robj := robj, rval := rval,
              amo := some (aop, atLe b 0x11 1, res) }
          { d with lwrites := d.lwrites ++ [w] }
      else if benchOf (gNode dstG) ≠ benchOf d.node then d.dmaStop q 0x51 (gNode dstG) 0
      else
        let d := (d.setTrk k t).popDma q.cl
        d.inject { d.ctxHdr q.ctx (if 8 ≤ aop then 5 else 4) 5 (gNode dstG) with
          len := 1, sop := rop, sync := sopSync rop robj, addr := gVa dstG, aop := aop, asz := atLe b 0x11 1, seq := d.tag k,
          sval := if rop = 2 then rval else 0 } operand false

/-- The DMA queue of a cluster starts its next segment (R187, R188). -/
def Dev.dmaNext (d : Dev) (c : Nat) (e : Ecc) : Dev :=
  match d.descs.find? (dmaOf c) with
  | none => d
  | some q => if q.kind = 0x21 then d.amoStart q else d.dmaSegment q e

/-- DMA_SEGMENT_START (R188). -/
def execDmaSegmentStart (c : Nat) (e : Ecc) (s : State) : Host.Outcome State Fault Refusal := s.run (·.dmaNext c e)

/-- A sync operation at this device that a transfer carries is refused (R117, R119, R901). -/
def Dev.syncRefused (d : Dev) (x op obj : Nat) : Bool := op != 0 && (decide (3 < op) || !d.owns x obj)

/-- Read, update and write back an atomic's target (R636, R637): the old value and the state after. -/
def Dev.amoApply (d : Dev) (x aop asz : Nat) (ps : List Piece) (operand : Bytes) : Nat × Dev :=
  let n := amoBytes asz
  let old := leNat (d.readPieces ps)
  let new :=
    if aop = 0xA then
      if old = atLe operand 0 (min n 8) then atLe operand 8 (min n 8) else old
    else amoValue aop n old (atLe operand 0 n)
  (old, (d.hcPieces x ps true).writePieces x ps (leBytes n new))

/-- A local atomic at the local controller (R635, R901). -/
def Dev.localAmo (d : Dev) (w : LWrite) (aop asz res : Nat) : Dev :=
  match d.translate w.ctx .la w.va (amoBytes asz) with
  | .error r => d.failTrk w.trk 0x52 (r.2 % 2 ^ 32) r.1
  | .ok ps =>
    if d.piecesPoisoned ps then d.failTrk w.trk 0x55 (w.va % 2 ^ 32) 0
    else
      let (old, d) := d.amoApply w.ctx aop asz ps w.data
      let d := d.syncOp w.ctx w.rop w.robj w.rval 0
      let d := d.setTrk w.trk { d.trk w.trk with state := 3 }
      if aop < 8 then d
      else
        match d.vwrite w.ctx res (leBytes 16 old) with
        | .error r => d.failTrk w.trk 0x52 (r.2 % 2 ^ 32) r.1
        | .ok d => d

/-- The refusal code of an exchange write to the device itself (R626, R738, R901), or none. -/
def Dev.exchRefused (d : Dev) (w : LWrite) : Option Nat :=
  match d.translate w.ctx .iw w.va w.data.length with
  | .error (2, _) => some 8
  | .error (4, _) => some 9
  | .error _ => some 7
  | .ok _ => if d.syncRefused w.ctx w.rop w.robj then some 0xB else none

/-- The destination blocks of a range in hub memory or a scratchpad (R78): a stack controller (R540), a capacity controller (R544), or
a cluster. -/
def destBlocks (a n : Nat) : List Nat :=
  if 0x200000000000 ≤ a then [16 + (a - 0x200000000000) / 0x1000000]
  else (upFrom (a / 256) ((a + n - 1) / 256 + 1 - a / 256)).map fun g =>
    if isHbm (256 * g) then (hbmChannel (256 * g)).1 else 8 + (capPlace (256 * g)).1

/-- The destination blocks of a local write. -/
def Dev.writeBlocks (d : Dev) (w : LWrite) : List Nat :=
  let n := match w.amo with | some (_, asz, _) => amoBytes asz | none => w.data.length
  match d.translate w.ctx (if w.exch then .iw else .w) w.va n with
  | .ok ps => ps.flatMap fun p => destBlocks p.pa p.len
  | .error _ => []

/-- A waiting local write v of the cluster that issued w, before it, goes to a destination block of w: w keeps its place behind it (R78). -/
def Dev.writeBehind (d : Dev) (v w : LWrite) : Bool :=
  let t := d.trk v.trk
  let u := d.trk w.trk
  !t.hub && !u.hub && t.cluster == u.cluster && (d.writeBlocks v).any fun b => (d.writeBlocks w).contains b

/-- The k-th local write waits for none of its cluster to the same destination block (R78). -/
def Dev.writeFirst (d : Dev) (k : Nat) : Bool :=
  match d.lwrites[k]? with
  | none => false
  | some w => !(d.lwrites.take k).any fun v => d.writeBehind v w

/-- The k-th local write is performed at its destination with its sync operation, or is refused (R127, R128, R900, R901), once
none of its cluster goes before it (R78); lost are the scratchpad words it loses (R510). -/
def Dev.localWrite (d : Dev) (k : Nat) (lost : List (Nat × Nat)) : Dev :=
  match (if d.writeFirst k then d.lwrites[k]? else none) with
  | none => d
  | some w =>
    let d := { d with lwrites := d.lwrites.eraseIdx k }
    let nacked := fun (d : Dev) code => d.failTrk w.trk 0x53 (code + d.node * 2 ^ 16) 0
    match w.exch, d.exchRefused w with
    | true, some code => nacked d code
    | _, _ =>
      if d.syncRefused w.ctx w.rop w.robj then nacked d 0xB
      else
        match w.amo with
        | some (aop, asz, res) => d.localAmo w aop asz res
        | none =>
          match d.translate w.ctx (if w.exch then .iw else .w) w.va w.data.length with
          | .error r => d.failTrk w.trk 0x52 (r.2 % 2 ^ 32) r.1
          | .ok ps =>
            let d := d.storeLosing lost w.ctx ps w.data
            let d := d.syncOp w.ctx w.rop w.robj w.rval (ceilDiv w.data.length 16)
            d.setTrk w.trk { d.trk w.trk with state := 3 }

/-- LOCAL_WRITE_PERFORM (R900, R901). -/
def execLocalWritePerform (k : Nat) (lost : List (Nat × Nat)) (s : State) : Host.Outcome State Fault Refusal :=
  s.run (·.localWrite k lost)

/-- A completed transfer's tracker applies its local operation and becomes free (R129); a frozen context's applies none
(R748). -/
def Dev.trkDone (d : Dev) (k : Nat) : Dev :=
  let t := d.trk k
  if t.kind != 0 && t.state = 3 then
    let d := d.freeTrkEntry k
    if (d.ctx t.ctx).state = .frozen then d else d.copOp t.ctx t.cluster t.pc 3 t.lop t.lsync t.lval t.length
  else d

/-- TRACKER_COMPLETE (R129). -/
def execTrackerComplete (k : Nat) (s : State) : Host.Outcome State Fault Refusal := s.run (·.trkDone k)

/-- The dead-target timeout toward a node in hub cycles (R652). -/
def Dev.deadTime (d : Dev) (far : Bool) : Nat := d.fld Reg.FAB_TIMEOUT (if far then 16 else 0) 16 * 1600

/-- Tracker k is of a remote transfer in flight past the dead-target timeout (R652). -/
def Dev.trkDue (d : Dev) (k : Nat) : Bool :=
  let t := d.trk k
  decide (2 ≤ t.kind) && t.node != d.node && t.state == 2 &&
    decide (t.since + d.deadTime (benchOf t.node != benchOf d.node) ≤ d.time.toNat)

/-- A remote transfer in flight past the dead-target timeout (R652, R653): TIMEOUT, poison over the local destination of a read,
and the master's fault. -/
def Dev.trkTimeout (d : Dev) (k : Nat) : Dev :=
  let t := d.trk k
  if d.trkDue k then
    let d := d.setTrk k { t with state := 4 }
    let d :=
      if t.rd then
        match d.translate t.ctx .w t.dva (16 * t.length) with
        | .ok ps => d.poisonPieces ps
        | .error _ => d
      else d
    d.masterFault t 0x54 t.node 0
  else d

/-- TRACKER_TIMEOUT (R652). -/
def execTrackerTimeout (k : Nat) (s : State) : Host.Outcome State Fault Refusal := s.run (·.trkTimeout k)

end Sys2Proof.Machine
end

