-- ==== Sys2Proof/Machine/Inbound.lean ====
section
/-!
DEFINITION. Inbound packets at their destination (R625 to R630): the checks of a request in order, what it performs, its
answer, and the completion of the device's own transfers by responses.
-/

namespace Sys2Proof.Machine

/-- The loaded context that holds a JOB (R626, R899). -/
def Dev.ctxOfJob (d : Dev) (job : Nat) : Option Nat :=
  firstIn (fun x => d.loaded x && planJob (d.ctx x).plan == job) allCtxs

/-- A context takes inbound requests in these states (R107). -/
def CtxState.takesInbound : CtxState → Bool
  | .armed | .waking | .running | .draining => true
  | _ => false

/-- The VCs a packet type may travel on (R607). -/
def vcLegal (ty vc : Nat) : Bool :=
  match ty with
  | 1 | 2 => 2 ≤ vc && vc ≤ 5
  | 3 | 4 | 5 => vc == 5
  | 8 | 9 | 0xA | 0xB => vc == 6
  | 0x10 => vc == 4
  | 0x11 => vc == 1
  | 0x18 | 0x19 => vc == 0
  | 0x1A | 0x1B => vc == 7
  | _ => false

/-- RMODE is legal for the type and VC (R605, R645). -/
def rmodeLegal (h : Hdr) : Bool :=
  h.rmode ≤ 1 || (h.ty == 1 && h.vc == 4) || h.ty == 0x10 || h.ty == 0x11 || h.ty == 0x18

/-- The fields of a request or chunk pass the TYPE check of R626; those that R681 does not list are 0 in a chunk. -/
def typeOk (h : Hdr) (vc : Nat) : Bool :=
  let lenOk :=
    match h.ty with
    | 2 | 4 | 5 => h.len == 1
    | 0x11 => h.len ≤ 16
    | _ => h.len ≤ 256
  let bytes := if h.ty = 2 then 8 else if h.ty = 4 || h.ty = 5 then 16 else 16 * h.len
  let addrOk :=
    if h.ty ≤ 5 then h.addr % (if h.ty = 2 then 8 else 16) == 0 && decide (h.addr % 4096 + bytes ≤ 4096) else true
  let chunk := h.ty == 0x10 || h.ty == 0x11
  vcLegal h.ty h.vc && h.vc == vc && rmodeLegal h && h.z == 0 && lenOk && addrOk &&
    (!chunk || (h.sop == 0 && h.sync == 0 && h.aop == 0 && h.asz == 0))

/-- Codes 0x01 to 0x06 of R626, which a request and a chunk share: the refusal, or the context. While a stream is frozen every request
of its job is refused with FROZEN (R628, log entry 112). -/
def Dev.inHead (d : Dev) (p : RPkt) (vc : Nat) : Except Nat Nat :=
  let h := p.hdr
  if p.bad then .error 1
  else if !typeOk h vc then .error 2
  else
    match d.ctxOfJob h.job with
    | none => .error 3
    | some x =>
      if d.bit (Reg.FAB_CTX_ID x) 32 then .error 5
      else if !(d.ctx x).state.takesInbound then .error 4
      else if d.pkey x ≠ h.pkey then .error 6
      else .ok x

/-- The kind of access of a request (R629). -/
def Hdr.acc (h : Hdr) : Acc := if h.ty ≤ 2 then .iw else if h.ty = 3 then .ir else .ia

/-- Bytes a request reads or writes. -/
def Hdr.bytesAt (h : Hdr) : Nat := if h.ty = 2 then 8 else if h.ty ≤ 3 then 16 * h.len else amoBytes h.asz

/-- An atomic breaks R636 or R637. -/
def atypeBad (h : Hdr) : Bool :=
  let fetch := h.ty == 5
  (h.ty == 4 || fetch) &&
    (3 ≤ h.asz || (h.asz == 2 && 2 < h.aop) || (if fetch then h.aop < 8 || 0xA < h.aop else 7 < h.aop))

/-- Every check of R626 on a request, in order: the refusal code, or the context and the translated target. -/
def Dev.inCheck (d : Dev) (p : RPkt) (vc : Nat) : Except Nat (Nat × List Piece) :=
  let h := p.hdr
  match d.inHead p vc with
  | .error c => .error c
  | .ok x =>
    match d.translate x h.acc h.addr h.bytesAt with
    | .error (2, _) => .error 8
    | .error (4, _) => .error 9
    | .error _ => .error 7
    | .ok ps =>
      if atypeBad h then .error 0xA
      else if d.syncRefused x h.sop h.sync || (h.sop == 3 && 2 < h.ty) || (h.sop == 0 && (h.sync != 0 || h.sval != 0)) then .error 0xB
      else .ok (x, ps)

/-- The refusals that freeze the inbound stream (R626, R684). -/
def freezesStream (code : Nat) : Bool := code == 2 || code == 4 || (6 ≤ code && code ≤ 0xC)

/-- A refused packet: the stream of its job is marked by the first freezing refusal, and an active context freezes
(R628). -/
def Dev.refuse (d : Dev) (h : Hdr) (code : Nat) : Dev :=
  match d.ctxOfJob h.job with
  | none => d
  | some x =>
    if freezesStream code && !d.bit (Reg.FAB_CTX_ID x) 32 then
      let r := Reg.FAB_CTX_ID x
      let d := ((d.setFld r 32 1 1).setFld r 40 8 code).setFld r 48 16 h.src
      if d.freezable x then d.freeze x 7 code 0 0 h.src 0 else d
    else d

/-- Answer a packet with a NACK that carries a refusal code (R626). -/
def Dev.nackTo (d : Dev) (h : Hdr) (code : Nat) : Dev := d.inject (d.respHdr h 0xB 0 code) [] false

/-- Perform an accepted request of context x and answer it (R128, R630, R634, R636). -/
def Dev.inPerform (d : Dev) (p : RPkt) (x : Nat) (ps : List Piece) : Dev :=
  let h := p.hdr
  let sync := fun (d : Dev) => d.syncOp x h.sop h.sync h.sval h.len
  match h.ty with
  | 1 => (sync (d.storeLosing p.lost x ps p.pay)).inject (d.respHdr h 8 0 0) [] false
  | 2 => (sync (d.storeLosing p.lost x ps (p.pay.take 8))).inject (d.respHdr h 8 0 0) [] false
  | 3 =>
    let d := d.hcPieces x ps true
    (sync d).inject (d.respHdr h 9 h.len 0) (d.readPieces ps) (d.piecesPoisoned ps)
  | ty =>
    let (old, d) := d.amoApply x h.aop h.asz ps p.pay
    let d := sync d
    if ty = 4 then d.inject (d.respHdr h 8 0 0) [] false else d.inject (d.respHdr h 0xA 1 0) (leBytes 16 old) false

/-- An inbound request at its destination (R626). -/
def Dev.inRequest (d : Dev) (p : RPkt) (vc : Nat) : Dev :=
  match d.inCheck p vc with
  | .error code => (d.refuse p.hdr code).nackTo p.hdr code
  | .ok (x, ps) => d.inPerform p x ps

/-- Count a response that is discarded (R627, R642). -/
def Dev.late (d : Dev) : Dev := d.addFld Reg.FAB_LATE 0 64 1

/-- The tracker that a response names, in flight with its generation (R627). -/
def Dev.trkOf (d : Dev) (seq : Nat) : Option Nat :=
  let k := seq % 2 ^ 18
  let t := d.trk k
  if t.kind != 0 && t.state = 2 && d.gen k = seq / 2 ^ 18 % 64 then some k else none

/-- A response with data is written at the local destination (R127, R653); lost are the scratchpad words it loses (R510). -/
def Dev.respData (d : Dev) (k : Nat) (t : Tracker) (bs : Bytes) (poison : Bool) (lost : List (Nat × Nat)) : Dev :=
  match d.translate t.ctx .w t.dva bs.length with
  | .error r => d.failTrk k 0x52 (r.2 % 2 ^ 32) r.1
  | .ok ps =>
    if poison then (d.poisonPieces ps).failTrk k 0x55 (t.dva % 2 ^ 32) 0
    else if d.syncRefused t.ctx t.rop t.robj then d.failTrk k 0x53 (0xB + d.node * 2 ^ 16) 0
    else
      let d := d.storeLosing lost t.ctx ps bs
      (d.syncOp t.ctx t.rop t.robj t.rval t.length).setTrk k { t with state := 3 }

/-- An ACK, READ_RESP, AMO_RESP or NACK applied to the device's own tracker (R127, R129, R654): where the timeout is due, it wins
(R655); a master that has faulted discards it (R654); a read or a fetching atomic completes by its data alone, and an answer that its
transfer does not await is discarded (R127, log entry 102). -/
def Dev.ownResponse (d : Dev) (h : Hdr) (pay : Bytes) (poison : Bool) (lost : List (Nat × Nat)) : Dev :=
  match d.trkOf h.seq with
  | none => d.late
  | some k =>
    let t := d.trk k
    if d.trkDue k then d.trkTimeout k
    else if d.masterFaulted t then d.late
    else match h.ty with
    | 8 => if t.rd || t.fetches then d.late else d.setTrk k { t with state := 3 }
    | 9 => if t.rd then d.respData k t pay poison lost else d.late
    | 0xA => if t.fetches then d.respData k t pay poison lost else d.late
    | _ => d.failTrk k 0x53 (h.sval % 256 + h.src * 2 ^ 16) 0

/-- A response for a combined packet is replicated to every merged requester, and its entry frees (R641, R642). -/
def Dev.combineResponse (d : Dev) (p : RPkt) : Dev :=
  let e := p.hdr.seq
  match mapFind d.combine e with
  | none => d.late
  | some ent =>
    let d := { d with combine := mapPut d.combine e none }
    ent.req.foldl
      (fun d r =>
        let h := { p.hdr with dst := r.1, src := d.node, seq := r.2 % 2 ^ 24, proxy := r.2 / 2 ^ 24 % 2 }
        if r.1 = d.node && h.proxy = 0 then d.ownResponse { h with src := p.hdr.src } p.pay p.poison p.lost
        else d.inject h p.pay p.poison) d

/-- The lower of two refusal codes, where there is one. -/
def minCode : Option Nat → Option Nat → Option Nat
  | none, b => b
  | a, none => a
  | some a, some b => some (min a b)

/-- A multicast entry that every branch has answered sends its one answer back toward the packet's arrival port, or applies it to the
source tracker (R646). -/
def Dev.mcEnd (d : Dev) (e : McEnt) : Dev :=
  let h := match e.nack with
    | none => d.respHdr e.hdr 8 0 0
    | some c => d.respHdr e.hdr 0xB 0 c
  match e.port with
  | none => d.ownResponse { h with src := d.node } [] false []
  | some n => { d with rtr := d.rtr ++ [{ hdr := h, pay := [], at_ := d.time.toNat, outp := some n }] }

/-- A multicast entry after an answer from a branch: the answer it sends back when it was the last (R646). Branch 32 is the
local delivery. -/
def Dev.mcAnswer (d : Dev) (src seq branch : Nat) (nack : Option Nat) : Dev :=
  match d.mcast.findIdx? (fun e => e.src == src && e.seq == seq && e.left.contains branch) with
  | none => d.late
  | some i =>
    match d.mcast[i]? with
    | none => d.late
    | some e =>
      let e := { e with left := e.left.erase branch, nack := minCode e.nack nack }
      if e.left ≠ [] then { d with mcast := d.mcast.set i e } else { d with mcast := d.mcast.eraseIdx i }.mcEnd e

/-- The branch of a multicast entry that a packet answers (R646): the one to the node that sends the answer, by whichever port it
comes back (R616), else the one on its arrival port. -/
def Dev.mcBranch (d : Dev) (p : RPkt) : Option Nat :=
  match p.hdr.ty == 8 || p.hdr.ty == 0xB, p.port with
  | true, some n =>
    let open_ := (d.mcast.filter fun e => e.src == p.hdr.dst && e.seq == p.hdr.seq).flatMap McEnt.left
    match open_.find? fun q => decide (q < 32) && d.peerNode q == p.hdr.src with
    | some q => some q
    | none => if open_.contains n then some n else none
  | _, _ => none

/-- The packet answers a branch of a multicast entry of this device. -/
def Dev.isMcAnswer (d : Dev) (p : RPkt) : Bool := (d.mcBranch p).isSome

/-- An inbound response at its destination (R627, R641, R646). -/
def Dev.inResponse (d : Dev) (p : RPkt) (vc : Nat) : Dev :=
  if p.bad || !vcLegal p.hdr.ty vc then d.late
  else if d.isMcAnswer p then
    d.mcAnswer p.hdr.dst p.hdr.seq ((d.mcBranch p).getD 32) (if p.hdr.ty = 0xB then some (p.hdr.sval % 256) else none)
  else if p.hdr.proxy = 1 then d.combineResponse p
  else d.ownResponse p.hdr p.pay p.poison p.lost

/-- A packet that arrives at a port passes the port's own checks (R623, R624). -/
def Dev.portCheck (d : Dev) (p : RPkt) (f : Dev → Dev) : Dev :=
  match p.port with
  | none => d
  | some n =>
    if 32 ≤ n || !d.portTakes n p.hdr then d
    else if !d.pkeyOk n p.hdr then (d.dropCount 0 1).freeRegion p
    else f d

/-- A packet that is taken up as it arrives: its input region is free again (R612, R625). -/
def Dev.takeUp (d : Dev) (p : RPkt) (f : Dev → RPkt → Dev) : Dev := f (d.freeRegion p) { p with inReg := false }

/-- Move a packet that its destination cannot take at once out of its input region (R524, R525, R625, R534). -/
def Dev.park (d : Dev) (p : RPkt) (vc : Nat) : Dev :=
  match d.ctxOfJob p.hdr.job with
  | none => { d with parked := d.parked ++ [{ buf := none, pkt := p }] }
  | some x =>
    if !d.cabOn x vc then { d with parked := d.parked ++ [{ buf := none, pkt := p }] }
    else
      let n := min p.pay.length (cabLargest vc)
      let r := d.cabAlloc x vc n vc
      let d := r.2
      match r.1 with
      | some b => { (d.cabFill b (p.pay.take n)).freeRegion p with parked := d.parked ++ [{ buf := some b, pkt := { p with inReg := false } }] }
      | none => { d with parked := d.parked ++ [{ buf := none, pkt := p }] }

/-- A packet that the device is the destination of, or that it passes on: a request, chunk or response row. here says what
this device does with it. -/
def Dev.receive (d : Dev) (q : Packet) (ty : Nat) (here : Dev → RPkt → Nat → Dev) : Dev :=
  let p := arrive q d.time.toNat
  if p.hdr.ty ≠ ty then d
  else
    d.portCheck p fun d =>
      if d.isMcAnswer p && !p.bad then d.takeUp p fun d p => here d p q.vc
      else if p.hdr.rmode = 3 then { d with rtr := d.rtr ++ [p] }
      else if p.hdr.rmode = 2 || p.hdr.dst = d.node then
        if q.park then d.park p q.vc else d.takeUp p fun d p => here d p q.vc
      else { d with rtr := d.rtr ++ [p] }

/-- WRITE (R607, R630). -/
def execWrite (p : Packet) (s : State) : Host.Outcome State Fault Refusal := s.run (·.receive p 1 Dev.inRequest)
/-- WRITE_SHORT (R607, R630). -/
def execWriteShort (p : Packet) (s : State) : Host.Outcome State Fault Refusal := s.run (·.receive p 2 Dev.inRequest)
/-- READ (R630, R633). -/
def execRead (p : Packet) (s : State) : Host.Outcome State Fault Refusal := s.run (·.receive p 3 Dev.inRequest)
/-- AMO (R630, R636). -/
def execAmo (p : Packet) (s : State) : Host.Outcome State Fault Refusal := s.run (·.receive p 4 Dev.inRequest)
/-- AMO_FETCH (R630, R636). -/
def execAmoFetch (p : Packet) (s : State) : Host.Outcome State Fault Refusal := s.run (·.receive p 5 Dev.inRequest)
/-- ACK (R627, R129). -/
def execAck (p : Packet) (s : State) : Host.Outcome State Fault Refusal := s.run (·.receive p 8 Dev.inResponse)
/-- READ_RESP (R627, R633, R653). -/
def execReadResp (p : Packet) (s : State) : Host.Outcome State Fault Refusal := s.run (·.receive p 9 Dev.inResponse)
/-- AMO_RESP (R627, R637). -/
def execAmoResp (p : Packet) (s : State) : Host.Outcome State Fault Refusal := s.run (·.receive p 0xA Dev.inResponse)
/-- NACK (R627, R654). -/
def execNack (p : Packet) (s : State) : Host.Outcome State Fault Refusal := s.run (·.receive p 0xB Dev.inResponse)

end Sys2Proof.Machine
end

