-- ==== Sys2Proof/Machine/Net.lean ====
section
/-!
DEFINITION. The network ports (R803 to R814): targets and ingest regions, the requests the device sends on a queue pair, and
the inbound RDMA writes it performs.
-/

namespace Sys2Proof.Machine

/-- The 64 bytes of target t in effect (R807). -/
def Dev.tgt (d : Dev) (t : Nat) : Bytes := (upFrom 0 8).flatMap fun k => leBytes 8 (d.reg (Reg.NET_TGT_W t k)).toNat
/-- The 64 bytes of ingest region i in effect (R811). -/
def Dev.ing (d : Dev) (i : Nat) : Bytes := (upFrom 0 8).flatMap fun k => leBytes 8 (d.reg (Reg.NET_ING_W i k)).toNat
/-- A target or region is VALID for context x. -/
def netFor (b : Bytes) (x : Nat) : Bool := bitsOf (atLe b 0 1) 0 1 == 1 && atLe b 1 1 == x
/-- The port of a target or region. -/
def netPort (b : Bytes) : Nat := bitsOf (atLe b 0 1) 1 1
/-- The priority of a target or region (R803). -/
def netPrio (b : Bytes) : Nat := bitsOf (atLe b 2 2) 13 3
/-- Queue pair k: 0 to 15 a target, 16 to 31 an ingest region. -/
def Dev.qp (d : Dev) (k : Nat) : Qp := mapGet (fun _ => {}) d.qps k
/-- Write a queue pair. -/
def Dev.setQp (d : Dev) (k : Nat) (q : Qp) : Dev := { d with qps := mapSet (fun _ => {}) d.qps k q }

/-! ### Commits -/

/-- Words 0 to 7 that a commit with w as its word 7 makes take effect, as bytes. -/
def Dev.staged8 (d : Dev) (base : Nat) (w : Word) : Bytes :=
  ((upFrom 0 7).flatMap fun k => leBytes 8 (mapGet d.reg d.netStage (base + 8 * k)).toNat) ++ leBytes 8 w.toNat

/-- A reserved or must-be-zero bit of a target is set (R807). -/
def tgtReserved (b : Bytes) : Bool :=
  bitsOf (atLe b 0 1) 4 4 != 0 || decide (7 < atLe b 1 1) || bitsOf (atLe b 2 2) 12 1 != 0 || atLe b 7 1 != 0 ||
    (bitsOf (atLe b 0 1) 2 1 == 0 && !zeroAt b 0xC 12) || !zeroAt b 0x1E 2 || atLe b 0x27 1 != 0 || !zeroAt b 0x38 8

/-- A reserved or must-be-zero bit of an ingest region is set (R811). -/
def ingReserved (b : Bytes) : Bool :=
  bitsOf (atLe b 0 1) 3 5 != 0 || decide (7 < atLe b 1 1) || bitsOf (atLe b 2 2) 12 1 != 0 || atLe b 0x1B 1 != 0 ||
    atLe b 0x1F 1 != 0 || (bitsOf (atLe b 0 1) 2 1 == 0 && !zeroAt b 0x24 12) || !zeroAt b 0x36 10

/-- A snapshot, restore or journal export uses target t (R808). -/
def Dev.tgtBusy (d : Dev) (t : Nat) : Bool :=
  d.snaps.any (fun e => atLe e.2.body 0x10 1 == t) || d.restore.any (fun r => r.tgt == t) || !(d.qp t).msgs.isEmpty

/-- An inbound write of ingest region i is in progress: it waits for its Cabinet buffer (R534, R811). -/
def Dev.ingBusy (d : Dev) (i : Nat) : Bool := d.netWait.any fun w => w.1.qp == 0x20 + i

/-- Make eight words take effect and reset the queue pair (R805). -/
def Dev.commitWords (d : Dev) (base k psn : Nat) (b : Bytes) : Dev :=
  ((upFrom 0 8).foldl (fun e i => e.setReg (base + 8 * i) (BitVec.ofNat 64 (atLe b (8 * i) 8))) d).setQp k { psn := psn % 2 ^ 24 }

/-- A write of word k of a target or ingest region: words 0 to 6 are staged, word 7 commits (R807, R808, R811). -/
def Dev.wNetWord (d : Dev) (src : Master) (off : Nat) (w : Word) : Dev :=
  d.guard src off fun d =>
    let base := off - off % 0x40
    if off % 0x40 ≠ 0x38 then { d with netStage := mapPut d.netStage off (some w) }
    else
      let b := d.staged8 base w
      if base < Reg.NET_ING_W 0 0 then
        let t := (base - Reg.NET_TGT_W 0 0) / 0x40
        if d.tgtBusy t || tgtReserved b then d.logDiscard off else d.commitWords base t (atLe b 0x24 3) b
      else
        let i := (base - Reg.NET_ING_W 0 0) / 0x40
        if d.ingBusy i || ingReserved b then d.logDiscard off else d.commitWords base (16 + i) (atLe b 0x1C 3) b

/-- NET_TGT_COMMIT (R807, R808). -/
def execNetTgtCommit (src : Master) (t : Nat) (w : Word) (s : State) : Host.Outcome State Fault Refusal :=
  s.run fun d => if t < 16 then d.wNetWord src (Reg.NET_TGT_W t 7) w else d
/-- NET_ING_COMMIT (R811). -/
def execNetIngCommit (src : Master) (i : Nat) (w : Word) (s : State) : Host.Outcome State Fault Refusal :=
  s.run fun d => if i < 16 then d.wNetWord src (Reg.NET_ING_W i 7) w else d

/-! ### Requests of the device -/

/-- The network ports run: domain 23 is on and the port's link is up. -/
def Dev.netUp (d : Dev) (p : Nat) : Bool := d.domOn 23 && d.bit (Reg.NET_P_STATUS p) 0

/-- One request of target t leaves. -/
def Dev.netEmit (d : Dev) (b : Bytes) (m : NetMsg) : Dev :=
  d.emit (.rdma (netPort b) (atLe b 4 3) (if m.kind = 3 then .read else .write) m.psn (atLe b 0x20 4) m.addr
    (if m.kind = 3 then leBytes 4 m.len else m.data))

/-- The requests of target t that have not left leave in order, while the link is up and its priority not paused (R803). -/
def Dev.netPump (d : Dev) (t : Nat) : Dev :=
  let b := d.tgt t
  if !d.netUp (netPort b) || mapGet (fun _ => false) d.netPause (netPort b * 8 + netPrio b) then d
  else
    let q := d.qp t
    let d := (q.msgs.filter fun m => !m.sent).foldl (fun e m => e.netEmit b m) d
    d.setQp t { q with msgs := q.msgs.map fun m => if m.sent then m else { m with sent := true, at_ := d.time.toNat } }

/-- Send a request of a kind at a byte offset of target t; none where it would reach beyond LEN (R809). trk and buf are what a
snapshot's request holds. -/
def Dev.netSend (d : Dev) (t kind x off : Nat) (data : Bytes) (len : Nat) (trk : Option Nat := none) (buf : Option Buf := none) :
    Option Dev :=
  let b := d.tgt t
  let n := if kind = 3 then len else data.length
  if !netFor b x || atLe b 0x30 8 < off + n then none
  else
    let q := d.qp t
    let pkts := max 1 (ceilDiv n 4096)
    let m : NetMsg :=
      { kind := kind, ctx := x, addr := (atLe b 0x28 8 + off) % 2 ^ 64, data := data, len := len, psn := q.psn, pkts := pkts
        trk := trk, buf := buf }
    some ((d.setQp t { q with psn := (q.psn + pkts) % 2 ^ 24, msgs := q.msgs ++ [m] }).netPump t)

/-- An acknowledgement of PSN a covers a request whose last PSN is l (RoCEv2: PSNs count modulo 2^24). -/
def psnCovers (a l : Nat) : Bool := decide ((a + 2 ^ 24 - l) % 2 ^ 24 < 2 ^ 23)

/-- The writes at the head of a queue that an acknowledgement covers. -/
def ackedBy (psn : Nat) : List NetMsg → List NetMsg
  | [] => []
  | m :: t => if m.sent && m.kind != 3 && psnCovers psn (m.psn + m.pkts - 1) then m :: ackedBy psn t else []

/-- A request fails: a snapshot or restore ends, an export stops (R785, R789, R809). -/
def Dev.netFail (d : Dev) (t : Nat) (m : NetMsg) : Dev :=
  let d := d.dropMsgs fun k => k.ctx == m.ctx && (k.kind == m.kind || (decide (k.kind < 2) && decide (m.kind < 2)))
  match m.kind with
  | 2 => d
  | 3 => { d with restore := d.restore.map fun r => if r.tgt = t && r.out.isNone then { r with out := some (2, 0) } else r }
  | _ => d.snapAbort m.ctx 3

/-- An ACK timeout of 8 ms at the head of a queue: go-back-N, or the end of the transfer after 7 retries (R804). -/
def Dev.netTimeout (d : Dev) (t : Nat) : Dev :=
  let q := d.qp t
  match q.msgs with
  | [] => d
  | m :: rest =>
    if !m.sent || d.time.toNat < m.at_ + 12800000 then d
    else if 7 ≤ m.tries then d.netFail t m
    else (d.setQp t { q with msgs := ({ m with tries := m.tries + 1 } :: rest).map fun k => { k with sent := false } }).netPump t

/-- RDMA_ACK_TIMEOUT (R804). -/
def execRdmaAckTimeout (t : Nat) (s : State) : Host.Outcome State Fault Refusal := s.run fun d => if t < 16 then d.netTimeout t else d

/-- A NAK refuses the oldest request of a target that has left (R785, R789). -/
def Dev.netNak (d : Dev) (t : Nat) : Dev :=
  match (d.qp t).msgs with
  | m :: _ => if m.sent then d.netFail t m else d
  | [] => d

/-- RDMA_NAK_IN (R785). -/
def execRdmaNakIn (t : Nat) (s : State) : Host.Outcome State Fault Refusal := s.run fun d => if t < 16 then d.netNak t else d

/-- NETWORK_LINK_UP (R803): mode 0 800 GbE, 1 400 GbE. -/
def execNetworkLinkUp (p mode : Nat) (s : State) : Host.Outcome State Fault Refusal :=
  s.run fun d =>
    if p < 2 && d.domOn 23 then
      let d := (d.setFld (Reg.NET_P_STATUS p) 0 2 (1 + mode % 2 * 2))
      ((upFrom 0 16).filter fun t => netPort (d.tgt t) == p).foldl (fun e t => e.netPump t) d
    else d

/-- NETWORK_LINK_DOWN (R803). -/
def execNetworkLinkDown (p : Nat) (s : State) : Host.Outcome State Fault Refusal :=
  s.run fun d => if p < 2 && d.domOn 23 then d.setBit (Reg.NET_P_STATUS p) 0 false else d

/-- PRIORITY_FLOW_CONTROL_FRAME (R803): transmission on a priority of a port pauses or resumes. -/
def execPriorityFlowControlFrame (p prio : Nat) (pause : Bool) (s : State) : Host.Outcome State Fault Refusal :=
  s.run fun d =>
    if p < 2 && prio < 8 && d.netUp p then
      let d := { d with netPause := mapSet (fun _ => false) d.netPause (p * 8 + prio) pause }
      ((upFrom 0 16).filter fun t => netPort (d.tgt t) == p && netPrio (d.tgt t) == prio).foldl (fun e t => e.netPump t) d
    else d

/-- CONGESTION_NOTIFICATION_PACKET (R804): the rate of a queue pair, given by its local number, is lowered. -/
def execCongestionNotificationPacket (qp : Nat) (s : State) : Host.Outcome State Fault Refusal :=
  s.run fun d =>
    if 0x10 ≤ qp && qp < 0x30 && d.domOn 23 then d.setQp (qp - 0x10) { d.qp (qp - 0x10) with slow := (d.qp (qp - 0x10)).slow + 1 }
    else d

/-! ### Inbound requests -/

/-- The ingest region a request names, where its queue pair exists and its partition key is right (R805). -/
def Dev.ingOf (d : Dev) (r : Rdma) : Option Nat :=
  if 0x20 ≤ r.qp && r.qp < 0x30 && r.pkey = 0xFFFF && d.netUp r.port && netPort (d.ing (r.qp - 0x20)) = r.port then some (r.qp - 0x20)
  else none

/-- Answer an inbound request. -/
def Dev.netAnswer (d : Dev) (b : Bytes) (op : RdmaOp) (psn : Nat) : Dev := d.emit (.rdma (netPort b) (atLe b 0x18 3) op psn 0 0 [])

/-- States in which a region's context takes ingest (R812). -/
def CtxState.takesIngest : CtxState → Bool
  | .loaded | .armed | .waking | .running | .draining | .closing | .stopped => true
  | _ => false

/-- The sync operation of immediate data: operation and object, or none where it breaks R813. -/
def Dev.immOk (d : Dev) (x imm n : Nat) : Bool :=
  let op := bitsOf imm 16 4
  (op == 1 || (op == 3 && n % 16 == 0)) && bitsOf imm 20 12 == 0 && d.owns x (imm % 65536)

/-- An inbound RDMA WRITE, with immediate data where imm is some (R805, R812, R813). One whose allocation returns WAIT stays at the port,
and those behind it on its queue pair with it (R534). -/
def Dev.ingest (d : Dev) (r : Rdma) (imm : Option Nat) : Dev :=
  match d.ingOf r with
  | none => d
  | some i =>
    let b := d.ing i
    let x := atLe b 1 1
    let n := r.data.length
    let base := atLe b 8 8
    let q := d.qp (16 + i)
    if d.ingBusy i then { d with netWait := d.netWait ++ [(r, imm)] }
    else if r.psn ≠ q.psn then d
    else
      let nak := fun (d : Dev) => (d.addFld (Reg.NET_P_STATUS r.port) 32 32 1).netAnswer b .nakAccess r.psn
      let fits := bitsOf (atLe b 0 1) 0 1 == 1 && r.rkey == atLe b 4 4 && decide (base ≤ r.addr) &&
        decide (r.addr + n ≤ base + atLe b 0x10 8)
      if !fits || !(d.ctx x).state.takesIngest then nak d
      else
        match d.translate x .iw r.addr n with
        | .error _ => nak d
        | .ok ps =>
          if !imm.all (fun v => d.immOk x v n) then nak d
          else if !d.cabOn x 11 then d.netAnswer b .nakRnr r.psn
          else
            let waits := (d.cabPick x 11 (min (max n 1) 4096)).isNone
            match d.cabAlloc x 11 (min (max n 1) 4096) 11 with
            | (none, d) => if waits then { d with netWait := d.netWait ++ [(r, imm)] } else d
            | (some k, d) =>
              let d := (d.writeLosing r.lost x ps r.data).cabRelease k 11
              let d := match imm with
                | some v => d.syncOp x (bitsOf v 16 4) (v % 65536) 0 (n / 16)
                | none => d
              (d.setQp (16 + i) { q with psn := (q.psn + max 1 (ceilDiv n 4096)) % 2 ^ 24 }).netAnswer b .ack r.psn

/-- The inbound writes that wait for a buffer are taken up again, in the order they came (R534). -/
def Dev.ingestAgain (d : Dev) : Dev := d.netWait.foldl (fun e w => e.ingest w.1 w.2) { d with netWait := [] }

/-- RDMA_WRITE_IN (R812). -/
def execRdmaWriteIn (r : Rdma) (s : State) : Host.Outcome State Fault Refusal := s.run (·.ingest r none)
/-- RDMA_WRITE_IMM_IN (R813). -/
def execRdmaWriteImmIn (r : Rdma) (imm : Nat) (s : State) : Host.Outcome State Fault Refusal := s.run (·.ingest r (some imm))

/-- INVALID_OPCODE_IN (R804): an Invalid Request NAK. -/
def execInvalidOpcodeIn (r : Rdma) (s : State) : Host.Outcome State Fault Refusal :=
  s.run fun d =>
    match d.ingOf r with
    | some i => d.netAnswer (d.ing i) .nakInvalid r.psn
    | none =>
      let b := d.tgt (r.qp - 0x10)
      if 0x10 ≤ r.qp && r.qp < 0x20 && r.pkey = 0xFFFF && d.netUp r.port && netPort b = r.port then
        d.emit (.rdma (netPort b) (atLe b 4 3) .nakInvalid r.psn 0 0 [])
      else d

end Sys2Proof.Machine
end

