-- ==== Sys2Proof/Machine/Sha.lean ====
section
/-!
DEFINITION. The hash and signature standards that the spec names and does not restate (R784, R835 to R845): SHA-256, SHA-384 and
the check of an ECDSA P-384 signature. PRESUMED from FIPS 180-4 and FIPS 186-5 (log entry 11).
-/

namespace Sys2Proof.Machine

/-! ### SHA-2 -/

/-- The round constants, 64 bits each; SHA-256 takes the upper halves of the first 64. -/
def shaK : List Nat :=
  [0x428A2F98D728AE22, 0x7137449123EF65CD, 0xB5C0FBCFEC4D3B2F, 0xE9B5DBA58189DBBC, 0x3956C25BF348B538,
  0x59F111F1B605D019, 0x923F82A4AF194F9B, 0xAB1C5ED5DA6D8118, 0xD807AA98A3030242, 0x12835B0145706FBE,
  0x243185BE4EE4B28C, 0x550C7DC3D5FFB4E2, 0x72BE5D74F27B896F, 0x80DEB1FE3B1696B1, 0x9BDC06A725C71235,
  0xC19BF174CF692694, 0xE49B69C19EF14AD2, 0xEFBE4786384F25E3, 0x0FC19DC68B8CD5B5, 0x240CA1CC77AC9C65,
  0x2DE92C6F592B0275, 0x4A7484AA6EA6E483, 0x5CB0A9DCBD41FBD4, 0x76F988DA831153B5, 0x983E5152EE66DFAB,
  0xA831C66D2DB43210, 0xB00327C898FB213F, 0xBF597FC7BEEF0EE4, 0xC6E00BF33DA88FC2, 0xD5A79147930AA725,
  0x06CA6351E003826F, 0x142929670A0E6E70, 0x27B70A8546D22FFC, 0x2E1B21385C26C926, 0x4D2C6DFC5AC42AED,
  0x53380D139D95B3DF, 0x650A73548BAF63DE, 0x766A0ABB3C77B2A8, 0x81C2C92E47EDAEE6, 0x92722C851482353B] ++
  [0xA2BFE8A14CF10364, 0xA81A664BBC423001, 0xC24B8B70D0F89791, 0xC76C51A30654BE30, 0xD192E819D6EF5218,
  0xD69906245565A910, 0xF40E35855771202A, 0x106AA07032BBD1B8, 0x19A4C116B8D2D0C8, 0x1E376C085141AB53,
  0x2748774CDF8EEB99, 0x34B0BCB5E19B48A8, 0x391C0CB3C5C95A63, 0x4ED8AA4AE3418ACB, 0x5B9CCA4F7763E373,
  0x682E6FF3D6B2B8A3, 0x748F82EE5DEFB2FC, 0x78A5636F43172F60, 0x84C87814A1F0AB72, 0x8CC702081A6439EC,
  0x90BEFFFA23631E28, 0xA4506CEBDE82BDE9, 0xBEF9A3F7B2C67915, 0xC67178F2E372532B, 0xCA273ECEEA26619C,
  0xD186B8C721C0C207, 0xEADA7DD6CDE0EB1E, 0xF57D4F7FEE6ED178, 0x06F067AA72176FBA, 0x0A637DC5A2C898A6,
  0x113F9804BEF90DAE, 0x1B710B35131C471B, 0x28DB77F523047D84, 0x32CAAB7B40C72493, 0x3C9EBE0A15C9BEBC,
  0x431D67C49C100D4C, 0x4CC5D4BECB3E42B6, 0x597F299CFC657E2A, 0x5FCB6FAB3AD6FAEC, 0x6C44198C4A475817]

/-- Initial hash of SHA-256. -/
def sha256H : List Nat := [0x6A09E667, 0xBB67AE85, 0x3C6EF372, 0xA54FF53A, 0x510E527F, 0x9B05688C, 0x1F83D9AB, 0x5BE0CD19]
/-- Initial hash of SHA-384. -/
def sha384H : List Nat :=
  [0xCBBB9D5DC1059ED8, 0x629A292A367CD507, 0x9159015A3070DD17, 0x152FECD8F70E5939, 0x67332667FFC00B31,
  0x8EB44A8768581511, 0xDB0C2E0D64F98FA7, 0x47B5481DBEFA4FA4]

/-- What tells one member of the family from another: word bits, rounds, and the shift amounts of its four functions. -/
structure ShaKind where
  w : Nat
  rounds : Nat
  big0 : Nat × Nat × Nat
  big1 : Nat × Nat × Nat
  small0 : Nat × Nat × Nat
  small1 : Nat × Nat × Nat
  deriving DecidableEq, Repr

/-- SHA-256. -/
def kind256 : ShaKind :=
  { w := 32, rounds := 64, big0 := (2, 13, 22), big1 := (6, 11, 25), small0 := (7, 18, 3), small1 := (17, 19, 10) }
/-- SHA-384. -/
def kind384 : ShaKind :=
  { w := 64, rounds := 80, big0 := (28, 34, 39), big1 := (14, 18, 41), small0 := (1, 8, 7), small1 := (19, 61, 6) }

/-- Rotate a word right. -/
def rotr (w n x : Nat) : Nat := (x >>> n ||| x <<< (w - n)) % 2 ^ w
/-- Sigma with three rotations. -/
def shaBig (w : Nat) (r : Nat × Nat × Nat) (x : Nat) : Nat := rotr w r.1 x ^^^ rotr w r.2.1 x ^^^ rotr w r.2.2 x
/-- Sigma with two rotations and a shift. -/
def shaSmall (w : Nat) (r : Nat × Nat × Nat) (x : Nat) : Nat := rotr w r.1 x ^^^ rotr w r.2.1 x ^^^ x >>> r.2.2

/-- The message schedule of n further words after a window of 16. -/
def shaSchedule (k : ShaKind) : Nat → List Nat → List Nat
  | 0, win => win
  | n + 1, win =>
    let x := (shaSmall k.w k.small1 (win.getD 14 0) + win.getD 9 0 + shaSmall k.w k.small0 (win.getD 1 0) + win.getD 0 0) %
      2 ^ k.w
    win.take 1 ++ shaSchedule k n (win.drop 1 ++ [x])

/-- One round over the eight working words, with a constant and a schedule word. -/
def shaRound (k : ShaKind) (v : List Nat) (cw : Nat × Nat) : List Nat :=
  match v with
  | [a, b, c, d, e, f, g, h] =>
    let m := 2 ^ k.w
    let ch := (e &&& f) ^^^ ((m - 1 - e) &&& g)
    let maj := (a &&& b) ^^^ (a &&& c) ^^^ (b &&& c)
    let t1 := h + shaBig k.w k.big1 e + ch + cw.1 + cw.2
    let t2 := shaBig k.w k.big0 a + maj
    [(t1 + t2) % m, a, b, c, (d + t1) % m, e, f, g]
  | _ => v

/-- Compress one block into the hash words. -/
def shaBlock (k : ShaKind) (hs : List Nat) (block : Bytes) : List Nat :=
  let n := k.w / 8
  let win := (upFrom 0 16).map fun i => beNat ((block.drop (i * n)).take n)
  let ks := (shaK.take k.rounds).map fun c => c >>> (64 - k.w)
  let out := (ks.zip (shaSchedule k (k.rounds - 16) win)).foldl (shaRound k) hs
  (hs.zip out).map fun p => (p.1 + p.2) % 2 ^ k.w

/-- Compress n whole blocks. -/
def shaBlocks (k : ShaKind) : Nat → List Nat → Bytes → List Nat
  | 0, hs, _ => hs
  | n + 1, hs, bs => shaBlocks k n (shaBlock k hs (bs.take (2 * k.w))) (bs.drop (2 * k.w))

/-- A message padded to whole blocks of 2 w bytes, its bit length in the last w / 4. -/
def shaPad (k : ShaKind) (bs : Bytes) : Bytes :=
  let blk := 2 * k.w
  let tail := k.w / 4
  let z := (2 * blk - (bs.length + 1 + tail) % blk) % blk
  bs ++ [0x80] ++ List.replicate z 0 ++ beBytes tail (8 * bs.length)

/-- A hash of the family, as its leading words. -/
def shaHash (k : ShaKind) (h0 : List Nat) (words : Nat) (bs : Bytes) : Bytes :=
  let p := shaPad k bs
  ((shaBlocks k (p.length / (2 * k.w)) h0 p).take words).flatMap (beBytes (k.w / 8))

/-- SHA-256 (R784). -/
def sha256 (bs : Bytes) : Bytes := shaHash kind256 sha256H 8 bs
/-- SHA-384 (R836, R841, R842). -/
def sha384 (bs : Bytes) : Bytes := shaHash kind384 sha384H 6 bs

/-! ### ECDSA P-384 -/

/-- The field prime. -/
def p384 : Nat := 2 ^ 384 - 2 ^ 128 - 2 ^ 96 + 2 ^ 32 - 1
/-- The order of the base point. -/
def n384 : Nat := 0xFFFFFFFFFFFFFFFFFFFFFFFFFFFFFFFFFFFFFFFFFFFFFFFFC7634D81F4372DDF581A0DB248B0A77AECEC196ACCC52973
/-- The curve's b. -/
def b384 : Nat := 0xB3312FA7E23EE7E4988E056BE3F82D19181D9C6EFE8141120314088F5013875AC656398D8A2ED19D2A85C8EDD3EC2AEF
/-- The base point. -/
def g384 : Nat × Nat :=
  (0xAA87CA22BE8B05378EB1C71EF320AD746E1D3B628BA79B9859F741E082542A385502F25DBF55296C3A545E3872760AB7,
   0x3617DE4A96262C6F5D9E98BF9292DC29F8F41DBD289A147CE9DA3113B5F0B8C00A60B1CE1D7E819D7A431D7C90EA0E5F)

/-- A power modulo m; fuel is the bits of the exponent. -/
def powMod (m : Nat) : Nat → Nat → Nat → Nat
  | 0, _, _ => 1 % m
  | n + 1, a, e =>
    let r := powMod m n (a * a % m) (e / 2)
    if e % 2 = 1 then r * a % m else r

/-- The inverse modulo a prime. -/
def invMod (m a : Nat) : Nat := powMod m 384 (a % m) (m - 2)

/-- A point of the curve as (X, Y, Z) with x = X / Z^2 and y = Y / Z^3; Z is 0 at infinity. -/
abbrev EcPoint := Nat × Nat × Nat

/-- The double of a point. -/
def ecDouble (p : EcPoint) : EcPoint :=
  let m := p384
  let (x, y, z) := p
  let zz := z * z % m
  let yy := y * y % m
  let xy := x * yy % m
  let a := 3 * ((x + m - zz) % m) * (x + zz) % m
  let x3 := (a * a + 8 * m - 8 * xy) % m
  (x3, (a * (4 * xy + m - x3) + 8 * m - 8 * (yy * yy % m)) % m, 2 * y * z % m)

/-- Sum of two points. -/
def ecAdd (p q : EcPoint) : EcPoint :=
  let m := p384
  let (x1, y1, z1) := p
  let (x2, y2, z2) := q
  if z1 = 0 then q
  else if z2 = 0 then p
  else
    let zz1 := z1 * z1 % m
    let zz2 := z2 * z2 % m
    let u := x1 * zz2 % m
    let s := y1 * z2 * zz2 % m
    let h := (x2 * zz1 + m - u) % m
    let r := (y2 * z1 * zz1 + m - s) % m
    if h = 0 then if r = 0 then ecDouble p else (1, 1, 0)
    else
      let hh := h * h % m
      let uh := u * hh % m
      let x3 := (r * r + 3 * m - h * hh % m - 2 * uh) % m
      (x3, (r * (uh + m - x3) + m - s * (h * hh) % m) % m, h * z1 * z2 % m)

/-- A multiple of a point; fuel is the bits of the multiplier. -/
def ecMul : Nat → Nat → EcPoint → EcPoint
  | 0, _, _ => (1, 1, 0)
  | n + 1, k, p =>
    let r := ecMul n (k / 2) (ecDouble p)
    if k % 2 = 1 then ecAdd r p else r

/-- A public key as an uncompressed point of the curve. -/
def ecKey (key : Bytes) : Option (Nat × Nat) :=
  let x := beNat ((key.drop 1).take 48)
  let y := beNat ((key.drop 49).take 48)
  if key.length = 97 && key.head? == some 4 && decide (x < p384) && decide (y < p384) &&
      y * y % p384 = (x * x * x + x * (p384 - 3) + b384) % p384 then some (x, y) else none

/-- A signature, r then s big-endian, verifies under a key for a SHA-384 digest (R836). -/
def ecdsaOk (key sig digest : Bytes) : Bool :=
  let r := beNat (sig.take 48)
  let s := beNat ((sig.drop 48).take 48)
  match ecKey key with
  | none => false
  | some q =>
    if r = 0 || s = 0 || n384 ≤ r || n384 ≤ s then false
    else
      let w := invMod n384 s
      let u1 := beNat digest * w % n384
      let u2 := r * w % n384
      let (x, _, z) := ecAdd (ecMul 384 u1 (g384.1, g384.2, 1)) (ecMul 384 u2 (q.1, q.2, 1))
      z != 0 && x * invMod p384 (z * z) % p384 % n384 == r

end Sys2Proof.Machine
end

