-- ==== Sys2Proof/Machine/Float.lean ====
section
/-!
DEFINITION. Number formats (R337 to R341), exact values, rounding (R468, R474, R476), the OIS96 grid (R319, R480), IEEE 754
arithmetic on encodings, and CBG-64 (R710).
-/

namespace Sys2Proof.Machine

/-- A value of a format: NaN, an infinity, or (-1)^neg × m × 2^e exactly; m = 0 is a signed zero. -/
inductive FVal where
  | nan
  | inf (neg : Bool)
  | fin (neg : Bool) (m : Nat) (e : Int)
  deriving DecidableEq, Repr

/-- A binary floating-point format: significand bits with the hidden one, exponent of the smallest normal, encoding of
the largest finite magnitude, the encoding of +∞ or none, and of the canonical NaN (R338, R349, R468). -/
structure FFmt where
  p : Nat
  emin : Int
  top : Nat
  infBits : Option Nat
  nanBits : Nat
  width : Nat
  deriving DecidableEq, Repr

/-- BF16. -/
def fBF16 : FFmt := { p := 8, emin := -126, top := 0x7F7F, infBits := some 0x7F80, nanBits := 0x7FC0, width := 16 }
/-- FP16. -/
def fFP16 : FFmt := { p := 11, emin := -14, top := 0x7BFF, infBits := some 0x7C00, nanBits := 0x7E00, width := 16 }
/-- FP32. -/
def fFP32 : FFmt :=
  { p := 24, emin := -126, top := 0x7F7FFFFF, infBits := some 0x7F800000, nanBits := 0x7FC00000, width := 32 }
/-- FP64. -/
def fFP64 : FFmt :=
  { p := 53, emin := -1022, top := 0x7FEFFFFFFFFFFFFF, infBits := some 0x7FF0000000000000,
    nanBits := 0x7FF8000000000000, width := 64 }
/-- FP8 E4M3 (R338): no infinity, NaN S.1111.111. -/
def fE4M3 : FFmt := { p := 4, emin := -6, top := 0x7E, infBits := none, nanBits := 0x7F, width := 8 }
/-- FP8 E5M2. -/
def fE5M2 : FFmt := { p := 3, emin := -14, top := 0x7B, infBits := some 0x7C, nanBits := 0x7F, width := 8 }
/-- E2M3: no infinity, no NaN. -/
def fE2M3 : FFmt := { p := 4, emin := 0, top := 0x1F, infBits := none, nanBits := 0, width := 6 }
/-- E3M2. -/
def fE3M2 : FFmt := { p := 3, emin := -2, top := 0x1F, infBits := none, nanBits := 0, width := 6 }
/-- E2M1. -/
def fE2M1 : FFmt := { p := 2, emin := 0, top := 0x7, infBits := none, nanBits := 0, width := 4 }

/-- The format of a code of R337 whose elements are floating-point; for an MX code, that of its elements. -/
def floatFmt : Nat → Option FFmt
  | 0 => some fBF16 | 1 => some fFP16 | 2 => some fFP32 | 3 => some fFP64 | 4 => some fE4M3 | 5 => some fE5M2
  | 6 => some fE4M3 | 7 => some fE5M2 | 8 => some fE2M3 | 9 => some fE3M2 | 0xA => some fE2M1 | _ => none

/-- A format without NaN: E2M3, E3M2, E2M1. -/
def FFmt.noNan (f : FFmt) : Bool := f.width < 8

/-- The value an encoding stands for (R338). -/
def FFmt.dec (f : FFmt) (b : Nat) : FVal :=
  let neg := bitsOf b (f.width - 1) 1 == 1
  let mag := b % 2 ^ (f.width - 1)
  if f.infBits = some mag then .inf neg
  else if f.top < mag then .nan
  else
    let ex := mag / 2 ^ (f.p - 1)
    let fr := mag % 2 ^ (f.p - 1)
    if ex = 0 then .fin neg fr (f.emin - ((f.p : Int) - 1))
    else .fin neg (fr + 2 ^ (f.p - 1)) (f.emin - ((f.p : Int) - 1) + ((ex : Int) - 1))

/-- A sign bit over a magnitude. -/
def FFmt.withSign (f : FFmt) (neg : Bool) (mag : Nat) : Nat := mag + neg.toNat * 2 ^ (f.width - 1)

/-- Rounding modes of R474; SR carries its draw (R476). -/
inductive Round where
  | rne | rtz | ru | rd
  | sr (r : Nat)
  deriving DecidableEq, Repr

/-- Round the magnitude num / 2^k to an integer (R474, R476). -/
def roundMag (rm : Round) (neg : Bool) (num k : Nat) : Nat :=
  let t := num / 2 ^ k
  let rem := num % 2 ^ k
  let up :=
    match rm with
    | .rne => decide (2 ^ k < 2 * rem) || (2 * rem == 2 ^ k && t % 2 == 1)
    | .rtz => false
    | .ru => rem != 0 && !neg
    | .rd => rem != 0 && neg
    | .sr r => decide (2 ^ 32 ≤ rem * 2 ^ 32 / 2 ^ k + r)
  if rem != 0 && up then t + 1 else t

/-- m × 2^e rounded to an integral multiple of 2^q, as that multiple. -/
def roundAt (rm : Round) (neg : Bool) (m : Nat) (e q : Int) : Nat :=
  if q ≤ e then m * 2 ^ (e - q).toNat else roundMag rm neg m (q - e).toNat

/-- The magnitude encoding of m × 2^e rounded, without regard to overflow. -/
def FFmt.roundBits (f : FFmt) (rm : Round) (neg : Bool) (m : Nat) (e : Int) : Nat :=
  if m = 0 then 0
  else
    let lo : Int := f.emin - ((f.p : Int) - 1)
    let q := max lo ((Nat.log2 m : Int) + e - ((f.p : Int) - 1))
    (q - lo).toNat * 2 ^ (f.p - 1) + roundAt rm neg m e q

/-- A finite result that leaves the range becomes an infinity, in a format with one, under a rounding mode. -/
def overflowsToInf (rm : Round) (neg : Bool) : Bool :=
  match rm with
  | .rne => true
  | .rtz => false
  | .ru => !neg
  | .rd => neg
  | .sr _ => true

/-- Encode a value (R468, R480): the bits, and whether a result was saturated, or a NaN or ∞ replaced, in a format without
infinity. Under SR a magnitude past the largest finite value whose rounding down stays above it overflows too. -/
def FFmt.enc (f : FFmt) (rm : Round) (v : FVal) : Nat × Bool :=
  match v with
  | .nan => (f.nanBits, f.infBits.isNone)
  | .inf neg =>
    match f.infBits with
    | some b => (f.withSign neg b, false)
    | none => (f.withSign neg f.top, true)
  | .fin neg m e =>
    let b := f.roundBits rm neg m e
    if b ≤ f.top then (f.withSign neg b, false)
    else
      match f.infBits with
      | some i => (f.withSign neg (if overflowsToInf rm neg then i else f.top), false)
      | none => (f.withSign neg f.top, true)

/-- Encode a value with round-to-nearest-even. -/
def FFmt.rne (f : FFmt) (v : FVal) : Nat := (f.enc .rne v).1

/-! ### Exact arithmetic -/

/-- The signed significand of a finite value at exponent q, which is at most its own. -/
def signedAt (neg : Bool) (m : Nat) (e q : Int) : Int :=
  let n : Int := ((m * 2 ^ (e - q).toNat : Nat) : Int)
  if neg then -n else n

/-- A signed multiple of 2^e as a value; zero is positive unless negZero. -/
def ofSigned (n : Int) (e : Int) (negZero : Bool) : FVal :=
  if n = 0 then .fin negZero 0 e else .fin (decide (n < 0)) n.natAbs e

/-- The exact sum; an exact zero of operands that are not both −0 takes the sign that the rounding mode gives it. -/
def FVal.add (rdZero : Bool) (a b : FVal) : FVal :=
  match a, b with
  | .nan, _ => .nan
  | _, .nan => .nan
  | .inf x, .inf y => if x = y then .inf x else .nan
  | .inf x, _ => .inf x
  | _, .inf y => .inf y
  | .fin x m e, .fin y n f =>
    if m = 0 && n = 0 && x = y then .fin x 0 e
    else if m = 0 && n != 0 then .fin y n f
    else if n = 0 && m != 0 then .fin x m e
    else
      let q := min e f
      ofSigned (signedAt x m e q + signedAt y n f q) q rdZero

/-- The negated value. -/
def FVal.neg : FVal → FVal
  | .nan => .nan
  | .inf x => .inf (!x)
  | .fin x m e => .fin (!x) m e

/-- The exact product (R349: ∞ × 0 is NaN). -/
def FVal.mul (a b : FVal) : FVal :=
  match a, b with
  | .nan, _ => .nan
  | _, .nan => .nan
  | .inf x, .inf y => .inf (xor x y)
  | .inf x, .fin y n _ => if n = 0 then .nan else .inf (xor x y)
  | .fin x m _, .inf y => if m = 0 then .nan else .inf (xor x y)
  | .fin x m e, .fin y n f => .fin (xor x y) (m * n) (e + f)

/-- The quotient to 192 bits with a sticky bit below them: every rounding to a format is that of the exact quotient. -/
def FVal.div (a b : FVal) : FVal :=
  match a, b with
  | .nan, _ => .nan
  | _, .nan => .nan
  | .inf _, .inf _ => .nan
  | .inf x, .fin y _ _ => .inf (xor x y)
  | .fin x _ e, .inf y => .fin (xor x y) 0 e
  | .fin x m e, .fin y n f =>
    if n = 0 then (if m = 0 then .nan else .inf (xor x y))
    else
      let q := m * 2 ^ 192 / n
      let st := if m * 2 ^ 192 % n = 0 then 0 else 1
      .fin (xor x y) (2 * q + st) (e - f - 193)

/-- Integer square root by bits: r is the root of the bits taken; fuel two bits a time. -/
def isqrtFrom : Nat → Nat → Nat → Nat
  | 0, _, r => r
  | k + 1, n, r =>
    let t := 2 * r
    if (t + 1) * (t + 1) ≤ n / 4 ^ k then isqrtFrom k n (t + 1) else isqrtFrom k n t

/-- The integer square root. -/
def isqrt (n : Nat) : Nat := isqrtFrom (Nat.log2 n / 2 + 1) n 0

/-- The square root to over 128 bits with a sticky bit. -/
def FVal.sqrt : FVal → FVal
  | .nan => .nan
  | .inf true => .nan
  | .inf false => .inf false
  | .fin neg m e =>
    if m = 0 then .fin neg 0 e
    else if neg then .nan
    else
      let odd := (e % 2).toNat
      let n := m * 2 ^ odd * 2 ^ 320
      let r := isqrt n
      .fin false (2 * r + (if r * r = n then 0 else 1)) ((e - odd) / 2 - 161)

/-- A value is NaN. -/
def FVal.isNan : FVal → Bool
  | .nan => true
  | _ => false

/-- Compare two values that are not NaN; −0 equals +0. -/
def FVal.lt (a b : FVal) : Bool :=
  match a, b with
  | .nan, _ => false
  | _, .nan => false
  | .inf x, .inf y => x && !y
  | .inf x, _ => x
  | _, .inf y => !y
  | .fin x m e, .fin y n f =>
    let q := min e f
    decide (signedAt x m e q < signedAt y n f q)

/-- Two values that are not NaN are equal; −0 equals +0. -/
def FVal.eq (a b : FVal) : Bool := !a.isNan && !b.isNan && !a.lt b && !b.lt a

/-- ilogb of a finite non-zero magnitude: floor(log2 |x|). -/
def FVal.ilogb : FVal → Option Int
  | .fin _ m e => if m = 0 then none else some ((Nat.log2 m : Int) + e)
  | _ => none

/-- A value is finite and not zero. -/
def FVal.finNonzero (v : FVal) : Bool := v.ilogb.isSome

/-- A value scaled by a power of two, exactly. -/
def FVal.scale (v : FVal) (k : Int) : FVal :=
  match v with
  | .fin x m e => .fin x m (e + k)
  | w => w

/-! ### Arithmetic on encodings -/

/-- Sum of two encodings. -/
def FFmt.add (f : FFmt) (rm : Round) (a b : Nat) : Nat := (f.enc rm ((f.dec a).add (rm == .rd) (f.dec b))).1
/-- Flip the sign of an encoding. -/
def FFmt.flip (f : FFmt) (a : Nat) : Nat := a ^^^ 2 ^ (f.width - 1)
/-- Difference of two encodings. -/
def FFmt.sub (f : FFmt) (rm : Round) (a b : Nat) : Nat := (f.enc rm ((f.dec a).add (rm == .rd) (f.dec b).neg)).1
/-- Product of two encodings. -/
def FFmt.mul (f : FFmt) (rm : Round) (a b : Nat) : Nat := (f.enc rm ((f.dec a).mul (f.dec b))).1
/-- a × b + c with one rounding. -/
def FFmt.fma (f : FFmt) (rm : Round) (a b c : Nat) : Nat :=
  (f.enc rm (((f.dec a).mul (f.dec b)).add (rm == .rd) (f.dec c))).1
/-- c − a × b with one rounding. -/
def FFmt.fnma (f : FFmt) (rm : Round) (a b c : Nat) : Nat :=
  (f.enc rm (((f.dec a).mul (f.dec b)).neg.add (rm == .rd) (f.dec c))).1
/-- Quotient of two encodings. -/
def FFmt.div (f : FFmt) (rm : Round) (a b : Nat) : Nat := (f.enc rm ((f.dec a).div (f.dec b))).1
/-- Square root of an encoding. -/
def FFmt.sqrt (f : FFmt) (rm : Round) (a : Nat) : Nat := (f.enc rm (f.dec a).sqrt).1
/-- 1/√a rounded to nearest even, with the special cases of R483. -/
def FFmt.rsqrt (f : FFmt) (a : Nat) : Nat :=
  match f.dec a with
  | .fin neg 0 _ => f.withSign neg (f.infBits.getD f.top)
  | .inf false => 0
  | .fin false m e =>
    let odd := (e % 2).toNat
    let n := 2 ^ 640 / (m * 2 ^ odd)
    let r := isqrt n
    f.rne (.fin false (2 * r + (if r * r * (m * 2 ^ odd) = 2 ^ 640 then 0 else 1)) (-((e - odd) / 2) - 321))
  | _ => f.nanBits
/-- Minimum of two encodings (R468): canonical NaN where either is NaN; −0 below +0. -/
def FFmt.min (f : FFmt) (a b : Nat) : Nat :=
  let x := f.dec a
  let y := f.dec b
  if x.isNan || y.isNan then f.nanBits
  else if x.lt y then a
  else if y.lt x then b
  else if a / 2 ^ (f.width - 1) % 2 = 1 then a else b
/-- Maximum of two encodings (R468). -/
def FFmt.max (f : FFmt) (a b : Nat) : Nat :=
  let x := f.dec a
  let y := f.dec b
  if x.isNan || y.isNan then f.nanBits
  else if x.lt y then b
  else if y.lt x then a
  else if a / 2 ^ (f.width - 1) % 2 = 1 then b else a

/-! ### FP32 with round-to-nearest-even (R241, R482) -/

/-- fadd. -/
def fadd (a b : Nat) : Nat := fFP32.add .rne a b
/-- fsub. -/
def fsub (a b : Nat) : Nat := fFP32.sub .rne a b
/-- fmul. -/
def fmul (a b : Nat) : Nat := fFP32.mul .rne a b
/-- fdiv. -/
def fdiv (a b : Nat) : Nat := fFP32.div .rne a b
/-- fma. -/
def ffma (a b c : Nat) : Nat := fFP32.fma .rne a b c
/-- Negation: the sign bit alone. -/
def fneg (a : Nat) : Nat := fFP32.flip a
/-- The magnitude. -/
def fabs (a : Nat) : Nat := a % 2 ^ 31
/-- a < b. -/
def flt (a b : Nat) : Bool := (fFP32.dec a).lt (fFP32.dec b)
/-- a is NaN. -/
def fisNan (a : Nat) : Bool := (fFP32.dec a).isNan
/-- The magnitude of a with the sign of b. -/
def copysign (a b : Nat) : Nat := fabs a + b / 2 ^ 31 % 2 * 2 ^ 31

/-- The integer nearest to a finite value, ties to even. -/
def FVal.toInt (v : FVal) (rm : Round) : Int :=
  match v with
  | .fin neg m e =>
    let n : Int := ((roundAt rm neg m e 0 : Nat) : Int)
    if neg then -n else n
  | _ => 0

/-- The integer that rint gives (R482). -/
def frintInt (a : Nat) : Int := (fFP32.dec a).toInt .rne
/-- rint: an integral FP32 value by round-to-nearest-even, keeping the sign of a zero (R482). -/
def frint (a : Nat) : Nat :=
  match fFP32.dec a with
  | .fin neg m e => if 0 ≤ e then a else fFP32.rne (.fin neg (roundAt .rne neg m e 0) 0)
  | _ => a

/-- An integer as FP32. -/
def fOfInt (n : Int) : Nat := fFP32.rne (ofSigned n 0 false)

/-! ### The reference functions (R482, R483) -/

/-- rexp. -/
def rexp (x : Nat) : Nat :=
  if fisNan x then 0x7FC00000
  else if !flt x 0x42B17218 then 0x7F800000
  else if !flt 0xC2D00000 x then 0
  else
    let kf := frint (fmul x 0x3FB8AA3B)
    let r := ffma (fneg kf) 0x3F317180 x
    let r := ffma (fneg kf) 0x3717F7D1 r
    let p := ffma 0x3AB60B61 r 0x3C088889
    let p := ffma p r 0x3D2AAAAB
    let p := ffma p r 0x3E2AAAAB
    let p := ffma p r 0x3F000000
    let p := ffma p r 0x3F800000
    let p := ffma p r 0x3F800000
    fFP32.rne ((fFP32.dec p).scale (frintInt kf))

/-- x = m × 2^e with m in [1, 2): the encoding of m, and e. -/
def fsplit (x : Nat) : Nat × Int :=
  match fFP32.dec x with
  | .fin neg m e => (fFP32.rne (.fin neg m (-(Nat.log2 m : Int))), (Nat.log2 m : Int) + e)
  | _ => (x, 0)

/-- rlog. -/
def rlog (x : Nat) : Nat :=
  if fisNan x || flt x 0 then 0x7FC00000
  else if !flt 0 x then 0xFF800000
  else if x = 0x7F800000 then x
  else
    let me := fsplit x
    let big := flt 0x3FB504F3 me.1
    let m := if big then fmul me.1 0x3F000000 else me.1
    let e := if big then me.2 + 1 else me.2
    let f := fsub m 0x3F800000
    let s := fdiv f (fadd 0x40000000 f)
    let z := fmul s s
    let q := ffma 0x3E638E39 z 0x3E924925
    let q := ffma q z 0x3ECCCCCD
    let q := ffma q z 0x3F2AAAAB
    let t := ffma (fmul s z) q (fadd s s)
    let ef := fOfInt e
    ffma ef 0x3F317180 (ffma ef 0x3717F7D1 t)

/-- rtanh. -/
def rtanh (x : Nat) : Nat :=
  let a := fabs x
  if fisNan x then 0x7FC00000
  else if flt a 0x39800000 then x
  else if !flt a 0x41100000 then copysign 0x3F800000 x
  else
    let e := rexp (fmul 0xC0000000 a)
    copysign (fdiv (fsub 0x3F800000 e) (fadd 0x3F800000 e)) x

/-- rerf: p below 0.5 in z = x². -/
def rerfLow (x : Nat) : Nat :=
  let z := fmul x x
  let p := ffma 0xBA6016DA z 0x3BAB2DE7
  let p := ffma p z 0xBCDC1672
  let p := ffma p z 0x3DE71791
  let p := ffma p z 0xBEC093A3
  let p := ffma p z 0x3F906EBB
  fmul x p

/-- rerf. -/
def rerf (x : Nat) : Nat :=
  let a := fabs x
  if fisNan x then 0x7FC00000
  else if !flt a 0x40800000 then copysign 0x3F800000 x
  else if flt a 0x3F000000 then rerfLow x
  else
    let t := fdiv 0x3F800000 (ffma 0x3EA7BA05 a 0x3F800000)
    let p := ffma 0x3F87DC22 t 0xBFBA00E3
    let p := ffma p t 0x3FB5F0E3
    let p := ffma p t 0xBE91A98E
    let p := ffma p t 0x3E827906
    let p := fmul p t
    copysign (fsub 0x3F800000 (fmul p (rexp (fneg (fmul a a))))) x

/-- rsincos: sine, cosine and quadrant of the reduced argument. P2 and P3 are the FP32 values nearest to the differences of
π/2 and the constants before them (log entry 15). -/
def rsincos (x : Nat) : Nat × Nat × Nat :=
  let kf := frint (fmul x 0x3F22F983)
  let r := ffma (fneg kf) 0x3FC90FDB x
  let r := ffma (fneg kf) 0xB33BBD2E r
  let r := ffma (fneg kf) 0xA6F72CED r
  let z := fmul r r
  let ps := ffma 0x3638EF1D z 0xB9500D01
  let ps := ffma ps z 0x3C088889
  let ps := ffma ps z 0xBE2AAAAB
  let sn := ffma (fmul r z) ps r
  let pc := ffma 0x37D00D01 z 0xBAB60B61
  let pc := ffma pc z 0x3D2AAAAB
  let pc := ffma pc z 0xBF000000
  (sn, ffma z pc 0x3F800000, (frintInt kf % 4).toNat)

/-- The argument of rsin and rcos gives QNAN: NaN, an infinity, or a magnitude of at least 2^20. -/
def trigOut (x : Nat) : Bool := fisNan x || !flt (fabs x) 0x49800000

/-- rsin. -/
def rsin (x : Nat) : Nat :=
  if trigOut x then 0x7FC00000
  else if flt (fabs x) 0x39800000 then x
  else
    match rsincos x with
    | (sn, _, 0) => sn
    | (_, cs, 1) => cs
    | (sn, _, 2) => fneg sn
    | (_, cs, _) => fneg cs

/-- rcos. -/
def rcos (x : Nat) : Nat :=
  if trigOut x then 0x7FC00000
  else
    match rsincos x with
    | (_, cs, 0) => cs
    | (sn, _, 1) => fneg sn
    | (_, cs, 2) => fneg cs
    | (sn, _, _) => sn

/-! ### The OIS96 grid (R319, R341) -/

/-- The OIS96 NaN pattern (R341). -/
def oisNan : Nat := 2 ^ 95

/-- A 96-bit two's complement count; none for the NaN pattern. -/
def oisVal (b : Nat) : Option Int := if b % 2 ^ 96 = oisNan then none else some (toSigned 96 b)

/-- A count as a 96-bit pattern. -/
def oisBits (n : Int) : Nat := wrapTo 96 n

/-- sat: a count of magnitude 2^95 or more becomes ±(2^95 − 1); the flag says that it did. -/
def oisSat (n : Int) : Int × Bool :=
  let top : Int := ((2 ^ 95 - 1 : Nat) : Int)
  if top < n then (top, true) else if n < -top then (-top, true) else (n, false)

/-- grid: the finite value in units of 2^(w − 64), round-to-nearest-even. -/
def gridCount (neg : Bool) (m : Nat) (e w : Int) : Int :=
  let n : Int := ((roundAt .rne neg m e (w - 64) : Nat) : Int)
  if neg then -n else n

/-- sat(grid(v, w)) of any value: none for NaN; an infinity saturates with its sign (R319, R352). -/
def oisOf (v : FVal) (w : Int) : Option (Int × Bool) :=
  match v with
  | .nan => none
  | .inf neg => some ((if neg then -((2 ^ 95 - 1 : Nat) : Int) else ((2 ^ 95 - 1 : Nat) : Int)), true)
  | .fin neg m e => some (oisSat (gridCount neg m e w))

/-- The exact value of a count in units of 2^(w − 64); zero is +0. -/
def oisToVal (n w : Int) : FVal := ofSigned n (w - 64) false

/-- to_float: the count in a float format by round-to-nearest-even. -/
def FFmt.ofCount (f : FFmt) (n w : Int) : Nat := f.rne (oisToVal n w)

/-! ### Elements in memory (R339 to R341) -/

/-- Bits of an element of a format code (R337). -/
def elemBits : Nat → Nat
  | 0 => 16 | 1 => 16 | 2 => 32 | 3 => 64 | 4 => 8 | 5 => 8 | 6 => 8 | 7 => 8 | 8 => 6 | 9 => 6 | 0xA => 4 | 0xB => 8
  | 0xC => 4 | 0xD => 32 | 0xE => 96 | _ => 0

/-- An MX format code. -/
def isMx (f : Nat) : Bool := decide (6 ≤ f) && decide (f ≤ 0xA)

/-- First byte that holds element i of a packed row, and the bytes it touches. -/
def elemSpan (f i : Nat) : Nat × Nat :=
  let b := elemBits f
  (b * i / 8, (b * i + b + 7) / 8 - b * i / 8)

/-- Bytes that n packed elements of a format take. -/
def elemBytes (f n : Nat) : Nat := (elemBits f * n + 7) / 8

/-- Element i of a packed row held in bytes (R340). -/
def elemOf (f : Nat) (row : Bytes) (i : Nat) : Nat :=
  let s := elemSpan f i
  bitsOf (atLe row s.1 s.2) (elemBits f * i % 8) (elemBits f)

/-- The value of an element's bits in a float or integer format code, without a block scale. -/
def elemVal (f b : Nat) : FVal :=
  match floatFmt f with
  | some g => g.dec b
  | none => ofSigned (toSigned (elemBits f) b) 0 false

/-- An element times its E8M0 block scale (R339). -/
def mxVal (f b scale : Nat) : FVal := if scale = 0xFF then .nan else (elemVal f b).scale ((scale : Int) - 127)

/-- Pack elements of a format into bytes (R340). -/
def packElems (f : Nat) (es : List Nat) : Bytes :=
  let b := elemBits f
  leBytes ((b * es.length + 7) / 8) (es.foldr (fun e v => e % 2 ^ b + v * 2 ^ b) 0)

/-! ### CBG-64 -/

/-- One round after another of CBG-64 (R710). -/
def cbgRounds : Nat → BitVec 32 → BitVec 32 → BitVec 32 → BitVec 32 → BitVec 32 → BitVec 32 → BitVec 64
  | 0, x0, x1, _, _, _, _ => x1 ++ x0
  | n + 1, x0, x1, x2, x3, y0, y1 =>
    let p : BitVec 64 := 0xB5AD4ECB#64 * x0.setWidth 64
    let q : BitVec 64 := 0xE3F17A2D#64 * x2.setWidth 64
    let hi := fun (v : BitVec 64) => (v >>> 32).setWidth 32
    cbgRounds n (hi q ^^^ x1 ^^^ y0) (q.setWidth 32) (hi p ^^^ x3 ^^^ y1) (p.setWidth 32)
      (y0 + 0x8F1BBCDD) (y1 + 0xA54FF53B)

/-- cbg64 (R710). -/
def cbg64 (seed step : Word) (stream k : Nat) : BitVec 64 :=
  let lo := fun (v : BitVec 64) => v.setWidth 32
  let hi := fun (v : BitVec 64) => (v >>> 32).setWidth 32
  let i : BitVec 64 := BitVec.ofNat 64 k
  cbgRounds 10 (lo i) (hi i) (BitVec.ofNat 32 stream) (lo step) (lo seed) (hi seed ^^^ hi step)

end Sys2Proof.Machine
end

