-- ==== Sys2Proof/Machine/Engine.lean ====
section
/-!
DEFINITION. What the engines of a cluster share: reading rows of an operand, checking a body in ascending subcode order
(R405, R501), writing rows of an output, output ranges, and raising a descriptor fault (R190, R406, R501).
-/

namespace Sys2Proof.Machine

/-- A read that an engine cannot make: a translation fault, or poison, at an address (for a translation fault, one that
`located` gives). -/
structure RdErr where
  poison : Bool
  addr : Nat
  deriving DecidableEq, Repr

/-- A fault of a descriptor: its subcode and the address its fault register records. -/
structure SubErr where
  sub : Nat
  addr : Nat := 0
  deriving DecidableEq, Repr

/-- Ranges of n bytes at a stride. -/
def strided (base stride count n : Nat) : List (Nat × Nat) := (upFrom 0 count).map fun i => (base + i * stride, n)

/-- Read context virtual ranges (R736, R762). -/
def Dev.rows (d : Dev) (x : Nat) : List (Nat × Nat) → Except RdErr (List Bytes)
  | [] => .ok []
  | (a, n) :: t =>
    match d.vread x a n with
    | .bad t addr => .error ⟨false, located t addr⟩
    | .poison addr => .error ⟨true, addr⟩
    | .ok bs =>
      match d.rows x t with
      | .error e => .error e
      | .ok rs => .ok (bs :: rs)

/-- The hub cache lookups of reading ranges (R518). -/
def Dev.touchRows (d : Dev) (x : Nat) (rs : List (Nat × Nat)) : Dev :=
  rs.foldl (fun e r => match e.translate x .r r.1 r.2 with | .ok ps => e.hcPieces x ps true | .error _ => e) d

/-- Write rows of an output in order; the first that cannot be translated stops, at its address. -/
def Dev.writeRows (d : Dev) (x : Nat) : List (Nat × Bytes) → Dev × Option Nat
  | [] => (d, none)
  | (a, bs) :: t =>
    match d.vwrite x a bs with
    | .error r => (d, some (located r.1 r.2))
    | .ok d => d.writeRows x t

/-- The device physical ranges of context virtual ranges that translate for a write. -/
def Dev.outRanges (d : Dev) (x : Nat) (rs : List (Nat × Nat)) : List (Nat × Nat) :=
  rs.flatMap fun r =>
    match d.translate x .w r.1 r.2 with
    | .ok ps => ps.map fun p => (p.pa, p.len)
    | .error _ => []

/-- The first check that fails, in the order of a list: subcode, whether it fails, and its address. -/
def firstErr : List (Nat × Bool × Nat) → Option SubErr
  | [] => none
  | (s, b, a) :: t => if b then some ⟨s, a⟩ else firstErr t

/-- The least subcode of a list of checks that fail; among equals the first (R405, R501). -/
def leastErr (l : List (Nat × Bool × Nat)) : Option SubErr :=
  (l.filter fun e => e.2.1).foldl
    (fun m e => match m with
      | none => some ⟨e.1, e.2.2⟩
      | some f => if e.1 < f.sub then some ⟨e.1, e.2.2⟩ else some f) none

/-- The first of a list of addresses and strides that is not a multiple of a power. -/
def misaligned (g : Nat) (l : List Nat) : Option Nat := l.find? fun a => a % g != 0

/-- A check for alignment, with the offending value. -/
def alignErr (sub g : Nat) (l : List Nat) : Nat × Bool × Nat :=
  match misaligned g l with
  | some a => (sub, true, a)
  | none => (sub, false, 0)

/-- Read n bytes at a cluster-local offset for an engine (R154, R737, R762). -/
def Dev.engLocal (d : Dev) (x c off n : Nat) : Except RdErr Bytes :=
  if d.localCheck x c off n 1 ≠ 0 then .error ⟨false, located (d.localCheck x c off n 1) off⟩
  else if d.poisoned (spadAddr c off) n then .error ⟨true, off⟩
  else .ok (d.localRead c off n)

/-- A failed read as a fault, addr and poison being the engine's subcodes. -/
def RdErr.sub (e : RdErr) (addr poison : Nat) : SubErr := ⟨if e.poison then poison else addr, e.addr⟩

end Sys2Proof.Machine
end

