-- ==== Sys2Proof/Machine/Hub.lean ====
section
/-!
DEFINITION. What the engines of the hub die share: a run of reads and writes that ends at its first fault, and the placement
tables (R290 to R292).
-/

namespace Sys2Proof.Machine

/-- A fault of a hub engine: its code, its detail, and the translation reason of an address fault (R738). -/
structure EngErr where
  code : Nat
  detail : Nat := 0
  trans : Nat := 0
  deriving DecidableEq, Repr

/-- Work of a hub engine on the block, up to its first fault. -/
abbrev Eng (α : Type) := EStateM EngErr Dev α

/-- The block after the work, and the fault that stopped it. -/
def Eng.runOn (m : Eng Unit) (d : Dev) : Dev × Option EngErr :=
  match m d with
  | .ok _ d => (d, none)
  | .error e d => (d, some e)

/-- Change the block. -/
def Eng.mod (f : Dev → Dev) : Eng Unit := fun d => .ok () (f d)

/-- Stop with a fault where a test holds. -/
def Eng.failIf (b : Bool) (code detail : Nat) : Eng Unit := if b then throw { code := code, detail := detail } else pure ()

/-- Read n bytes at a context virtual address (R736): ca and cp are the codes of a translation fault and of poison. -/
def Eng.read (x ca cp a n : Nat) : Eng Bytes := fun d =>
  match d.vread x a n with
  | .ok bs => .ok bs (d.touchRows x [(a, n)])
  | .bad t addr => .error { code := ca, detail := addr % 2 ^ 32, trans := t } d
  | .poison addr => .error { code := cp, detail := addr % 2 ^ 32 } d

/-- Write bytes at a context virtual address (R736). -/
def Eng.write (x ca a : Nat) (bs : Bytes) : Eng Unit := fun d =>
  match d.vwrite x a bs with
  | .ok d => .ok () d
  | .error r => .error { code := ca, detail := r.2 % 2 ^ 32, trans := r.1 } d

/-- The tracker of the hub-engine reserve that an engine's transfers take (R97, R133, log entry 115). -/
def hubTracker (d : Dev) (x pc src : Nat) : Tracker :=
  { node := d.node, ctx := x, hub := true, length := 1, kind := 1, state := 2, src := src, pc := pc, since := d.time.toNat }

/-- The transfers of a hub engine for context x: they take a tracker of the hub-engine reserve, which is free again at their end, and
while the reserve has none free the engine waits (R97, R185, R569). -/
def Dev.withHubTrk (d : Dev) (x pc src : Nat) (f : Dev → Dev) : Dev :=
  match d.freeHubTrk with
  | none => d
  | some k => (f (d.takeTrk k (hubTracker d x pc src))).freeTrkEntry k

/-! ### Placement tables (R290 to R292) -/

/-- The active placement table of a context; empty where it has none. -/
def Dev.placement (d : Dev) (x : Nat) : Bytes := mapGet (fun _ => []) d.placeTab x

/-- RANKS of a placement table. -/
def plRanks (t : Bytes) : Nat := atLe t 0x10 4
/-- SELF of a placement table. -/
def plSelf (t : Bytes) : Nat := atLe t 0x14 4
/-- LAYERS of a placement table. -/
def plLayers (t : Bytes) : Nat := atLe t 0x18 2
/-- EXPERTS of a placement table. -/
def plExperts (t : Bytes) : Nat := atLe t 0x1C 4
/-- REPLICAS of a placement table. -/
def plReplicas (t : Bytes) : Nat := atLe t 0x20 4
/-- Node ID of a rank. -/
def plNode (t : Bytes) (r : Nat) : Nat := atLe t (atLe t 0x24 4 + 2 * r) 2
/-- Offset of a layer entry (R291). -/
def plLayerAt (t : Bytes) (l : Nat) : Nat := atLe t 0x28 4 + 32 * l
/-- Experts of a layer. -/
def plE (t : Bytes) (l : Nat) : Nat := atLe t (plLayerAt t l) 2 + 1
/-- Exchange group size of a layer. -/
def plGs (t : Bytes) (l : Nat) : Nat := atLe t (plLayerAt t l + 4) 4
/-- EXPERT0 of a layer. -/
def plExpert0 (t : Bytes) (l : Nat) : Nat := atLe t (plLayerAt t l + 8) 4
/-- WPTR_OFF of a layer. -/
def plWptr (t : Bytes) (l : Nat) : Nat := atLe t (plLayerAt t l + 12) 4
/-- Offset of an expert entry. -/
def plExpertAt (t : Bytes) (i : Nat) : Nat := atLe t 0x2C 4 + 8 * i
/-- Replica count of expert e of layer l (R292); 0 without a table (R263). -/
def plRep (t : Bytes) (l e : Nat) : Nat := atLe t (plExpertAt t (plExpert0 t l + e) + 4) 2
/-- RANK and RESIDENT of a replica entry. -/
def plReplica (t : Bytes) (i : Nat) : Nat × Nat := (atLe t (atLe t 0x30 4 + 4 * i) 2, atLe t (atLe t 0x30 4 + 4 * i + 2) 2)
/-- The replica entry index of replica r of expert e of layer l (R292). -/
def plReplicaAt (t : Bytes) (l e r : Nat) : Nat := atLe t (plExpertAt t (plExpert0 t l + e)) 4 + r
/-- Group base of a rank in a layer (R292). -/
def plBase (t : Bytes) (l rank : Nat) : Nat := rank / plGs t l * plGs t l
/-- The node and resident index of replica r of expert e of layer l, for this device (R292). -/
def plHome (t : Bytes) (l e r : Nat) : Nat × Nat :=
  let p := plReplica t (plReplicaAt t l e r)
  (plNode t (plBase t l (plSelf t) + p.1), p.2)

/-- The residents of a rank in a layer (R292): resident index, expert and replica, in ascending replica entry order within an
expert. -/
def plResidents (t : Bytes) (l rank : Nat) : List (Nat × Nat × Nat) :=
  if t.isEmpty then []
  else
    (upFrom 0 (plE t l)).flatMap fun e =>
      (upFrom 0 (plRep t l e)).filterMap fun r =>
        let p := plReplica t (plReplicaAt t l e r)
        if p.1 = rank % plGs t l then some (p.2, e, r) else none

/-- The expert and replica of resident i of this device in a layer. -/
def plResident (t : Bytes) (l i : Nat) : Option (Nat × Nat) :=
  ((plResidents t l (plSelf t)).find? fun p => p.1 == i).map Prod.snd

/-- R_l of this device. -/
def plCount (t : Bytes) (l : Nat) : Nat := (plResidents t l (plSelf t)).length

end Sys2Proof.Machine
end

