-- ==== Sys2Proof/Machine/Link.lean ====
section
/-!
DEFINITION. The link layer of the Nonex ports (R589 to R603), the degraded status and the fence (R771 to R773), discovery
(R647 to R651), and the writes of the fabric's registers (R656 to R660).
-/

namespace Sys2Proof.Machine

/-- Set a bit of AON_RAS_STATUS; a newly set one is logged (R771, R864). -/
def Dev.rasSet (d : Dev) (b : Nat) : Dev :=
  if d.bit Reg.AON_RAS_STATUS b then d else (d.setBit Reg.AON_RAS_STATUS b true).log 5 b 1 none 0 0

/-- The device is fenced (R772). -/
def Dev.fenced (d : Dev) : Bool := d.bit Reg.AON_RAS_STATUS 19

/-- Take ADMITTED from a port (R651, R772). -/
def Dev.unadmit (d : Dev) (n : Nat) : Dev :=
  let d := d.setLink n { d.link n with admitted := false }
  if d.portState n = 4 then d.setPort n 2 else d

/-- Fence the device (R772): every context freezes with SOURCE AON, no port stays ADMITTED, and the host and the fabric
manager are told. -/
def Dev.fence (d : Dev) : Dev :=
  if d.fenced then d
  else
    let d := allCtxs.foldl (fun e x => if (e.ctx x).state.active then e.freeze x 0xA 0 0 0 0 0 else e) d
    let d := (upFrom 0 32).foldl Dev.unadmit d
    let d := d.rasSet 19
    let d := (d.msix 0 9).alert 2
    if d.boot.slot.isNone then d
    else d.sendMgmt (d.fld Reg.BUR_FM 0 16) ([2, 0, 0, 0] ++ leBytes 8 (d.reg Reg.AON_RAS_STATUS).toNat)

/-- The state of a port that resumes: ADMITTED where it was and the device is not fenced (R598, R772). -/
def Dev.resumeState (d : Dev) (n : Nat) : Nat := if (d.link n).admitted && !d.fenced then 4 else 2

/-- The ports of a discovery snapshot: those that are UP (R647). -/
def Dev.upPorts (d : Dev) : List Nat := (upFrom 0 32).filter fun n => d.portState n == 2 || d.portState n == 4

/-- End an epoch (R648): each port that answered records its peer and becomes ADMITTED, each that did not is UP and not
ADMITTED. One in HOLD is so when it resumes (R598). -/
def Dev.discEnd (d : Dev) (k : Disc) : Dev :=
  let one := fun (e : Dev) n =>
    match k.got.find? fun g => g.1 == n with
    | none => e.unadmit n
    | some g =>
      let e := e.setReg (Reg.FAB_P_PEER n) (BitVec.ofNat 64 (g.2.1 % 65536 + g.2.2 % 32 * 2 ^ 16 + k.epoch % 2 ^ 32 * 2 ^ 32))
      if e.fenced then e
      else if e.portState n = 2 then e.setPort n 4
      else if e.portState n = 3 then e.setLink n { e.link n with admitted := true }
      else e
  let d := k.ports.foldl one d
  ({ d with disc := none }.setFld Reg.FAB_DISC_STATUS 0 2 2).setFld Reg.FAB_DISC_STATUS 32 32 k.epoch

/-- Begin an epoch: snapshot, and a DISC on each port with node, port and EPOCH (R647). Its DST is a free value. With no port in the
snapshot every port of it has answered, and the epoch is DONE. -/
def Dev.discBegin (d : Dev) (epoch : Nat) : Dev :=
  let (f, d) := d.fresh
  let ps := d.upPorts
  let send := fun (e : Dev) n =>
    let h : Hdr := { ty := 0x19, vc := 0, dst := fieldOf f 0 16, src := e.node, pkey := 0xFFFF, len := 1 }
    let pay := leBytes 2 e.node ++ leBytes 2 n ++ leBytes 4 epoch ++ leBytes 8 0
    { e with rtr := e.rtr ++ [{ hdr := h, pay := pay, at_ := e.time.toNat, outp := some n }] }
  let d := ps.foldl send d
  let k : Disc := { epoch := epoch, ports := ps, since := d.time.toNat }
  if ps.isEmpty then d.discEnd k else { d with disc := some k }.setFld Reg.FAB_DISC_STATUS 0 2 1

/-- A port goes DOWN during an epoch: the epoch restarts, or fails after 8 restarts (R650). -/
def Dev.discAbort (d : Dev) (n : Nat) : Dev :=
  match d.disc with
  | none => d
  | some k =>
    if !k.ports.contains n then d
    else
      let r := d.fld Reg.FAB_DISC_STATUS 8 4
      if r = 8 then { d with disc := none }.setFld Reg.FAB_DISC_STATUS 0 2 3
      else (d.setFld Reg.FAB_DISC_STATUS 8 4 (r + 1)).discBegin k.epoch

/-- Packets handed to a port and not acknowledged whole: those that end in a superframe of its replay buffer or in its stream. -/
def Link.unacked (l : Link) : Nat := l.replay.foldl (fun v f => v + f.ends) 0 + l.stream.length

/-- A packet whose input region is gone with its port. -/
def RPkt.offRegion (n : Nat) (p : RPkt) : RPkt := if p.port = some n then { p with inReg := false } else p

/-- A port goes DOWN (R600): its unacknowledged packets are lost, its link state, input regions and credits are gone. -/
def Dev.portDown (d : Dev) (n : Nat) : Dev :=
  if d.portState n = 0 then d
  else
    let d := d.dropCount 3 (d.link n).unacked
    let d :=
      { d with
        links := mapPut d.links n none
        credit := mapKeep (fun k => k / 32 != n) d.credit
        creditDue := mapKeep (fun k => k / 32 != n) d.creditDue
        drr := mapKeep (fun k => k / 8 != n) d.drr
        rtr := d.rtr.map fun (p : RPkt) => (if p.outp = some n then p.unroute else p).offRegion n
        parked := d.parked.map fun (q : Parked) => { q with pkt := q.pkt.offRegion n } }
    let d := d.setFld (Reg.BUR_PROTO_MINOR (n / 8)) (8 * (n % 8)) 8 0xFF
    let d := (d.setPort n 0).log 9 1 8 none n (d.fld (Reg.FAB_P_PEER n) 0 16)
    d.discAbort n

/-- SWUNG of FAB_SWING. -/
def Dev.swung (d : Dev) : Bool := d.bit Reg.FAB_SWING 12

/-- A port whose HOLD fails or that loses a second lane pair (R599, R601): a bench port enters SWING_WAIT while port 15 is
in standby, else the port goes DOWN; a bench link that fails while a swing is in force fences the device (R771). -/
def Dev.portFail (d : Dev) (n : Nat) : Dev :=
  if n < 15 && !d.swung then
    (d.setLink n { d.link n with admitted := false, since := d.time.toNat }).setPort n 5
  else
    let d := d.portDown n
    if n < 16 && d.swung then d.fence else d

/-- A port enters HOLD and retrains (R598). -/
def Dev.hold (d : Dev) (n : Nat) : Dev :=
  let st := d.portState n
  if st = 2 || st = 4 then
    (d.setLink n { d.link n with admitted := st == 4, since := d.time.toNat }).setPort n 3
  else d

/-- HOLD limit of a port in hub cycles (R598). -/
def Dev.holdLimit (d : Dev) (n : Nat) : Nat := d.fld Reg.FAB_TIMEOUT (if n < 16 then 32 else 48) 16 * 1600

/-- A port that has retrained within the HOLD limit leaves HOLD and resumes from the last acknowledged superframe (R595, R598). -/
def Dev.resume (d : Dev) (n : Nat) : Dev :=
  let l := d.link n
  if d.portState n = 3 && decide (d.time.toNat ≤ l.since + d.holdLimit n) then
    ((d.setLink n { l with resent := 0, awaiting := false, nakDue := false }).setPort n (d.resumeState n)).resend n
  else d

/-- Remove a lane pair; a second one fails the port (R599). The degraded status is set (R771). -/
def Dev.dropPair (d : Dev) (n j : Nat) : Dev :=
  let st := d.portState n
  if !(st = 2 || st = 3 || st = 4) || 4 ≤ j || d.bit (Reg.FAB_P_STATUS n) (4 + j) then d
  else if d.fld (Reg.FAB_P_STATUS n) 4 4 ≠ 0 then (d.setBit (Reg.FAB_P_STATUS n) (4 + j) true).portFail n
  else ((d.setBit (Reg.FAB_P_STATUS n) (4 + j) true).rasSet (24 + n)).resume n

/-- A lane pair that this end or its peer removes: both ends exchange DROP_PAIR, once each (R599). -/
def Dev.pairOff (d : Dev) (n j : Nat) : Dev :=
  if d.bit (Reg.FAB_P_STATUS n) (4 + j) then d else (d.linkCmd n 2 j).dropPair n j

/-- Drop the acknowledged superframes of a replay buffer. -/
def ackReplay (a : Nat) (l : List Frame) : List Frame :=
  match l.findIdx? fun e => e.seq == a with
  | none => l
  | some i => l.drop (i + 1)

/-- Return credit named by the 15 bits of a link word: VC, region, count (R594, R612). -/
def Dev.creditBack (d : Dev) (n sel cnt : Nat) : Dev :=
  let vc := bitsOf sel 0 3
  let rg := bitsOf sel 3 2
  if rg = 3 then d else d.setCredit n vc rg (min (creditFull (creditKey n vc rg)) (d.creditOf n vc rg + cnt))

/-- A port whose oldest superframe has been resent 8 times enters HOLD, and its peer with it (R598). -/
def Dev.holdBoth (d : Dev) (n : Nat) : Dev := (d.linkCmd n 1 0).hold n

/-- A superframe received with its 80-bit link word (R593 to R598). bad: a codeword is uncorrectable; ce: one was corrected.
A NAK makes the superframes from ACK + 1 leave again (R595). Link commands and the packets it carries are rows of their own, so that
START is not needed to find them. -/
def Dev.superframe (d : Dev) (n lw : Nat) (bad ce : Bool) : Dev :=
  let st := d.portState n
  if 32 ≤ n || !(st = 2 || st = 4) then d
  else
    let l := d.link n
    let d := if ce then d.addFld (Reg.FAB_P_FEC n) 0 32 1 else d
    if bad then
      let d := (d.addFld (Reg.FAB_P_FEC n) 32 32 1).addFld (Reg.FAB_P_RETRY n) 0 32 1
      (d.setLink n { l with awaiting := true, nakDue := true }).sendFrame n
    else if bitsOf lw 0 12 ≠ (l.rxSeq + 1) % 4096 then d
    else
      let rep := ackReplay (bitsOf lw 12 12) l.replay
      let nak := bitsOf lw 24 1 == 1
      let resent := if rep.length < l.replay.length then 0 else l.resent
      let resent := if nak && rep ≠ [] then resent + 1 else resent
      let d := d.setLink n { l with rxSeq := bitsOf lw 0 12, awaiting := false, replay := rep, resent := resent }
      let d := if nak then d.resend n else d
      let d := (d.creditBack n (bitsOf lw 33 5) (bitsOf lw 38 10)).creditBack n (bitsOf lw 48 5) (bitsOf lw 53 10)
      (if 8 ≤ resent then d.holdBoth n else d).pump n

/-- A port is allowed to run: enabled, not held by LINK_DISABLE, its domains on (R592, R858). -/
def Dev.portEnabled (d : Dev) (n : Nat) : Bool :=
  decide (n < 32) && d.bit (Reg.FAB_P_CFG n) 0 && !mapGet (fun _ => false) d.linkOff n &&
    d.domOn (regDomain (Reg.FAB_P_STATUS n)) && (decide (n < 16) || d.domOn 25)

/-- A port finishes training (R597, R870): it comes UP unless its round trip exceeds 5 µs or the protocol majors differ. -/
def Dev.trained (d : Dev) (n ns major minor : Nat) : Dev :=
  if !d.portEnabled n || 1 < d.portState n then d
  else if major ≠ 1 then d.log 9 3 8 none n (d.fld (Reg.FAB_P_PEER n) 0 16)
  else if 5000 < ns then d
  else
    let d := d.setFld (Reg.BUR_PROTO_MINOR (n / 8)) (8 * (n % 8)) 8 (min minor 0)
    (({ d with links := mapPut d.links n none }).setFld (Reg.FAB_P_STATUS n) 4 4 0).setPort n 2

/-- A port has something to say in a superframe: units, credit, a command, a NAK or an acknowledgement. -/
def Dev.says (d : Dev) (n : Nat) : Bool :=
  let l := d.link n
  let st := d.portState n
  !l.cmds.isEmpty || ((st == 2 || st == 4) && (!l.stream.isEmpty || l.nakDue || l.ackSent != l.rxSeq || !(d.dueAt n).isEmpty))

/-- A port sends a superframe in a hub cycle where it has something to say. Idle superframes that carry nothing are not driven (log
entry 128). -/
def Dev.linkCycle (d : Dev) : Dev := (upFrom 0 32).foldl (fun e n => if e.says n then e.sendFrame n else e) d

/-- SUPERFRAME_RECEIVE (R593 to R596). -/
def execSuperframeReceive (n lw : Nat) (bad ce : Bool) (s : State) : Host.Outcome State Fault Refusal :=
  s.run (·.superframe n lw bad ce)
/-- RETRAIN (R598). -/
def execRetrain (n : Nat) (s : State) : Host.Outcome State Fault Refusal := s.run (·.hold n)
/-- RECEIVER_LOSS_OF_LOCK (R598): the port tells its peer to retrain. -/
def execReceiverLossOfLock (n : Nat) (s : State) : Host.Outcome State Fault Refusal :=
  s.run fun d => if d.portState n = 2 || d.portState n = 4 then d.holdBoth n else d
/-- DROP_PAIR (R599): the peer's, which is answered. -/
def execDropPair (n j : Nat) (s : State) : Host.Outcome State Fault Refusal :=
  s.run fun d =>
    let st := d.portState n
    if (st = 2 || st = 3 || st = 4) && decide (j < 4) then d.pairOff n j else d
/-- LANE_RETRAIN_DONE (R598). -/
def execLaneRetrainDone (n : Nat) (s : State) : Host.Outcome State Fault Refusal := s.run (·.resume n)
/-- LANE_RETRAIN_FAIL (R599). -/
def execLaneRetrainFail (n j : Nat) (s : State) : Host.Outcome State Fault Refusal :=
  s.run fun d => if d.portState n = 3 && decide (j < 4) then d.pairOff n j else d
/-- HOLD_TIMEOUT (R598, R599, R601). -/
def execHoldTimeout (n : Nat) (s : State) : Host.Outcome State Fault Refusal :=
  s.run fun d => if d.portState n = 3 && (d.link n).since + d.holdLimit n ≤ d.time.toNat then d.portFail n else d
/-- SWING_WAIT_TIMEOUT (R601). -/
def execSwingWaitTimeout (n : Nat) (s : State) : Host.Outcome State Fault Refusal :=
  s.run fun d =>
    if d.portState n = 5 && d.swingNow != some n && (d.link n).since + d.fld Reg.FAB_TIMEOUT 0 16 * 1600 ≤ d.time.toNat then
      d.portDown n
    else d
/-- PORT_TRAINING_DONE (R597, R870). -/
def execPortTrainingDone (n ns major minor : Nat) (s : State) : Host.Outcome State Fault Refusal :=
  s.run (·.trained n ns major minor)

/-! ### Redundant-link swing (R601 to R603) -/

/-- Counts of port p by region as counts of port 15, in whose place it stands. -/
def swungCounts (dflt : Nat → Nat) (p : Nat) (m : SMap Nat) : SMap Nat :=
  let moved := m.filterMap fun (e : Nat × Nat) => if e.1 / 32 = p then some (15 * 32 + e.1 % 32, e.2) else none
  moved.foldl (fun m (e : Nat × Nat) => mapSet dflt m e.1 e.2) (mapKeep (fun k => k / 32 != p && k / 32 != 15) m)

/-- A packet of port p as one of port 15. -/
def RPkt.swing (p : Nat) (q : RPkt) : RPkt :=
  let moved := fun (o : Option Nat) => if o = some p then some 15 else o
  { q with outp := moved q.outp, port := moved q.port }

/-- The state of port p moves to port 15 (R602): its SEQ, ACK, replay buffer, stream and credit where it waits for the swing, and every
packet, branch and merged request that stands on it. -/
def Dev.swingState (d : Dev) (p : Nat) : Dev :=
  let moved := fun n => if n = p then 15 else n
  let l := d.link p
  let d := { d with
    rtr := d.rtr.map (RPkt.swing p)
    parked := d.parked.map fun (q : Parked) => { q with pkt := q.pkt.swing p }
    mcast := d.mcast.map fun (e : McEnt) => { e with port := e.port.map moved, left := e.left.map moved }
    combine := d.combine.map fun (e : Nat × Combine) => (e.1, { e.2 with port := moved e.2.port })
    credit := swungCounts creditFull p d.credit
    creditDue := swungCounts (fun _ => 0) p d.creditDue
    links := mapPut d.links p none }
  d.setLink 15 (if d.portState p = 5 then { l with swing := false } else {})

/-- GO written to FAB_SWING (R602, R658): the port's link state moves to port 15, and SWING goes to the peer there. -/
def Dev.swingGo (d : Dev) (w : Word) : Dev :=
  let p := fieldOf w 0 4
  let st := d.portState p
  if d.swung || d.swingNow.isSome || 14 < p || !(st = 5 || st = 0) then d.logDiscard Reg.FAB_SWING
  else ({ d.plainWrite Reg.FAB_SWING w with swingNow := some p }.swingState p).linkCmd 15 3 p

/-- SWING from the peer names its replaced port, which is the far end of the port replaced here (R591, R602). -/
def Dev.swingMove (d : Dev) (arg : Nat) : Dev :=
  match d.swingNow with
  | none => d
  | some p => if arg + p ≠ 14 then d else d.setLink 15 { d.link 15 with swing := true }

/-- The swing finishes: port 15 serves in place of the port, and resumes from the last acknowledged superframe (R595, R602). -/
def Dev.swingDone (d : Dev) : Dev :=
  match d.swingNow with
  | none => d
  | some p =>
    if !(d.link 15).swing then d
    else
      let up := if d.fenced then 2 else 4
      let d := { d with swingNow := none }
      let d := ((d.setFld Reg.FAB_SWING 8 4 p).setBit Reg.FAB_SWING 12 true).rasSet 16
      let d := (d.setLink 15 { d.link 15 with swing := false }).setPort 15 up
      ((d.setPort p 0).log 9 2 8 none p (d.fld (Reg.FAB_P_PEER p) 0 16)).resend 15

/-- RELEASE written to FAB_SWING with w (R603): discarded while the replaced port is not UP. -/
def Dev.swingRelease (d : Dev) (w : Word) : Dev :=
  let p := d.fld Reg.FAB_SWING 8 4
  let st := d.portState p
  if !d.swung || !(st = 2 || st = 4) then d.logDiscard Reg.FAB_SWING
  else
    let d := ((d.plainWrite Reg.FAB_SWING w).setBit Reg.FAB_SWING 12 false).setBit Reg.AON_RAS_STATUS 16 false
    let back := fun (q : RPkt) => if q.outp = some 15 then q.unroute else q
    { d with rtr := d.rtr.map back }.unadmit 15

/-- A write to FAB_SWING (R603, R658). -/
def Dev.wSwing (d : Dev) (w : Word) : Dev :=
  if bitOf w 4 then d.swingGo w else if bitOf w 5 then d.swingRelease w else d.plainWrite Reg.FAB_SWING w

/-- SWING_GO (R602, R658). -/
def execSwingGo (src : Master) (w : Word) (s : State) : Host.Outcome State Fault Refusal :=
  s.run (·.guard src Reg.FAB_SWING fun d => d.wSwing (w ||| 0x10))
/-- SWING (R602). -/
def execSwing (arg : Nat) (s : State) : Host.Outcome State Fault Refusal := s.run (·.swingMove arg)
/-- SWING_COMPLETE (R602). -/
def execSwingComplete (s : State) : Host.Outcome State Fault Refusal := s.run (·.swingDone)
/-- SWING_RELEASE (R603). -/
def execSwingRelease (src : Master) (w : Word) (s : State) : Host.Outcome State Fault Refusal :=
  s.run (·.guard src Reg.FAB_SWING fun d => d.wSwing ((w ||| 0x20) &&& ~~~ 0x10))

/-! ### Discovery (R647 to R651) -/

/-- A write to FAB_DISC_CTRL (R647, R651). -/
def Dev.wDisc (d : Dev) (w : Word) : Dev :=
  if bitOf w 32 then
    if d.disc.isSome then d.logDiscard Reg.FAB_DISC_CTRL
    else ((d.plainWrite Reg.FAB_DISC_CTRL w).setFld Reg.FAB_DISC_STATUS 8 4 0).discBegin (fieldOf w 0 32)
  else d.plainWrite Reg.FAB_DISC_CTRL w

/-- A peer's DISC on a port of the snapshot (R647, R648). -/
def Dev.discGot (d : Dev) (n : Nat) (pay : Bytes) : Dev :=
  match d.disc with
  | none => d
  | some k =>
    if atLe pay 4 4 ≠ k.epoch || !k.ports.contains n || k.got.any (fun g => g.1 == n) then d
    else
      let k := { k with got := k.got ++ [(n, atLe pay 0 2, atLe pay 2 1)] }
      if k.got.length = k.ports.length then d.discEnd k else { d with disc := some k }

/-- 100 µs of an epoch have passed (R647). -/
def Dev.discTimeout (d : Dev) : Dev :=
  match d.disc with
  | none => d
  | some k => if k.since + 160000 ≤ d.time.toNat then d.discEnd k else d

/-- DISC_START (R647, R651). -/
def execDiscStart (src : Master) (w : Word) (s : State) : Host.Outcome State Fault Refusal :=
  s.run (·.guard src Reg.FAB_DISC_CTRL fun d => d.wDisc (w ||| 0x100000000))
/-- DISC_TIMEOUT (R647, R648). -/
def execDiscTimeout (s : State) : Host.Outcome State Fault Refusal := s.run (·.discTimeout)

/-! ### Register writes (R656 to R660) -/

/-- A context is loaded. -/
def Dev.anyLoaded (d : Dev) : Bool := allCtxs.any d.loaded

/-- A write to FAB_NODE, FAB_TIMEOUT, FAB_VCW or FAB_COMBINE (R656, R657). -/
def Dev.wFabConfig (d : Dev) (off : Nat) (w : Word) : Dev :=
  let bad :=
    if off = Reg.FAB_NODE then d.anyLoaded
    else if off = Reg.FAB_TIMEOUT then
      d.anyLoaded || decide (fieldOf w 0 16 < fieldOf w 32 16 + 10) || decide (fieldOf w 16 16 ≤ fieldOf w 48 16)
    else if off = Reg.FAB_VCW then (upFrom 0 5).any fun i => fieldOf w (4 * i) 4 == 0
    else fieldOf w 8 7 == 0 || decide (64 < fieldOf w 8 7)
  if bad then d.logDiscard off else d.plainWrite off w

/-- A write to FAB_PKEYk (R659). -/
def Dev.wPkey (d : Dev) (k : Nat) (w : Word) : Dev :=
  if fieldOf w 0 16 = 0xFFFF && bitOf w 16 then d.logDiscard (Reg.FAB_PKEY k) else d.plainWrite (Reg.FAB_PKEY k) w

/-- A write to FAB_CTXx_ID (R660). -/
def Dev.wCtxId (d : Dev) (x : Nat) (w : Word) : Dev :=
  if d.loaded x then d.logDiscard (Reg.FAB_CTX_ID x) else d.plainWrite (Reg.FAB_CTX_ID x) w

/-- A write to FAB_Pn_CFG: ENABLE 0 holds the port DOWN, 1 lets it train. -/
def Dev.wPortCfg (d : Dev) (n : Nat) (w : Word) : Dev :=
  let d := d.plainWrite (Reg.FAB_P_CFG n) w
  if !d.bit (Reg.FAB_P_CFG n) 0 then d.portDown n
  else if d.portState n = 0 && d.portEnabled n then d.setPort n 1 else d

/-- FAB_PKEY_WRITE (R659). -/
def execFabPkeyWrite (src : Master) (k : Nat) (w : Word) (s : State) : Host.Outcome State Fault Refusal :=
  s.run fun d => if k < 16 then d.guard src (Reg.FAB_PKEY k) (·.wPkey k w) else d
/-- CTX_PKEY_WRITE (R660). -/
def execCtxPkeyWrite (src : Master) (x : Nat) (w : Word) (s : State) : Host.Outcome State Fault Refusal :=
  s.run fun d => if x < 8 then d.guard src (Reg.FAB_CTX_ID x) (·.wCtxId x w) else d
/-- FAB_CONFIG_WRITE (R656, R657). reg is 0 FAB_NODE, 1 FAB_TIMEOUT, 2 FAB_VCW, 3 FAB_COMBINE. -/
def execFabConfigWrite (src : Master) (reg : Nat) (w : Word) (s : State) : Host.Outcome State Fault Refusal :=
  s.run fun d => if reg < 4 then d.guard src (Reg.FAB_NODE + 8 * reg) (·.wFabConfig (Reg.FAB_NODE + 8 * reg) w) else d

end Sys2Proof.Machine
end

