-- ==== Sys2Proof/Machine/Dresser.lean ====
section
/-!
DEFINITION. The Dresser (R225 to R281): profiles, selection and gating (drs.topk), capacity assignment (drs.assign), the bias
store (drs.bias), the unit's faults, and the commands DRS_DESC_START and DRS_DESC_COMPLETE.
-/

namespace Sys2Proof.Machine

/-! ### Profiles (R234, R235) -/

/-- The Dresser configuration section of a context. -/
def Dev.drsSec (d : Dev) (x : Nat) : Option Sec := if d.loaded x then planFind (d.ctx x).plan 8 else none

/-- Profile i of a plan's section. -/
def profileOf (p : Bytes) (s : Sec) (i : Nat) : Bytes := (p.drop (s.off + 0x40 + 128 * i)).take 128

/-- Profile i of a context, or none (R276 PROFILE, R288). -/
def Dev.profile (d : Dev) (x i : Nat) : Option Bytes :=
  match d.drsSec x with
  | none => none
  | some s => if i < atLe (d.ctx x).plan s.off 2 then some (profileOf (d.ctx x).plan s i) else none

/-- E of a profile. -/
def pfE (f : Bytes) : Nat := atLe f 0 2 + 1
/-- KSEL. -/
def pfK (f : Bytes) : Nat := atLe f 2 1
/-- GATE. -/
def pfGate (f : Bytes) : Nat := atLe f 3 1
/-- Bytes of a score. -/
def pfSize (f : Bytes) : Nat := if atLe f 4 1 = 0 then 4 else 2
/-- Expert groups G. -/
def pfG (f : Bytes) : Nat := atLe f 5 1 + 1
/-- Groups kept. -/
def pfTop (f : Bytes) : Nat := atLe f 6 1 + 1
/-- GSCORE. -/
def pfJ (f : Bytes) : Nat := atLe f 7 1
/-- SCALE. -/
def pfScale (f : Bytes) : Nat := atLe f 8 4
/-- Capacity C. -/
def pfCap (f : Bytes) : Nat := atLe f 0xC 4
/-- Spill rounds K. -/
def pfSpill (f : Bytes) : Nat := atLe f 0x10 1
/-- BIAS of FLAGS. -/
def pfBias (f : Bytes) : Bool := bitsOf (atLe f 0x11 1) 0 1 == 1
/-- LAYER. -/
def pfLayer (f : Bytes) : Nat := atLe f 0x12 2
/-- BIAS_BASE. -/
def pfBiasBase (f : Bytes) : Nat := atLe f 0x14 4
/-- ROW_BYTES. -/
def pfRow (f : Bytes) : Nat := atLe f 0x18 4
/-- OUT_ROW_BYTES. -/
def pfOutRow (f : Bytes) : Nat := atLe f 0x1C 4
/-- Address of the drawer of resident i (R271). -/
def pfDrawer (f : Bytes) (i : Nat) : Nat := atLe f 0x20 8 + i * atLe f 0x28 8
/-- Address of the output drawer of resident i (R271). -/
def pfOut (f : Bytes) (i : Nat) : Nat := atLe f 0x30 8 + i * atLe f 0x38 8
/-- RESW. -/
def pfResw (f : Bytes) : Nat := atLe f 0x40 8
/-- TAG_OFF. -/
def pfTag (f : Bytes) : Nat := atLe f 0x48 4
/-- ASC_OFF. -/
def pfAsc (f : Bytes) : Nat := atLe f 0x4C 4
/-- ASC_ROW. -/
def pfAscRow (f : Bytes) : Nat := atLe f 0x50 4

/-! ### Selection (R240 to R246) -/

/-- -FLT_MAX. -/
def minFlt : Nat := 0xFF7FFFFF
/-- FLT_MAX. -/
def maxFlt : Nat := 0x7F7FFFFF

/-- A score in FP32 before it is made canonical. -/
def widenScore (size b : Nat) : Nat := if size = 2 then b * 65536 else b

/-- The canonical score (R240). -/
def canonScore (b : Nat) : Nat :=
  if fisNan b then minFlt else if b = 0x7F800000 then maxFlt else if b = 0xFF800000 then minFlt else b

/-- Put an entry in a list ranked by key, ties by index (R243), that keeps at most n. -/
def rankIns (n : Nat) (e : Nat × Nat) (l : List (Nat × Nat)) : List (Nat × Nat) :=
  let before := l.takeWhile fun q => flt e.1 q.1 || (!flt q.1 e.1 && decide (q.2 < e.2))
  (before ++ e :: l.drop before.length).take n

/-- The n first of (key, index) pairs in rank order (R243). -/
def topRank (n : Nat) (l : List (Nat × Nat)) : List (Nat × Nat) := l.foldl (fun m e => rankIns n e m) []

/-- Group score (R244): the sum of the J top keys in rank order; NaN counts as minus infinity. -/
def groupScore (j : Nat) (keys : List (Nat × Nat)) : Nat :=
  match (topRank j keys).map Prod.fst with
  | [] => 0
  | k :: t =>
    let a := t.foldl fadd k
    if fisNan a then 0xFF800000 else a

/-- The selected experts in rank order (R244, R245). -/
def selectExperts (f : Bytes) (keys : List Nat) : List Nat :=
  let ix := keys.mapIdx fun e k => (k, e)
  let allowed :=
    if pfG f = 1 then ix
    else
      let size := pfE f / pfG f
      let gs := (upFrom 0 (pfG f)).map fun g => (groupScore (pfJ f) ((ix.drop (g * size)).take size), g)
      let kept := (topRank (pfTop f) gs).map Prod.snd
      ix.filter fun e => kept.contains (e.2 / size)
  (topRank (pfK f) allowed).map Prod.snd

/-! ### Gating (R247 to R249) -/

/-- rexp with exp of minus infinity +0.0 (R247). -/
def drsExp (a : Nat) : Nat := if a = 0xFF800000 then 0 else rexp a

/-- The logistic function of R247. -/
def drsSig (a : Nat) : Nat := fdiv 0x3F800000 (fadd 0x3F800000 (drsExp (fneg a)))

/-- Exact sum of FP32 addends, rounded once (R248). -/
def osum (l : List Nat) : Nat :=
  let n := l.foldl (fun (v : Int) a => match oisOf (fFP32.dec a) 0 with | some u => v + u.1 | none => v) 0
  fFP32.ofCount n 0

/-- The largest of FP32 values. -/
def maxOf (l : List Nat) : Nat := l.foldl (fun m a => if flt m a then a else m) minFlt

/-- The gate weights of a token, and whether S is 0 under SIGMOID_NORM (R247, R249). -/
def gateWeights (f : Bytes) (s sel : List Nat) : List Nat × Bool :=
  let xs := sel.map fun e => s.getD e 0
  let sat :=
    match pfGate f with
    | 0 =>
      let m := maxOf s
      let u := s.map fun a => drsExp (fsub a m)
      let sum := osum u
      (sel.map fun e => fdiv (u.getD e 0) sum, false)
    | 2 =>
      let m := maxOf xs
      let u := xs.map fun a => drsExp (fsub a m)
      let sum := osum u
      (u.map fun a => fdiv a sum, false)
    | 1 => (xs.map drsSig, false)
    | _ =>
      let v := xs.map drsSig
      let sum := osum v
      if sum % 2 ^ 31 = 0 then (v.map fun _ => 0, true) else (v.map fun a => fdiv a sum, false)
  (sat.1.map fun w => fmul w (pfScale f), sat.2)

/-- A route entry (R250). -/
def routeEntry (expert round replica state weight : Nat) : Bytes :=
  leBytes 8 (expert % 65536 + round % 16 * 2 ^ 16 + replica % 256 * 2 ^ 20 + state % 4 * 2 ^ 28 + weight % 2 ^ 32 * 2 ^ 32)

/-! ### Faults (R276 to R280) -/

/-- A fault of the unit that serves the descriptor's cluster (R276, R277): DRS_Uu_FAULT, and the freeze. -/
def Dev.drsFault (d : Dev) (q : Desc) (e : EngErr) : Dev :=
  let u := d.unitOf q.cl
  let r := Reg.DRS_U_FAULT u
  let d :=
    if d.bit r 8 then d.setBit r 9 true
    else d.setReg r (BitVec.ofNat 64 (e.code % 256 + 2 ^ 8 + q.cl % 128 * 2 ^ 16 + q.kind % 256 * 2 ^ 24 +
      e.detail % 2 ^ 32 * 2 ^ 32))
  d.freeze q.ctx 3 e.code 0 e.trans u e.detail

/-- The fault of lowest code among checks (code, detail); among those of a code the lowest detail (R276). -/
def leastFault (l : List (Nat × Option Nat)) : Option EngErr :=
  (l.filterMap fun e => e.2.map fun o => ({ code := e.1, detail := o } : EngErr)).foldl
    (fun m e => match m with
      | none => some e
      | some f => if e.code < f.code || (e.code = f.code && e.detail < f.detail) then some e else some f) none

/-- A check on alignment. -/
def off64 (a g : Nat) : Bool := a % g != 0

/-- The checks on a drs.topk body (R238, R276). -/
def topkErr (b f : Bytes) : Option EngErr :=
  let n := atLe b 0x14 4
  let stride := atLe b 0x1C 4
  leastFault [
    (2, leastBad (badBytes b 0x12 2 ++ badBytes b 0x38 8 ++ [(0x11, decide (1 < atLe b 0x11 1)), (0x14, n == 0 || decide (1048576 < n)),
      (0x1C, off64 stride 16 || decide (stride < pfE f * pfSize f)), (0x20, off64 (atLe b 0x20 8) 16),
      (0x28, off64 (atLe b 0x28 8) 64), (0x30, off64 (atLe b 0x30 8) 64)])),
    (3, leastBad [(0x18, atLe b 0x18 4 + n > 1048576)])]

/-- The checks on a drs.assign body (R262, R276). -/
def assignErr (b f : Bytes) : Option EngErr :=
  let flags := atLe b 0x11 1
  let n := atLe b 0x18 4
  let lo := atLe b 0x12 2
  let hi := atLe b 0x14 2
  leastFault [
    (2, leastBad (badBytes b 0x16 2 ++ badBytes b 0x1C 4 ++ [(0x11, decide (3 < flags) || flags == 0),
      (0x18, n == 0 || decide (1048576 < n)), (0x20, off64 (atLe b 0x20 8) 64), (0x28, off64 (atLe b 0x28 8) 64),
      (0x30, off64 (atLe b 0x30 8) 64), (0x38, off64 (atLe b 0x38 8) 64)])),
    (3, leastBad [(0x12, pfE f ≤ lo), (0x14, pfE f ≤ hi || hi < lo)])]

/-- An entry lies outside a context's bias claim (R257). -/
def Dev.outsideClaim (d : Dev) (x i : Nat) : Bool :=
  match d.drsSec x with
  | none => true
  | some s =>
    let lo := atLe (d.ctx x).plan (s.off + 0x10) 4
    decide (i < lo) || decide (lo + atLe (d.ctx x).plan (s.off + 0x14) 4 ≤ i)

/-- The checks on a drs.bias body (R255, R257, R276), the last of them that of R258. -/
def Dev.biasErr (d : Dev) (x : Nat) (b f : Bytes) : Option EngErr :=
  let lo := atLe b 0x14 2
  let hi := atLe b 0x16 2
  let base := pfBiasBase f
  leastFault [
    (2, leastBad (badBytes b 0x12 2 ++ badBytes b 0x28 24 ++ [(0x10, decide (2 < atLe b 0x10 1)), (0x18, off64 (atLe b 0x18 8) 16)])),
    (3, leastBad [(0x14, pfE f ≤ lo || d.outsideClaim x (base + lo)),
      (0x16, pfE f ≤ hi || hi < lo || d.outsideClaim x (base + hi))]),
    (8, firstIn (fun e => mapGet (fun _ => false) d.biasWritten (base + e)) (upFrom lo (hi + 1 - lo)))]

/-! ### drs.topk -/

/-- Read for a Dresser descriptor. -/
def drsRead (x a n : Nat) : Eng Bytes := Eng.read x 4 5 a n
/-- Write for a Dresser descriptor. -/
def drsWrite (x a : Nat) (bs : Bytes) : Eng Unit := Eng.write x 4 a bs

/-- Route one token (R239 to R252). -/
def topkToken (q : Desc) (f : Bytes) (t : Nat) : Eng Unit := do
  let b := q.bytes
  let size := pfSize f
  let row ← drsRead q.ctx (atLe b 0x20 8 + (t - atLe b 0x18 4) * atLe b 0x1C 4) (pfE f * size)
  let raw := (upFrom 0 (pfE f)).map fun e => widenScore size (atLe row (e * size) size)
  let s := raw.map canonScore
  let d ← get
  let keys := if pfBias f then s.mapIdx fun e v => fadd v (d.fld (Reg.DRS_BIAS (pfBiasBase f + e)) 0 32) else s
  let sel := selectExperts f keys
  let w := gateWeights f s sel
  Eng.mod fun d =>
    ((d.addFld (Reg.DRS_U_SCORES (d.unitOf q.cl)) 0 64 (pfE f)).bump (Reg.DRS_CTX_NANS q.ctx) (raw.filter fisNan).length).bump
      (Reg.DRS_CTX_ZEROSUM q.ctx) w.2.toNat
  drsWrite q.ctx (atLe b 0x28 8 + t * 8 * pfK f) ((sel.zip w.1).flatMap fun e => routeEntry e.1 0 0 1 e.2)
  if bitsOf (atLe b 0x11 1) 0 1 = 1 then
    sel.forM fun e => do
      let a := atLe b 0x30 8 + 16 * e
      let old ← drsRead q.ctx a 4
      drsWrite q.ctx a (leBytes 4 (leNat old + 1))
  else pure ()

/-- The work of a drs.topk. -/
def topkWork (q : Desc) (f : Bytes) : Eng Unit :=
  (upFrom (atLe q.bytes 0x18 4) (atLe q.bytes 0x14 4)).forM (topkToken q f)

/-! ### drs.assign -/

/-- The count entries of experts from lo on, as read at the descriptor's start. -/
structure Counts where
  lo : Nat
  bytes : Bytes
  deriving DecidableEq, Repr

/-- A field of an expert's count entry (R251). -/
def Counts.at_ (c : Counts) (e off : Nat) : Nat := atLe c.bytes (16 * (e - c.lo) + off) 4
/-- n(e). -/
def Counts.n (c : Counts) (e : Nat) : Nat := c.at_ e 0
/-- P(e). -/
def Counts.p (c : Counts) (e : Nat) : Nat := c.at_ e 4
/-- T(e). -/
def Counts.t (c : Counts) (e : Nat) : Nat := c.at_ e 8

/-- The number of q in [0, x) with q mod R = r (R264). -/
def rankCount (x r m : Nat) : Nat := (x + m - 1 - r) / m

/-- L(e) (R261). -/
def limitOf (f t : Bytes) (e : Nat) : Nat := plRep t (pfLayer f) e * pfCap f * (1 + pfSpill f)

/-- End of the dispatched ranks of an expert (R264). -/
def hiRank (f t : Bytes) (c : Counts) (e : Nat) : Nat := min (c.p e + c.n e) (limitOf f t e)

/-- Dispatched selections of an expert (R264). -/
def dispOf (f t : Bytes) (c : Counts) (e : Nat) : Nat :=
  if limitOf f t e ≤ c.p e then 0 else hiRank f t c e - c.p e

/-- Experts whose counts a drs.assign needs: all up to EXPERT_HI for a dispatch list, else its range (R267). -/
def assignLo (b : Bytes) : Nat := if bitsOf (atLe b 0x11 1) 0 1 = 1 then 0 else atLe b 0x12 2

/-- The checks of R263 on the counts read: COUNT, then PLACEMENT, at the lowest expert. -/
def countErr (b f t : Bytes) (c : Counts) : Option EngErr :=
  let es := upFrom (atLe b 0x12 2) (atLe b 0x14 2 + 1 - atLe b 0x12 2)
  let gtab := bitsOf (atLe b 0x11 1) 1 1 == 1
  leastFault [(6, firstIn (fun e => c.t e < c.p e + c.n e) es),
    (7, firstIn (fun e => plRep t (pfLayer f) e == 0 && (c.n e != 0 || (gtab && c.t e != 0))) es)]

/-- A dispatch entry (R269). -/
def dispatchEntry (e r j round t slot : Nat) (home : Nat × Nat) : Bytes :=
  leBytes 16 (e % 65536 + r % 256 * 2 ^ 16 + j % 16 * 2 ^ 24 + round % 16 * 2 ^ 28 + t % 2 ^ 20 * 2 ^ 32 + slot % 2 ^ 23 * 2 ^ 64 +
    home.1 % 65536 * 2 ^ 96 + home.2 % 1024 * 2 ^ 112)

/-- base[e] (R264): where the dispatched selections of expert e begin in the dispatch list. -/
def listBase (f t : Bytes) (c : Counts) (e : Nat) : Nat := (upFrom 0 e).foldl (fun v i => v + dispOf f t c i) 0

/-- The position of a selection in the dispatch list (R264). -/
def listPos (f t : Bytes) (c : Counts) (e q : Nat) : Nat :=
  let m := plRep t (pfLayer f) e
  let part := fun (v r2 : Nat) => v + rankCount (hiRank f t c e) r2 m - rankCount (c.p e) r2 m
  (upFrom 0 (q % m)).foldl part (listBase f t c e) + rankCount q (q % m) m - rankCount (c.p e) (q % m) m

/-- What the scan counts for each expert: (expert, rank and drops). -/
abbrev Ranks := SMap (Nat × Nat)

/-- One route entry of the scan (R264). -/
def assignOne (q : Desc) (f t : Bytes) (c : Counts) (tok j : Nat) (m : Ranks) : Eng Ranks := do
  let b := q.bytes
  let a := atLe b 0x20 8 + tok * 8 * pfK f + 8 * j
  let ent ← drsRead q.ctx a 8
  let e := atLe ent 0 2
  Eng.failIf (pfE f ≤ e) 0xA tok
  if e < atLe b 0x12 2 || atLe b 0x14 2 < e then pure m
  else do
    let st := mapGet (fun _ => (0, 0)) m e
    Eng.failIf (st.1 = c.n e) 6 e
    let rank := c.p e + st.1
    let wt := atLe ent 4 4
    if limitOf f t e ≤ rank then do
      drsWrite q.ctx a (routeEntry e 0 0 3 wt)
      pure (mapSet (fun _ => (0, 0)) m e (st.1 + 1, st.2 + 1))
    else do
      let rep := plRep t (pfLayer f) e
      let r := rank % rep
      let slot := rank / rep
      let round := slot / pfCap f
      drsWrite q.ctx (atLe b 0x30 8 + 16 * listPos f t c e rank)
        (dispatchEntry e r j round tok slot (plHome t (pfLayer f) e r))
      drsWrite q.ctx a (routeEntry e round r 2 wt)
      pure (mapSet (fun _ => (0, 0)) m e (st.1 + 1, st.2))

/-- The dispatch part of a drs.assign (R264 to R270). -/
def assignScan (q : Desc) (f t : Bytes) (c : Counts) : Eng Unit := do
  let b := q.bytes
  let m ← (upFrom 0 (atLe b 0x18 4)).foldlM
    (fun m tok => (upFrom 0 (pfK f)).foldlM (fun m j => assignOne q f t c tok j m) m) ([] : Ranks)
  (upFrom (atLe b 0x12 2) (atLe b 0x14 2 + 1 - atLe b 0x12 2)).forM fun e => do
    let st := mapGet (fun _ => (0, 0)) m e
    Eng.failIf (st.1 != c.n e) 6 e
    drsWrite q.ctx (atLe b 0x28 8 + 16 * e + 12) (leBytes 4 st.2)
    Eng.mod fun d => d.bump (Reg.DRS_CTX_DROPS q.ctx) st.2

/-- A group table entry of resident i (expert e, replica r) and round j (R274). -/
def groupEntry (f t : Bytes) (c : Counts) (i e r j : Nat) (w : Bytes) : Bytes :=
  let cap := pfCap f
  let rows := rankCount (min (c.t e) (limitOf f t e)) r (plRep t (pfLayer f) e)
  leBytes 4 (min (rows - j * cap) cap) ++ (f.drop 0x54).take 12 ++ leBytes 8 (pfDrawer f i + j * cap * pfRow f) ++
    leBytes 8 (if pfAscRow f = 0 then 0 else pfDrawer f i + pfAsc f + j * cap * pfAscRow f) ++ w ++
    leBytes 8 (pfOut f i + j * cap * pfOutRow f) ++ leBytes 8 0

/-- The group table part of a drs.assign (R274, R275). -/
def assignTable (q : Desc) (f t : Bytes) (c : Counts) : Eng Unit :=
  let b := q.bytes
  (plResidents t (pfLayer f) (plSelf t)).forM fun p =>
    let (i, e, r) := p
    if e < atLe b 0x12 2 || atLe b 0x14 2 < e then pure ()
    else do
      let w ← drsRead q.ctx (pfResw f + 16 * i) 16
      (upFrom 0 (1 + pfSpill f)).forM fun j =>
        drsWrite q.ctx (atLe b 0x38 8 + 64 * (i * (1 + pfSpill f) + j)) (groupEntry f t c i e r j w)

/-- The work of a drs.assign; opr holds the counts read at its start. -/
def assignWork (j : Job) (f t : Bytes) : Eng Unit := do
  let q := j.desc
  let c : Counts := { lo := assignLo q.bytes, bytes := j.opr }
  if bitsOf (atLe q.bytes 0x11 1) 0 1 = 1 then assignScan q f t c else pure ()
  if bitsOf (atLe q.bytes 0x11 1) 1 1 = 1 then assignTable q f t c else pure ()

/-! ### drs.bias -/

/-- The new shadow value of one expert (R256). -/
def biasValue (q : Desc) (old e : Nat) : Eng Nat := do
  let b := q.bytes
  let src := atLe b 0x18 8
  match atLe b 0x10 1 with
  | 0 => do let v ← drsRead q.ctx (src + 4 * e) 4; pure (leNat v)
  | 1 => do let v ← drsRead q.ctx (src + 4 * e) 4; pure (fadd old (leNat v))
  | _ => do
    let v ← drsRead q.ctx (src + 16 * e + 8) 4
    let target := atLe b 0x24 4
    pure (if leNat v < target then fadd old (atLe b 0x20 4) else if target < leNat v then fsub old (atLe b 0x20 4) else old)

/-- A result of infinity is stored as the largest finite value (R256). -/
def clampInf (v : Nat) : Nat := if v = 0x7F800000 then maxFlt else if v = 0xFF800000 then minFlt else v

/-- The work of a drs.bias (R256 to R258). -/
def biasWork (q : Desc) (f : Bytes) : Eng Unit :=
  let lo := atLe q.bytes 0x14 2
  (upFrom lo (atLe q.bytes 0x16 2 + 1 - lo)).forM fun e => do
    let d ← get
    let r := Reg.DRS_BIAS (pfBiasBase f + e)
    let v ← biasValue q (d.fld r 32 32) e
    Eng.failIf (fisNan v) 9 e
    Eng.mod fun d => d.setFld r 32 32 (clampInf v)

/-! ### Units -/

/-- The expert that a route entry names, where it can be read. -/
def Dev.routeExpert (d : Dev) (x a : Nat) : Option Nat :=
  match d.vread x a 2 with
  | .ok bs => some (leNat bs)
  | _ => none

/-- The route entries of a drs.assign whose experts lie in its range, each by the bytes that hold ROUND, REPLICA and STATE
(R250, R264): the others it leaves alone. -/
def Dev.assignEntries (d : Dev) (q : Desc) (f : Bytes) : List (Nat × Nat) :=
  let b := q.bytes
  ((upFrom 0 (atLe b 0x18 4 * pfK f)).filter fun i =>
    (d.routeExpert q.ctx (atLe b 0x20 8 + 8 * i)).any fun e => decide (atLe b 0x12 2 ≤ e) && decide (e ≤ atLe b 0x14 2)).map
      fun i => (atLe b 0x20 8 + 8 * i + 2, 2)

/-- The ranges that a descriptor's outputs take (R277); opr holds the counts that a drs.assign has read. Its part of the dispatch list
is that of its experts (R267), and its group table entries those of its residents whose experts are in its range (R274). -/
def Dev.drsOuts (d : Dev) (q : Desc) (f t opr : Bytes) : List (Nat × Nat) :=
  let b := q.bytes
  match q.kind with
  | 0x30 =>
    d.outRanges q.ctx ((atLe b 0x28 8 + atLe b 0x18 4 * 8 * pfK f, atLe b 0x14 4 * 8 * pfK f) ::
      (if atLe b 0x11 1 = 1 then (upFrom 0 (pfE f)).map fun e => (atLe b 0x30 8 + 16 * e, 4) else []))
  | 0x31 =>
    let lo := atLe b 0x12 2
    let es := upFrom lo (atLe b 0x14 2 + 1 - lo)
    let hi := atLe b 0x14 2
    let c : Counts := { lo := assignLo b, bytes := opr }
    (if bitsOf (atLe b 0x11 1) 0 1 = 1 then
      d.outRanges q.ctx (d.assignEntries q f ++
        (atLe b 0x30 8 + 16 * listBase f t c lo, 16 * (listBase f t c (hi + 1) - listBase f t c lo)) ::
        es.map fun e => (atLe b 0x28 8 + 16 * e + 12, 4))
    else []) ++
      (if bitsOf (atLe b 0x11 1) 1 1 = 1 then
        d.outRanges q.ctx (((plResidents t (pfLayer f) (plSelf t)).filter fun p => decide (lo ≤ p.2.1) && decide (p.2.1 ≤ hi)).map
          fun p => (atLe b 0x38 8 + 64 * (p.1 * (1 + pfSpill f)), 64 * (1 + pfSpill f)))
      else [])
  | _ =>
    let lo := atLe b 0x14 2
    (upFrom lo (atLe b 0x16 2 + 1 - lo)).map fun e => (0x300000000004 + Reg.DRS_BIAS (pfBiasBase f + e), 4)

/-- Descriptors of a kind that a unit runs at once (R230). -/
def unitRoom (kind : Nat) : Nat := if kind = 0x30 then 8 else 1

/-- A descriptor that waits for unit u (R226). -/
def Dev.drsFor (d : Dev) (u : Nat) (q : Desc) : Bool := kindQueue q.kind == 4 && d.unitOf q.cl == u

/-- Read and check the counts of a drs.assign (R263). -/
def assignStart (q : Desc) (f t : Bytes) : Eng Bytes := do
  let b := q.bytes
  let lo := assignLo b
  let bs ← drsRead q.ctx (atLe b 0x28 8 + 16 * lo) (16 * (atLe b 0x14 2 + 1 - lo))
  match countErr b f t { lo := lo, bytes := bs } with
  | some e => throw e
  | none => pure bs

/-- The checks of a descriptor at its start, its profile, and the counts a drs.assign reads. -/
def Dev.drsCheck (d : Dev) (q : Desc) : Except EngErr (Bytes × Bytes) :=
  let b := q.bytes
  let ix := atLe b (if q.kind = 0x32 then 0x11 else 0x10) 1
  match d.profile q.ctx ix with
  | none => .error { code := 1, detail := ix }
  | some f =>
    match q.kind with
    | 0x30 => match topkErr b f with | some e => .error e | none => .ok (f, [])
    | 0x31 =>
      match assignErr b f with
      | some e => .error e
      | none =>
        match assignStart q f (d.placement q.ctx) d with
        | .error e _ => .error e
        | .ok bs _ => .ok (f, bs)
    | _ => match d.biasErr q.ctx b f with | some e => .error e | none => .ok (f, [])

/-- Mark the bias entries of a range (R258). -/
def Dev.markBias (d : Dev) (lo n : Nat) : Dev :=
  { d with biasWritten := (upFrom lo n).foldl (fun m i => mapSet (fun _ => false) m i true) d.biasWritten }

/-- A unit begins the oldest descriptor that waits for it, where it has room for one of its kind (R187, R230, R258, R263, R280). -/
def Dev.drsStart (d : Dev) (u : Nat) : Dev :=
  let js := d.unitJobs u
  if d.bit (Reg.DRS_U_FAULT u) 8 then { d with descs := d.descs.filter fun q => !d.drsFor u q }
  else
    match d.descs.find? (d.drsFor u) with
    | none => d
    | some q =>
      if unitRoom q.kind ≤ (js.filter fun j => j.desc.kind == q.kind).length then d
      else
        let d := { d with descs := d.descs.erase q }
        match d.drsCheck q with
        | .error e => d.drsFault q e
        | .ok (f, opr) =>
          let d := { d with jobs := d.jobs ++ [{ desc := q, opr := opr, outs := d.drsOuts q f (d.placement q.ctx) opr }] }
          if q.kind = 0x32 then
            let lo := atLe q.bytes 0x14 2
            d.markBias (pfBiasBase f + lo) (atLe q.bytes 0x16 2 + 1 - lo)
          else d

/-- A descriptor of a unit does its work and completes, or faults. -/
def Dev.drsRun (d : Dev) (j : Job) : Dev :=
  let q := j.desc
  let b := q.bytes
  let f := (d.profile q.ctx (atLe b (if q.kind = 0x32 then 0x11 else 0x10) 1)).getD []
  let work :=
    match q.kind with
    | 0x30 => topkWork q f
    | 0x31 => assignWork j f (d.placement q.ctx)
    | _ => biasWork q f
  let r := work.runOn d
  match r.2 with
  | some e => r.1.drsFault q e
  | none => { r.1 with jobs := r.1.jobs.erase j }.descDone q 3

/-- The k-th descriptor of a unit does its work and completes (R185, R232, R277, R278). -/
def Dev.drsComplete (d : Dev) (u k : Nat) : Dev :=
  match (d.unitJobs u)[k]? with
  | none => d
  | some j => d.withHubTrk j.desc.ctx j.desc.pc 3 (·.drsRun j)

/-- DRS_DESC_START (R230). -/
def execDrsDescStart (u : Nat) (s : State) : Host.Outcome State Fault Refusal :=
  s.run fun d => if u < 8 then d.drsStart u else d
/-- DRS_DESC_COMPLETE (R232). -/
def execDrsDescComplete (u : Done) (k : Nat) (s : State) : Host.Outcome State Fault Refusal :=
  s.run fun d =>
    if u.n < 8 then
      match (d.unitJobs u.n)[k]? with
      | some j =>
        let e := d.drsComplete u.n k
        e.endLosing d (decide (d.jobs.length ≤ e.jobs.length)) 6 j.desc.cl j.outs u.lost
      | none => d
    else d

end Sys2Proof.Machine
end

