-- ==== Sys2Proof/Machine/Sections.lean ====
section
/-!
DEFINITION. The load checks of a step plan (R83 to R98, R150, R152, R899) and of each section by the block that owns it (R228,
R236, R272, R294, R528, R551, R662, R663, R700, R711, R713, R732, R733). A check answers the plan offsets it rejects; DETAIL is the
lowest.
-/

namespace Sys2Proof.Machine

/-- The offsets of a list whose check fails, from a base. -/
def offs (base : Nat) (l : List (Nat × Bool)) : List Nat := (l.filter Prod.snd).map fun e => base + e.1

/-- The least of a list. -/
def leastOf : List Nat → Option Nat
  | [] => none
  | a :: t => some (t.foldl min a)

/-- A value outside lo to hi. -/
def outOf (lo v hi : Nat) : Bool := decide (v < lo) || decide (hi < v)

/-- The loaded contexts other than x. -/
def Dev.others (d : Dev) (x : Nat) : List Nat := allCtxs.filter fun y => y != x && d.loaded y

/-- Elements that repeat an earlier one, as positions. -/
def repeats (l : List Nat) : List Nat :=
  (upFrom 0 l.length).filter fun i => (l.take i).contains (l.getD i 0)

/-! ### The header and the section table (R84 to R87, R899) -/

/-- Rejected header offsets (R85, R899). -/
def Dev.badHeader (d : Dev) (x : Nat) (p : Bytes) : List Nat :=
  offs 0 [(0x10, (d.others x).any fun y => planJob (d.ctx y).plan == planJob p), (0x12, atLe p 0x12 1 != x),
    (0x13, outOf 1 (atLe p 0x13 1) 16), (0x14, outOf 1 (planDevices p) 65536), (0x30, decide (planPeriod p < 1024)),
    (0x3C, decide (1 < atLe p 0x3C 2)), (0x3E, atLe p 0x3E 2 != 0)]

/-- Entry size of a section that is a plain table (R88 to R96, R699); 0 for the others. -/
def entrySize (ty : Nat) : Nat :=
  match ty with
  | 1 => 32 | 2 => 16 | 3 => 16 | 4 => 16 | 5 => 8 | 6 => 16 | _ => 0

/-- Two sections share a byte. -/
def secMeet (a b : Sec) : Bool := decide (a.off < b.off + b.size) && decide (b.off < a.off + a.size) &&
  decide (0 < a.size) && decide (0 < b.size)

/-- Rejected offsets of section descriptor i (R86, R87). DESIGN CHOICE (log entry 63): a plain table that COUNT entries overfill is
rejected at COUNT. -/
def badSection (p : Bytes) (i : Nat) : List Nat :=
  let o := 0x40 + 16 * i
  let s := planSec p i
  let earlier := (upFrom 0 i).map (planSec p)
  let top := 0x40 + 16 * atLe p 0x13 1
  offs o [(0, outOf 1 s.type 13 || earlier.any fun e => e.type == s.type), (2, atLe p (o + 2) 2 != 0),
    (4, decide (s.size < s.count * entrySize s.type)),
    (8, s.off % 64 != 0 || decide (p.length < s.off + s.size) || (decide (s.off < top) && decide (0 < s.size)) ||
      earlier.any (secMeet s))]

/-- Rejected offsets of the section table. -/
def badSections (p : Bytes) : List Nat :=
  if p.length < 0x40 + 16 * atLe p 0x13 1 then [0x40] else (upFrom 0 (atLe p 0x13 1)).flatMap (badSection p)

/-- Offset of the COUNT field of a section's descriptor (R83). -/
def countAt (p : Bytes) (ty : Nat) : Nat :=
  match (planSecs p).findIdx? fun s => s.type == ty with
  | some i => 0x40 + 16 * i + 4
  | none => 0

/-! ### Cluster table, trackers, sync table, wake table, windows -/

/-- IMAGE_LEN rounded up to a multiple of 4 KiB (R149). -/
def imageSpan (n : Nat) : Nat := ceilDiv n 4096 * 4096

/-- The extents that loaded contexts hold in a cluster's code store, in ascending base. -/
def Dev.extents (d : Dev) (c : Nat) : List (Nat × Nat) :=
  let l := (allCtxs.filter d.loaded).flatMap fun y => ((d.ctx y).images.filter fun e => e.cl == c).map fun e => (e.base, e.len)
  (List.range 128).flatMap fun k => l.filter fun e => e.1 / 4096 == k

/-- The lowest offset of a free extent of n bytes among extents in ascending base (R149). -/
def fitAt (n : Nat) : Nat → List (Nat × Nat) → Option Nat
  | pos, [] => if pos + n ≤ 0x80000 then some pos else none
  | pos, (b, m) :: t => if pos + n ≤ b then some pos else fitAt n (max pos (b + m)) t

/-- Where the image of a cluster table entry goes in its code store (R149), from its start at offset 0x70_0000. -/
def Dev.placeImage (d : Dev) (e : ClusterEntry) : Option Nat :=
  if 0x80000 < e.len then none else fitAt (imageSpan e.len) 0 (d.extents e.cl)

/-- The domains of a cluster are on (R152). -/
def Dev.clusterOn (d : Dev) (c : Nat) : Bool := d.domOn (c / 8) && d.domOn (dieDomain (c / 8))

/-- Rejected offsets of the cluster table (R88, R150, R152). -/
def Dev.badClusters (d : Dev) (p : Bytes) : List Nat :=
  match planFind p 1 with
  | none => [0]
  | some s =>
    if s.count = 0 then [countAt p 1]
    else
      let es := planClusters p
      (es.flatMap fun e =>
        offs e.off [(0, decide (127 < e.cl) || !d.clusterOn e.cl || (d.placeImage e).isNone), (1, !zeroAt p (e.off + 1) 3),
          (4, decide (65536 < e.quota)), (8, e.image % 64 != 0 || decide (0x6000000000 < e.image + e.len)),
          (16, e.len % 16 != 0 || e.len == 0), (20, e.entry % 16 != 0 || decide (e.len ≤ e.entry)), (24, !zeroAt p (e.off + 24) 8)])
      ++ (repeats (es.map ClusterEntry.cl)).map fun i => s.off + 32 * i

/-- Quotas of the loaded contexts other than x (R98). -/
def Dev.quotaSum (d : Dev) (x : Nat) : Nat :=
  (d.others x).foldl (fun v y => (planClusters (d.ctx y).plan).foldl (fun v e => v + e.quota) v) 0

/-- The QUOTA at which the sum passes 245,760, from a running total (R98). -/
def overQuota : Nat → List ClusterEntry → List Nat
  | _, [] => []
  | v, e :: t => if 245760 < v + e.quota then [e.off + 4] else overQuota (v + e.quota) t

/-- Rejected offsets of the sync initialisation table (R91, R92). -/
def Dev.badSync (d : Dev) (x : Nat) (p : Bytes) : List Nat :=
  let es := planSyncs p
  let ids := es.map SyncEntry.obj
  (es.flatMap fun e =>
    let chain := bitsOf e.flags 1 1 == 1
    offs e.off [(0, (d.obj e.obj).owned && (d.obj e.obj).ctx != x), (2, decide (3 < e.flags)), (3, atLe p (e.off + 3) 1 != 0),
      (4, chain && decide (e.target ≤ e.init)), (12, chain && !ids.contains e.next), (14, atLe p (e.off + 14) 2 != 0)])
  ++ (repeats ids).map fun i => (planFind p 2).elim 0 Sec.off + 16 * i

/-- Wake entries of a group in offset order, equal offsets in table order. -/
def wakesOf (p : Bytes) (g : Nat) : List WakeEntry := ((planWakes p).filter fun e => e.group == g).mergeSort fun a b => a.at_ ≤ b.at_

/-- Entries of a group that repeat the action of the one before. -/
def noTurn : List WakeEntry → List Nat
  | a :: b :: t => (if a.action = b.action then [b.off] else []) ++ noTurn (b :: t)
  | _ => []

/-- Rejected offsets of the wake table (R93, R94). -/
def badWakes (p : Bytes) : List Nat :=
  ((planWakes p).flatMap fun e =>
    offs e.off [(0, decide (15 < e.group)), (1, e.action != 1 && e.action != 2), (2, !zeroAt p (e.off + 2) 2),
      (4, decide (e.at_ < -65536) || (e.action == 1 && decide (e.at_ < 0))), (8, !zeroAt p (e.off + 8) 8)])
  ++ ((upFrom 0 16).flatMap fun g =>
      let l := wakesOf p g
      let active := (planClusters p).any fun e => e.cl / 8 == g
      let ends := l.getLast?.any fun e => e.action == 1
      let starts := l.head?.any fun e => e.action == 2 && decide (e.at_ ≤ -4096)
      noTurn l ++ (if active && ends && !starts then (l.head?.map WakeEntry.off).toList else []))
  ++ (if planLead p < planWakeLead p then [0x34] else [])

/-- Rejected offsets of the background window table (R95, R143). -/
def badWindows (p : Bytes) : List Nat :=
  (planWindows p).flatMap fun w =>
    let dram := decide (w.res ≤ 1)
    let timed := decide (w.res ≤ 3)
    let weight := w.res == 4
    offs w.off [(0, decide (4 < w.res)), (1, atLe p (w.off + 1) 1 != 0),
      (2, match w.res with | 0 => 255 < w.mask | 1 => 15 < w.mask | _ => w.mask != 1),
      (4, (dram && decide (6400 < w.period)) || (timed && w.period == 0) || (weight && w.period != 0)),
      (8, (dram && (decide (w.len < 64) || decide (100 * w.len < w.period))) || (timed && decide (w.period < 4 * w.len)) ||
        (weight && outOf 1 w.len 15)),
      (12, (timed && decide (w.period ≤ w.phase)) || (weight && w.phase != 0))]

/-! ### Seeds, marks and fingerprint slots (R700, R711, R713) -/

/-- Rejected offsets of the seed table (R711). -/
def badSeeds (p : Bytes) : List Nat :=
  match planFind p 5 with
  | none => []
  | some s => if outOf 1 s.count 16 then [countAt p 5] else []

/-- Two mark entries, at plan offsets, cover one image offset of one cluster (R700). -/
def marksMeet (p : Bytes) (a b : Nat) : Bool :=
  let ca := atLe p (a + 2) 1
  let cb := atLe p (b + 2) 1
  (ca == cb || ca == 0xFF || cb == 0xFF) && decide (atLe p (a + 4) 4 < atLe p (b + 8) 4) &&
    decide (atLe p (b + 4) 4 < atLe p (a + 8) 4)

/-- Rejected offsets of the operation mark table (R699, R700). -/
def badMarks (p : Bytes) : List Nat :=
  match planFind p 6 with
  | none => []
  | some s =>
    if outOf 1 s.count 4096 then [countAt p 6]
    else
      (upFrom 0 s.count).flatMap fun i =>
        let o := s.off + 16 * i
        let earlier := (upFrom 0 i).map fun j => s.off + 16 * j
        let lo := atLe p (o + 4) 4
        let hi := atLe p (o + 8) 4
        offs o [(0, decide (1023 < atLe p o 2)), (2, decide (127 < atLe p (o + 2) 1) && atLe p (o + 2) 1 != 0xFF),
          (3, decide (1 < atLe p (o + 3) 1) || earlier.any fun e => atLe p e 2 == atLe p o 2 && atLe p (e + 3) 1 != atLe p (o + 3) 1),
          (4, lo % 16 != 0 || earlier.any (marksMeet p o)), (8, hi % 16 != 0 || decide (hi ≤ lo)), (12, atLe p (o + 12) 4 != 0)]

/-- The segments that a plan would have (R731, R732). -/
def Dev.segsOf (d : Dev) (p : Bytes) : List Seg := if (planFind p 13).isSome then planSegs p else defaultSegs d.capSize

/-- The device physical runs of a range that lies in one segment. -/
def segRun (nStk : Nat) (segs : List Seg) (va n : Nat) : Option (List (Nat × Nat × Nat)) :=
  (segs.find? fun g => decide (g.vbase ≤ va) && decide (va < g.vbase + g.size)).map fun g =>
    let o := g.pbase + (va - g.vbase)
    if g.kind = 2 then (cutAt 256 o n).map fun q => (phbm nStk q.1, q.2, va + (q.1 - o)) else [(o, n, va)]

/-- The device physical runs (address, length, virtual address) of a range by segments whatever their PERM (R713). -/
def segRuns (nStk : Nat) (segs : List Seg) (va n : Nat) : Option (List (Nat × Nat × Nat)) :=
  ((cutAt 0x200000 va n).mapM fun q => segRun nStk segs q.1 q.2).map List.flatten

/-- A run that a fingerprint slot may observe (R713). -/
def Dev.slotRunOk (d : Dev) (r : Nat × Nat × Nat) : Bool := (inHbm r.1 r.2.1 || d.inCap r.1 r.2.1) && !d.touchesPool r.1 r.2.1

/-- A run that a count vector may lie in (R713). -/
def Dev.countRunOk (d : Dev) (r : Nat × Nat × Nat) : Bool :=
  d.slotRunOk r || (inSpad r.1 r.2.1 && !touchesCode (r.1 % 0x1000000) r.2.1)

/-- The slot entries of section 0x0007, as plan offsets. -/
def slotEntries (p : Bytes) (s : Sec) : List Nat := (upFrom 0 (atLe p s.off 2)).map fun i => s.off + 0x10 + 32 * i
/-- The count entries of section 0x0007, as plan offsets. -/
def countEntries (p : Bytes) (s : Sec) : List Nat :=
  (upFrom 0 (atLe p (s.off + 2) 2)).map fun i => s.off + 0x10 + 32 * atLe p s.off 2 + 16 * i

/-- The EXPERTS at which the sum passes 262,144 (R713). -/
def overExperts (p : Bytes) : Nat → List Nat → List Nat
  | _, [] => []
  | v, o :: t => if 262144 < v + atLe p (o + 8) 4 then [o + 8] else overExperts p (v + atLe p (o + 8) 4) t

/-- Rejected offsets of the fingerprint slot table (R712, R713): only a range of legal size is translated. -/
def Dev.badSlots (d : Dev) (x : Nat) (p : Bytes) : List Nat :=
  match planFind p 7 with
  | none => []
  | some s =>
    let n := atLe p s.off 2
    let m := atLe p (s.off + 2) 2
    let segs := d.segsOf p
    let runs := segRuns (planStacks p) segs
    let head := offs s.off [(0, decide (4096 < n) || decide (s.size < 0x10 + 32 * n)), (2, decide (64 < m) || decide (s.size < 0x10 + 32 * n + 16 * m)),
      (4, !zeroAt p (s.off + 4) 12)] ++ (if s.count ≠ n then [countAt p 7] else [])
    if !head.isEmpty then head
    else
      let held := (d.others x).flatMap fun y => (d.ctx y).slots.map FpSlot.slot
      let es := slotEntries p s
      let base := fun o => atLe p (o + 8) 8
      let size := fun o => atLe p (o + 0x10) 8
      let sized := fun o => size o % 256 == 0 && !outOf 256 (size o) (2 ^ 40)
      (es.flatMap fun o =>
        offs o [(0, decide (4095 < atLe p o 2) || held.contains (atLe p o 2)), (2, decide (1023 < atLe p (o + 2) 2) && atLe p (o + 2) 2 != 0xFFFF),
          (4, atLe p (o + 4) 4 != 0),
          (8, base o % 256 != 0 || (sized o && ((runs (base o) (size o)).elim true (fun l => !l.all d.slotRunOk) ||
            (es.takeWhile fun q => q != o).any fun q => overlap (base o) (size o) (base q) (size q)))),
          (0x10, !sized o), (0x18, !zeroAt p (o + 0x18) 8)])
      ++ ((repeats (es.map fun o => atLe p o 2)).map fun i => s.off + 0x10 + 32 * i)
      ++ ((countEntries p s).flatMap fun o =>
        offs o [(0, atLe p o 8 % 64 != 0 || (!outOf 1 (atLe p (o + 8) 4) 65536 &&
            (runs (atLe p o 8) (16 * atLe p (o + 8) 4)).elim true (fun l => !l.all d.countRunOk))),
          (8, outOf 1 (atLe p (o + 8) 4) 65536), (14, atLe p (o + 14) 2 != 0)])
      ++ overExperts p 0 (countEntries p s)

/-! ### The Dresser (R228, R236, R272) -/

/-- An FP32 encoding is finite. -/
def finite32 (v : Nat) : Bool := bitsOf v 23 8 != 255

/-- The units that an assignment uses for the groups of a mask. -/
def unitsFor (assign groups : Nat) : List Nat :=
  ((upFrom 0 16).filter fun g => bitsOf groups g 1 == 1).map fun g => bitsOf assign (4 * g) 4

/-- GROUP_UNIT of a plan; unit g / 2 serves group g without the section (R226). -/
def planUnits (p : Bytes) : Nat := if (planFind p 8).isSome then secAt p 8 8 8 else 0x7766554433221100

/-- Loaded contexts that run as partitions beside a plan's (R228, R528). -/
def Dev.beside (d : Dev) (x : Nat) (p : Bytes) : List Nat :=
  (d.others x).filter fun y =>
    planPartitioned p && planPartitioned (d.ctx y).plan && planPart (d.ctx y).plan != planPart p

/-- Drawer checks of a profile (R272), as offsets within it. -/
def badDrawers (f : Bytes) : List (Nat × Bool) :=
  let slots := pfCap f * (1 + pfSpill f)
  let stride := atLe f 0x28 8
  let row := slots * pfRow f
  let tag := slots * 8
  let asc := slots * pfAscRow f
  let t := pfTag f
  let a := pfAsc f
  [(0x28, decide (stride < row) || decide (stride < t + tag) || (decide (0 < asc) && decide (stride < a + asc))),
   (0x48, overlap 0 row t tag || (decide (a ≤ t) && overlap a asc t tag)),
   (0x4C, overlap 0 row a asc || (decide (t < a) && overlap a asc t tag)),
   (0x38, decide (atLe f 0x38 8 < slots * pfOutRow f))]

/-- Checks of a profile, as offsets within it; the claim is lo and n (R235, R236). DESIGN CHOICE (log entry 116): too few experts in
the kept groups for KSEL name TOPG_M1. -/
def badProfile (f : Bytes) (lo n : Nat) : List (Nat × Bool) :=
  let e := pfE f
  let g := pfG f
  let per := e / g
  [(2, outOf 1 (pfK f) 16 || decide (e < pfK f)), (3, decide (3 < pfGate f)), (4, decide (1 < atLe f 4 1)), (5, e % g != 0),
   (6, decide (g < pfTop f) || decide (pfTop f * per < pfK f)), (7, outOf 1 (pfJ f) 4 || decide (per < pfJ f)),
   (8, !finite32 (pfScale f)), (0xC, outOf 1 (pfCap f) 1048576), (0x10, decide (7 < pfSpill f)),
   (0x11, decide (1 < atLe f 0x11 1)), (0x14, pfBias f && (decide (pfBiasBase f < lo) || decide (lo + n < pfBiasBase f + e))),
   (0x18, pfRow f % 16 != 0 || outOf 16 (pfRow f) 65536), (0x1C, pfOutRow f % 16 != 0 || outOf 16 (pfOutRow f) 65536),
   (0x20, atLe f 0x20 8 % 64 != 0), (0x28, atLe f 0x28 8 % 64 != 0), (0x30, atLe f 0x30 8 % 64 != 0),
   (0x38, atLe f 0x38 8 % 64 != 0), (0x40, pfResw f % 64 != 0), (0x48, pfTag f % 64 != 0), (0x4C, pfAsc f % 64 != 0),
   (0x50, pfAscRow f % 16 != 0), (0x60, !zeroAt f 0x60 32)] ++ badDrawers f

/-- The bias claim of a plan (R234): first entry and number. -/
def planClaim (p : Bytes) : Nat × Nat := if (planFind p 8).isSome then (secAt p 8 0x10 4, secAt p 8 0x14 4) else (0, 0)

/-- The assignment of a plan gives a unit to groups of two partitions that run at the same time (R226, R228). -/
def Dev.unitsClash (d : Dev) (x : Nat) (p : Bytes) : Bool :=
  let taken := (d.beside x p).flatMap fun y => unitsFor (planUnits (d.ctx y).plan) (planGroups (d.ctx y).plan)
  (unitsFor (planUnits p) (planGroups p)).any fun u => taken.contains u

/-- A bias claim meets that of another loaded context, which holds it until it is released (R236, R237). -/
def Dev.biasClaimed (d : Dev) (x lo n : Nat) : Bool :=
  (d.others x).any fun y => overlap lo n (d.fld (Reg.DRS_CTX_BIAS y) 0 17) (d.fld (Reg.DRS_CTX_BIAS y) 32 17)

/-- Rejected offsets of the Dresser section (R228, R236). DESIGN CHOICE (log entry 116): a section too short for its profiles or its
initial values is rejected at PROFILES or BIAS_COUNT; a check that spans fields names TOPG_M1, or BIAS_LO. DESIGN CHOICE (log entry
113): a plan without the section whose default assignment clashes is rejected with DETAIL 0, having no GROUP_UNIT. -/
def Dev.badDresser (d : Dev) (x : Nat) (p : Bytes) : List Nat :=
  match planFind p 8 with
  | none => if d.unitsClash x p then [0] else []
  | some s =>
    let np := atLe p s.off 2
    let nb := atLe p (s.off + 4) 4
    let (lo, n) := planClaim p
    let units := planUnits p
    let claimed := d.biasClaimed x lo n
    offs s.off [(0, outOf 1 np 64 || decide (s.size < 0x40 + 128 * np)), (2, atLe p (s.off + 2) 2 != 0),
      (4, decide (n < nb) || decide (s.size < 0x40 + 128 * np + 4 * nb)),
      (8, (upFrom 0 16).any (fun g => decide (7 < bitsOf units (4 * g) 4)) || d.unitsClash x p),
      (0x10, decide (65536 < lo + n) || claimed), (0x14, decide (65536 < n)), (0x18, !zeroAt p (s.off + 0x18) 40)]
    ++ (if s.count ≠ np then [countAt p 8] else [])
    ++ ((upFrom 0 (min np 64)).flatMap fun i => offs (s.off + 0x40 + 128 * i) (badProfile (profileOf p s i) lo n))
    ++ ((upFrom 0 (min nb n)).flatMap fun i =>
        let o := s.off + 0x40 + 128 * np + 4 * i
        offs o [(0, !finite32 (atLe p o 4))])

/-! ### Placement tables (R294) -/

/-- An area of a placement table: its offset field, offset and length. -/
def plAreas (t : Bytes) : List (Nat × Nat × Nat) :=
  [(0x24, atLe t 0x24 4, 2 * plRanks t), (0x28, atLe t 0x28 4, 32 * plLayers t), (0x2C, atLe t 0x2C 4, 8 * plExperts t),
   (0x30, atLe t 0x30 4, 4 * plReplicas t)]

/-- Checks of the areas of a placement table. DESIGN CHOICE (log entry 117): the 64 header bytes count as an area, so that an offset
below 64 is rejected, for an empty area too. -/
def badAreas (t : Bytes) : List (Nat × Bool) :=
  (plAreas t).map fun a =>
    let earlier := (plAreas t).takeWhile fun b => b.1 != a.1
    (a.1, a.2.1 % 64 != 0 || decide (a.2.1 < 64) || decide (atLe t 8 4 < a.2.1 + a.2.2) ||
      earlier.any fun b => overlap a.2.1 a.2.2 b.2.1 b.2.2)

/-- Expert entry i passes its own checks on REP and FIRST (R294). -/
def plSound (t : Bytes) (i : Nat) : Bool :=
  let rep := atLe t (plExpertAt t i + 4) 2
  decide (rep ≤ 256) && decide (atLe t (plExpertAt t i) 4 + rep ≤ plReplicas t)

/-- Replica entry indices of a layer, expert by expert (R292); an expert entry that fails its own checks has none. -/
def plEntries (t : Bytes) (l : Nat) : List Nat :=
  ((upFrom 0 (plE t l)).filter fun e => plSound t (plExpert0 t l + e)).flatMap fun e =>
    (upFrom 0 (plRep t l e)).map fun r => plReplicaAt t l e r

/-- Offset of a replica entry. -/
def plEntryAt (t : Bytes) (i : Nat) : Nat := atLe t 0x30 4 + 4 * i

/-- Replica entries of a layer on a group-local rank, ascending. -/
def plOn (t : Bytes) (l rank : Nat) : List Nat := ((plEntries t l).filter fun i => (plReplica t i).1 == rank).mergeSort

/-- Entries whose RESIDENT is too high or repeats, of those on one rank. -/
def badResidents (t : Bytes) (es : List Nat) : List Nat :=
  let vs := es.map fun i => (plReplica t i).2
  ((upFrom 0 es.length).filter fun j => decide (es.length ≤ vs.getD j 0) || (vs.take j).contains (vs.getD j 0)).map
    fun j => plEntryAt t (es.getD j 0) + 2

/-- Layer l has expert entries and exchange groups of its own (R294): GS is not 0, and EXPERT0 + E is within EXPERTS. -/
def plWhole (t : Bytes) (l : Nat) : Bool := plGs t l != 0 && decide (plExpert0 t l + plE t l ≤ plExperts t)

/-- Rejected offsets of layer l of a placement table. -/
def badLayer (t : Bytes) (l : Nat) : List Nat :=
  let o := plLayerAt t l
  let gs := plGs t l
  let w := plWptr t l
  offs o [(2, atLe t (o + 2) 2 != 0), (4, gs == 0 || plRanks t % gs != 0), (8, decide (plExperts t < plExpert0 t l + plE t l)),
    (12, w != 0xFFFFFFFF && (w % 16 != 0 || (plWhole t l && decide (atLe t 8 4 < w + 16 * (plOn t l (plSelf t % gs)).length)))),
    (16, !zeroAt t (o + 16) 16)]
  ++ (if plWhole t l then
        (((plEntries t l).filter fun i => decide (gs ≤ (plReplica t i).1)).map (plEntryAt t))
        ++ ((upFrom 0 gs).flatMap fun r => badResidents t (plOn t l r))
      else [])

/-- The replica entry that takes a rank's residents past 1,024 (R294). -/
def overResidents (t : Bytes) (rank : Nat) : List Nat :=
  let es := ((upFrom 0 (plLayers t)).filter (plWhole t)).flatMap fun l => plOn t l (rank % plGs t l)
  ((es.drop 1024).take 1).map (plEntryAt t)

/-- Rejected offsets of a placement table by its own checks (R290 to R294), for a number of devices and a node. A header that fails
lies before all else; past it every check is made on what the others leave sound. -/
def badTable (t : Bytes) (devices node size : Nat) : List Nat :=
  let s := atLe t 8 4
  let head := offs 0 ([(8, s != size || s % 64 != 0 || decide (s < 64)), (0xC, crc32c (zeroedAt (t.take s) 0xC 4) != atLe t 0xC 4),
    (0x10, plRanks t != devices), (0x14, decide (plRanks t ≤ plSelf t)), (0x18, outOf 1 (plLayers t) 256), (0x1A, atLe t 0x1A 2 != 0),
    (0x34, !zeroAt t 0x34 12)] ++ badAreas t)
  if !head.isEmpty then head
  else
    let nodes := (upFrom 0 (plRanks t)).map (plNode t)
    let exps := (upFrom 0 (plExperts t)).flatMap fun i =>
      let o := plExpertAt t i
      let rep := atLe t (o + 4) 2
      offs o [(0, decide (plReplicas t < atLe t o 4 + rep)), (4, decide (256 < rep)), (6, atLe t (o + 6) 2 != 0)]
    (if plNode t (plSelf t) ≠ node then [atLe t 0x24 4 + 2 * plSelf t] else [])
    ++ ((repeats nodes).map fun i => atLe t 0x24 4 + 2 * i) ++ exps
    ++ (upFrom 0 (plLayers t)).flatMap (badLayer t) ++ (upFrom 0 (plRanks t)).flatMap (overResidents t)

/-- The profile checks of R294: plan offsets, in section 0x0008, of LAYER and E_M1 fields. A profile is held against the table's
LAYERS, and against the layer's entry where that lies in the table. -/
def badProfiles (p : Bytes) (t : Bytes) : List Nat :=
  match planFind p 8 with
  | none => []
  | some s =>
    (upFrom 0 (atLe p s.off 2)).flatMap fun i =>
      let f := profileOf p s i
      offs (s.off + 0x40 + 128 * i) [(0x12, decide (plLayers t ≤ pfLayer f)),
        (0, decide (pfLayer f < plLayers t) && decide (plLayerAt t (pfLayer f) + 32 ≤ t.length) && pfE f != plE t (pfLayer f))]

/-- The placement table of a plan. -/
def planTable (p : Bytes) : Bytes :=
  match planFind p 9 with
  | none => []
  | some s => (p.drop s.off).take s.size

/-- Rejected offsets of the placement section (R294). -/
def Dev.badPlacement (d : Dev) (p : Bytes) : List Nat :=
  match planFind p 9 with
  | none => []
  | some s =>
    let t := planTable p
    ((badTable t (planDevices p) d.node s.size).map fun o => s.off + o) ++ badProfiles p t

/-! ### The Cabinet (R528) -/

/-- Pool i of section 0x000A: BASE, buffer size exponent and COUNT. -/
def cabPool (p : Bytes) (s : Sec) (i : Nat) : Nat × Nat × Nat :=
  let o := s.off + 0x40 + 16 * i
  (atLe p o 8, atLe p (o + 8) 1, atLe p (o + 12) 4)

/-- The pools of section 0x000A of a plan. -/
def planPools (p : Bytes) : List (Nat × Nat × Nat) :=
  match planFind p 10 with
  | none => []
  | some s => (upFrom 0 (min (atLe p s.off 2) 8)).map (cabPool p s)

/-- Bytes of a pool. -/
def poolLen (q : Nat × Nat × Nat) : Nat := q.2.2 * 2 ^ q.2.1

/-- A client that the Cabinet lists (R524). -/
def cabClient (c : Nat) : Bool := cabLargest c != 0

/-- The home pool of a client among pools (R527). -/
def homeIn (pools : List (Nat × Nat × Nat)) (c : Nat) : Option Nat := pools.findIdx? fun q => decide (cabLargest c ≤ 2 ^ q.2.1)

/-- Field of n bytes of a Cabinet section; 0 without it. -/
def cabFld (p : Bytes) (off n : Nat) : Nat := secAt p 10 off n

/-- WAYS of a plan; all of them without a Cabinet section (R521). -/
def planWays (p : Bytes) : Nat := if (planFind p 10).isSome then cabFld p 4 2 else 0xFFFF

/-- A pool lies wholly in HBM or in one window's ordinary scratchpad (R528). -/
def poolPlaced (a n : Nat) : Bool := inHbm a n || (inSpad a n && !touchesCode (a % 0x1000000) n)

/-- The COUNT at which the buffers pass 65,536 (R528). -/
def overBuffers (o : Nat) : Nat → List (Nat × Nat × Nat) → List Nat
  | _, [] => []
  | v, q :: t => if 65536 < v + q.2.2 then [o + 12] else overBuffers (o + 16) (v + q.2.2) t

/-- Rejected offsets of the Cabinet section (R526, R528). -/
def Dev.badCabinet (d : Dev) (x : Nat) (p : Bytes) : List Nat :=
  match planFind p 10 with
  | none => []
  | some s =>
    let np := atLe p s.off 2
    let en := cabFld p 2 2
    let ways := cabFld p 4 2
    let pin := cabFld p 6 2
    let pb := cabFld p 8 8
    let ps := cabFld p 0x10 8
    let pools := planPools p
    let on := (upFrom 0 16).filter fun c => bitsOf en c 1 == 1
    let theirs := d.others x
    let alloc := fun y => d.fld (Reg.CAB_HC_CTX_WAYS y) 0 16
    let pinned := fun y => d.fld (Reg.CAB_HC_CTX_WAYS y) 16 16
    let taken := theirs.flatMap d.cabHas
    offs s.off [(0, decide (8 < np) || decide (s.size < 0x40 + 16 * np)),
      (2, on.any fun c => !cabClient c || (homeIn pools c).isNone),
      (4, ways == 0 || ways &&& pin != 0 || (d.beside x p).any fun y => ways &&& alloc y != 0),
      (6, ((pin == 0) != (ps == 0)) || theirs.any fun y => pin &&& (alloc y ||| pinned y) != 0),
      (8, pb % 128 != 0 || decide (0x6000000000 < pb + ps) || (ps == 0 && pb != 0)),
      (0x10, ps % 128 != 0 || decide (popCount 16 pin * 12582912 < ps)), (0x18, !zeroAt p (s.off + 0x18) 40)]
    ++ (if s.count ≠ np then [countAt p 10] else [])
    ++ ((pools.mapIdx fun i q =>
        let o := s.off + 0x40 + 16 * i
        let n := poolLen q
        offs o [(0, q.1 % min (2 ^ q.2.1) 4096 != 0 || !poolPlaced q.1 n || overlap q.1 n pb ps ||
            (pools.take i).any (fun r => overlap q.1 n r.1 (poolLen r)) || taken.any fun r => overlap q.1 n r.1 (poolLen r)),
          (8, outOf 8 q.2.1 18 || (0 < i && decide (q.2.1 ≤ (pools.getD (i - 1) (0, 0, 0)).2.1))), (9, !zeroAt p (o + 9) 3),
          (12, outOf 1 q.2.2 16384 || decide (q.2.2 < (on.filter fun c => homeIn pools c == some i).length + 1))]).flatten)
    ++ overBuffers (s.off + 0x40) (taken.foldl (fun v q => v + q.2.2) 0) pools

/-! ### The tier section (R551) -/

/-- Field of 4 bytes of a tier section; 0 without it. -/
def tierFld (p : Bytes) (off : Nat) : Nat := secAt p 11 off 4

/-- Frames of an object. -/
def TierObj.frames (o : TierObj) : Nat := o.size / 65536

/-- The MAX of a pool in a plan. -/
def planMax (p : Bytes) (pool : Nat) : Nat := tierFld p (0x1C + 8 * pool)
/-- The MIN of a pool in a plan. -/
def planMin (p : Bytes) (pool : Nat) : Nat := tierFld p (0x18 + 8 * pool)
/-- MODE HINT of a plan's tier section. -/
def planHint (p : Bytes) : Bool := secAt p 11 0 1 == 1
/-- NS_MASK of a plan. -/
def planNs (p : Bytes) : Nat := secAt p 11 0x28 8

/-- Checks of pool t's frames (R551): offsets of MIN and MAX. -/
def Dev.badFrames (d : Dev) (x : Nat) (p : Bytes) (t : Nat) : List (Nat × Bool) :=
  let lo := planMin p t
  let hi := planMax p t
  let others := (d.others x).foldl (fun v y => v + planMin (d.ctx y).plan t) 0
  [(0x18 + 8 * t, decide (hi < lo) || decide (d.poolFrames t < others + lo)),
   (0x1C + 8 * t, decide (d.poolFrames t < hi) || (!planHint p && lo != hi))]

/-- A namespace may be bound (R551). -/
def Dev.nsFree (d : Dev) (x k : Nat) : Bool :=
  d.bit (Reg.CHEST_NS_INFO k) 0 && !((d.others x).any fun y => bitsOf (planNs (d.ctx y).plan) k 1 == 1 && d.bit (Reg.CHEST_NS_INFO k) 2)

/-- Rejected offsets of an object entry; earlier are the objects before it (R550, R551). -/
def Dev.badObject (d : Dev) (p : Bytes) (earlier : List TierObj) (o : TierObj) : List Nat :=
  let home := o.addr
  offs o.off [(0, outOf 1 o.home 2), (1, decide (3 < o.flags) || (bitsOf o.flags 0 1 == 1 && o.home != 1)),
    (2, if o.home = 2 then decide (63 < o.ns) || bitsOf (planNs p) o.ns 1 == 0 else o.ns != 0), (3, !zeroAt p (o.off + 3) 5),
    (8, o.window % 65536 != 0 || decide (2 ^ 48 < o.window + o.size) || earlier.any fun e => overlap o.window o.size e.window e.size),
    (0x10, o.size % 65536 != 0 || outOf 65536 o.size (64 * 2 ^ 30)),
    (0x18, home % 65536 != 0 ||
      (if o.home = 1 then !d.inCap home o.size || d.touchesPool home o.size
       else decide (d.fld (Reg.CHEST_NS_INFO o.ns) 24 40 * 65536 < home + o.size)))]

/-- Rejected offsets of a prefetch entry; before is the entry before it (R550, R551). -/
def badPref (p : Bytes) (before : Option PrefEntry) (e : PrefEntry) : List Nat :=
  let os := planObjs p
  let o := os[e.obj]?
  offs e.off [(0, before.any fun b => decide (e.layer < b.layer)), (4, o.isNone || o.any fun o => decide (planMax p (min e.tier 1) < o.frames)),
    (8, decide (1 < e.tier) || (e.tier == 1 && o.any fun o => o.home != 2)), (9, decide (1 < atLe p (e.off + 9) 1)),
    (10, e.signal && !(planSyncs p).any fun q => q.obj == e.sync), (12, atLe p (e.off + 12) 4 != 0)]

/-- Rejected offsets of the tier section (R551). -/
def Dev.badTier (d : Dev) (x : Nat) (p : Bytes) : List Nat :=
  match planFind p 11 with
  | none => []
  | some s =>
    let hint := planHint p
    let mode := secAt p 11 0 1
    let look := secAt p 11 1 1
    let n := tierFld p 4
    let m := tierFld p 8
    let oo := tierFld p 0xC
    let lo := tierFld p 0x10
    let head := offs s.off ([(0, decide (1 < mode)), (1, if hint then outOf 1 look 8 else look != 0), (2, !hint && secAt p 11 2 2 != 0),
      (4, decide (16384 < n) || (n != 0 && d.capSize == 0)), (8, decide (65536 < m) || (!hint && m != 0)),
      (0xC, oo % 64 != 0 || decide (s.size < oo + 32 * n)), (0x10, lo % 64 != 0 || decide (s.size < lo + 16 * m)),
      (0x14, tierFld p 0x14 != 0), (0x28, (upFrom 0 64).any fun k => bitsOf (planNs p) k 1 == 1 && !d.nsFree x k),
      (0x30, !zeroAt p (s.off + 0x30) 16)] ++ d.badFrames x p 0 ++ d.badFrames x p 1)
      ++ (if s.count ≠ n then [countAt p 11] else [])
    if !head.isEmpty then head
    else
      let os := planObjs p
      let es := planPrefetch p
      ((os.mapIdx fun i o => d.badObject p (os.take i) o).flatten)
      ++ (es.mapIdx fun i e => badPref p (if i = 0 then none else es[i - 1]?) e).flatten

/-! ### Collectives (R662, R663) -/

/-- Rejected offsets of group g of section 0x000C. -/
def badGroup (p : Bytes) (s : Sec) (g : Nat) : List Nat :=
  let o := s.off + 0x40 + 16 * g
  let n := atLe p o 4
  let q := atLe p (o + 4) 1
  let at_ := atLe p (o + 8) 4
  let badOff := at_ % 64 != 0 || decide (at_ < 0x40 + 16 * atLe p s.off 2) || decide (s.size < at_ + 2 * n)
  let head := offs o [(0, outOf 1 n 65536 || (q != 0 && n % q != 0)), (4, outOf 1 q 16), (5, !zeroAt p (o + 5) 3), (8, badOff),
    (12, atLe p (o + 12) 4 != 0)]
  if !head.isEmpty then head
  else
    let ms := (upFrom 0 n).map fun i => atLe p (s.off + at_ + 2 * i) 2
    let bench := fun i => ms.getD i 0 / 16
    ((upFrom 0 n).filter fun i => (ms.take i).contains (ms.getD i 0) || bench i != bench (i / q * q) ||
      (i % q == 0 && (upFrom 0 (i / q)).any fun b => bench (b * q) == bench i)).map fun i => s.off + at_ + 2 * i

/-- Rejected offsets of the collective section, and of a plan that must have one (R662, R663). -/
def Dev.badColl (d : Dev) (p : Bytes) : List Nat :=
  match planFind p 12 with
  | none => if 1 < planDevices p then [0x14] else []
  | some s =>
    let n := atLe p s.off 2
    let ll := atLe p (s.off + 4) 4
    let o := s.off + 0x40
    let head := offs s.off [(0, outOf 1 n 64 || decide (s.size < 0x40 + 16 * n)), (2, atLe p (s.off + 2) 2 != 0),
      (4, ll != 0 && (ll % 8 != 0 || decide (4096 < ll))), (8, !zeroAt p (s.off + 8) 56)] ++
      (if s.count ≠ n then [countAt p 12] else [])
    if !head.isEmpty then head
    else
      let job := 1 < planDevices p &&
        (atLe p o 4 != planDevices p ||
          !((upFrom 0 (atLe p o 4)).any fun i => atLe p (s.off + atLe p (o + 8) 4 + 2 * i) 2 == d.node))
      ((upFrom 0 n).flatMap (badGroup p s)) ++ (if job then [o] else [])

/-! ### Partition and serving (R732, R733) -/

/-- The target range of a segment, PHBM ranges in their partition's own space. -/
def segMeet (pa pb : Nat) (a b : Seg) : Bool :=
  (if a.kind = 2 || b.kind = 2 then a.kind == b.kind && pa == pb else true) && overlap a.pbase a.size b.pbase b.size

/-- A segment that some write may go through (R733). -/
def Seg.written (g : Seg) : Bool := g.perm &&& 0x1A != 0

/-- The target range of a segment breaks its kind (R733). -/
def Dev.badTarget (d : Dev) (p : Bytes) (g : Seg) : Bool :=
  match g.kind with
  | 1 => planPartitioned p || !inHbm g.pbase g.size
  | 2 => !planPartitioned p || decide (popCount 8 (planStacks p) * 48 * 2 ^ 30 < g.pbase + g.size)
  | 3 => !d.inCap g.pbase g.size || d.touchesPool g.pbase g.size
  | 4 => !inSpad g.pbase g.size || bitsOf (planGroups p) ((g.pbase - 0x200000000000) / 0x1000000 / 8) 1 == 0
  | _ => false

/-- Rejected offsets of the segment table (R731, R733). -/
def Dev.badSegs (d : Dev) (x : Nat) (p : Bytes) (base : Nat) : List Nat :=
  let gs := planSegs p
  let m := 0x200000
  (gs.mapIdx fun i g =>
    let o := base + 32 * i
    let clash := (d.others x).any fun y => (d.segs y).any fun h =>
      (g.written || h.written) && segMeet (planPart p) (planPart (d.ctx y).plan) g h
    offs o [(0, g.vbase % m != 0 || decide (2 ^ 48 < g.vbase + g.size) || (gs.take i).any (fun h => overlap g.vbase g.size h.vbase h.size) ||
        (planObjs p).any fun t => overlap g.vbase g.size t.window t.size),
      (8, g.size % m != 0 || g.size == 0), (0x10, g.pbase % m != 0 || d.badTarget p g || clash), (0x18, outOf 1 g.kind 4),
      (0x19, decide (31 < g.perm) || (g.kind == 4 && bitsOf g.perm 4 1 == 1)), (0x1A, !zeroAt p (o + 0x1A) 6)]).flatten

/-- Rejected offsets of the serving fields (R731). -/
def badServing (p : Bytes) (s : Sec) : List (Nat × Bool) :=
  let f := fun o n => atLe p (s.off + o) n
  if planInteractive p then
    [(0x10, f 0x10 8 % 64 != 0 || !inHbm (f 0x10 8) (32 * f 0x20 4)), (0x18, f 0x18 8 % 64 != 0 || !inHbm (f 0x18 8) (64 + 16 * f 0x28 4)),
     (0x20, outOf 1 (f 0x20 4) 65536), (0x24, outOf 1 (f 0x24 4) 1048576), (0x28, outOf 1 (f 0x28 4) (f 0x20 4)),
     (0x2C, outOf 1 (f 0x2C 4) (f 0x24 4))]
  else [(0x10, f 0x10 8 != 0), (0x18, f 0x18 8 != 0), (0x20, f 0x20 4 != 0), (0x24, f 0x24 4 != 0), (0x28, f 0x28 4 != 0), (0x2C, f 0x2C 4 != 0)]

/-- Rejected offsets of section 0x000D (R731 to R733). -/
def Dev.badPartition (d : Dev) (x : Nat) (p : Bytes) : List Nat :=
  let theirs := d.others x
  match planFind p 13 with
  | none => if theirs.isEmpty then [] else [0]
  | some s =>
    if theirs.any fun y => (planFind (d.ctx y).plan 13).isNone then [0]
    else
      let f := fun o n => atLe p (s.off + o) n
      let part := f 2 1 == 1
      let g := planGroups p
      let k := planStacks p
      let same := theirs.filter fun y => planPart (d.ctx y).plan == planPart p
      let other := theirs.filter fun y => planPart (d.ctx y).plan != planPart p
      offs s.off ([(0, decide (1024 < f 0 2)), (2, decide (1 < f 2 1) || theirs.any fun y => planPartitioned (d.ctx y).plan != part),
        (3, decide (7 < f 3 1) || (!part && f 3 1 != 0)),
        (4, if part then g == 0 || same.any (fun y => planGroups (d.ctx y).plan != g) || other.any (fun y => planGroups (d.ctx y).plan &&& g != 0)
            else g != 0xFFFF),
        (6, if part then k == 0 || same.any (fun y => planStacks (d.ctx y).plan != k) || other.any (fun y => planStacks (d.ctx y).plan &&& k != 0)
            else k != 0xFF),
        (7, decide (1 < f 7 1)), (8, decide (10000000 < f 8 4)),
        (0xC, f 0xC 4 % 64 != 0 || decide (f 0xC 4 < 0x40) || decide (s.size < f 0xC 4 + 32 * f 0 2)), (0x30, !zeroAt p (s.off + 0x30) 16)]
        ++ badServing p s)
      ++ (if part then
          ((planClusters p).filter fun e => bitsOf g (e.cl / 8) 1 == 0).map ClusterEntry.off
          ++ ((planPools p).mapIdx fun i q =>
              let a := q.1
              if inSpad a (poolLen q) && bitsOf g ((a - 0x200000000000) / 0x1000000 / 8) 1 == 1 then []
              else [(planFind p 10).elim 0 Sec.off + 0x40 + 16 * i]).flatten
        else [])
      ++ d.badSegs x p (s.off + f 0xC 4)

/-! ### The whole plan -/

/-- Outcome of a LOAD check: CODE, BLOCK and DETAIL of BUR_PLAN_STATUS. -/
structure LoadErr where
  code : Nat
  block : Nat := 0
  detail : Nat := 0
  deriving DecidableEq, Repr

/-- The first check of a list (CODE, BLOCK, offsets) that rejects anything. -/
def firstBad : List (Nat × Nat × (Unit → List Nat)) → Option LoadErr
  | [] => none
  | (code, block, l) :: t =>
    match leastOf (l ()) with
    | some o => some { code := code, block := block, detail := o }
    | none => firstBad t

/-- The checks 0x01 to 0x05 on the header of a plan at an address (R83 to R85). DESIGN CHOICE (log entry 63): a LENGTH below the 64
header bytes and an ADDR of LOAD that is not 64-byte aligned end with code 3 at LENGTH. -/
def Dev.headErr (d : Dev) (x addr : Nat) (p : Bytes) : Option LoadErr :=
  let n := atLe p 8 4
  let major := d.fld Reg.BUR_FW_STATUS 32 8
  let minor := d.fld Reg.BUR_FW_STATUS 40 8
  firstBad [(1, 0, fun _ => offs 0 [(0, atLe p 0 4 != 0x4E4C5053)]),
    (2, 0, fun _ => offs 0 [(4, atLe p 4 2 != major), (6, decide (minor < atLe p 6 2))]),
    (3, 0, fun _ => offs 0 [(8, n % 64 != 0 || outOf 64 n (256 * 2 ^ 20) || addr % 64 != 0 || !inHbm addr n)]),
    (4, 0, fun _ => offs 0 [(0xC, crc32c (zeroedAt p 0xC 4) != atLe p 0xC 4)]), (5, 0, fun _ => d.badHeader x p)]

/-- The checks 0x06 to 0x0D (R83, R772). -/
def Dev.bodyErr (d : Dev) (x : Nat) (p : Bytes) : Option LoadErr :=
  if d.loaded x || d.bit Reg.AON_RAS_STATUS 19 then some { code := 6 }
  else
    firstBad [(7, 0, fun _ => badSections p), (8, 0, fun _ => d.badClusters p),
      (9, 0, fun _ => overQuota (d.quotaSum x) (planClusters p)), (0xA, 0, fun _ => d.badSync x p), (0xB, 0, fun _ => badWakes p),
      (0xC, 0, fun _ => badWindows p), (0xD, 6, fun _ => badSeeds p), (0xD, 0xE, fun _ => badMarks p),
      (0xD, 0xE, fun _ => d.badSlots x p), (0xD, 0xA, fun _ => d.badDresser x p), (0xD, 0xA, fun _ => d.badPlacement p),
      (0xD, 0xB, fun _ => d.badCabinet x p), (0xD, 0xC, fun _ => d.badTier x p), (0xD, 9, fun _ => d.badColl p),
      (0xD, 7, fun _ => d.badPartition x p)]

end Sys2Proof.Machine
end

