-- ==== Sys2Proof/Machine/XSlot.lean ====
section
/-!
DEFINITION. Descriptor issue (R179 to R188), the sync instructions (R193 to R199) and code fetch (R209 to R213).
-/

namespace Sys2Proof.Machine

/-- The checks at issue of a descriptor of a kind, and the issue (R179 to R183, R188, R762). -/
def Dev.issueDesc (d : Dev) (c x kind : Nat) (r : SeqRegs) (a : Slot) : Except SlotFault (List SlotEff) :=
  let ea := descEa r a
  match rangeCheck d x c ea 64 64 1 with
  | some f => .error f
  | none =>
    if d.poisoned (spadAddr c ea) 64 then .error .poison
    else
      let bs := d.localRead c ea 64
      if atLe bs 0 1 ≠ kind then .error (.exc 9 ea 0)
      else if !headOk bs kind then .error (.exc 0x0A ea 0)
      else if kindQueue kind = 2 && d.quota x c = 0 then .error (.exc 0x0B ea 0)
      else .ok [.issue kind ea bs]

/-- A slot that issues a descriptor of a kind. mine says whether the body is the command's own: where the slot is
enabled and reads another command's body, the command changes nothing. -/
def Dev.descSlot (d : Dev) (a : Slot) (ix opc kind : Nat) (mine : Bytes → Bool) : Dev :=
  let k := d.clu a.cl
  let r := d.seqr a.cl k.ctx
  let other := slotEnabled r a && opF a 0 6 == 0 &&
    match d.issueDesc a.cl k.ctx kind r a with
    | .ok [.issue _ _ bs] => !mine bs
    | _ => false
  if other then d
  else d.slot a ix opc (opF a 0 6 != 0) none fun x r => d.issueDesc a.cl x kind r a

/-- Any body is the command's own. -/
def anyBody : Bytes → Bool := fun _ => true

/-- FAB_DMA (R188, R191). -/
def execFabDma (a : Slot) (s : State) : Host.Outcome State Fault Refusal :=
  s.run fun d => d.descSlot a 3 0x10 0x20 anyBody
/-- FAB_AMO (R635). -/
def execFabAmo (a : Slot) (s : State) : Host.Outcome State Fault Refusal :=
  s.run fun d => d.descSlot a 3 0x11 0x21 anyBody
/-- MX_GEMM (R359). -/
def execMxGemm (a : Slot) (s : State) : Host.Outcome State Fault Refusal :=
  s.run fun d => d.descSlot a 1 1 1 anyBody
/-- MX_GEMM_GRP (R377). -/
def execMxGemmGrp (a : Slot) (s : State) : Host.Outcome State Fault Refusal :=
  s.run fun d => d.descSlot a 1 2 2 anyBody
/-- MX_GEMM_SP (R414). -/
def execMxGemmSp (a : Slot) (s : State) : Host.Outcome State Fault Refusal :=
  s.run fun d => d.descSlot a 1 3 3 anyBody
/-- MX_LOAD (R362). -/
def execMxLoad (a : Slot) (s : State) : Host.Outcome State Fault Refusal :=
  s.run fun d => d.descSlot a 1 4 4 anyBody
/-- MX_DRAIN (R363). -/
def execMxDrain (a : Slot) (s : State) : Host.Outcome State Fault Refusal :=
  s.run fun d => d.descSlot a 1 5 5 anyBody
/-- VX_RUN (R491). -/
def execVxRun (a : Slot) (s : State) : Host.Outcome State Fault Refusal :=
  s.run fun d => d.descSlot a 1 8 8 anyBody
/-- VX_WMAX (R496). -/
def execVxWmax (a : Slot) (s : State) : Host.Outcome State Fault Refusal :=
  s.run fun d => d.descSlot a 1 9 9 anyBody
/-- DRS_TOPK (R244). -/
def execDrsTopk (a : Slot) (s : State) : Host.Outcome State Fault Refusal :=
  s.run fun d => d.descSlot a 3 0x18 0x30 anyBody
/-- DRS_ASSIGN (R264). -/
def execDrsAssign (a : Slot) (s : State) : Host.Outcome State Fault Refusal :=
  s.run fun d => d.descSlot a 3 0x19 0x31 anyBody
/-- DRS_BIAS (R256). -/
def execDrsBias (a : Slot) (s : State) : Host.Outcome State Fault Refusal :=
  s.run fun d => d.descSlot a 3 0x1A 0x32 anyBody

/-! ### Sync instructions -/

/-- An X slot of the SYI form: bit [21] must be 0. -/
def Dev.syiSlot (d : Dev) (a : Slot) (opc : Nat) (rsZero : Bool) (eff : Nat → Nat → SlotEff) : Dev :=
  d.slot a 3 opc (opF a 21 1 != 0 || (rsZero && opF a 16 5 != 0)) none fun _ r =>
    .ok [eff (opF a 0 16) (fieldOf (r.sr (opF a 16 5)) 0 32)]

/-- An X slot of the SYR form: bits [11:0] must be 0. -/
def Dev.syrSlot (d : Dev) (a : Slot) (opc : Nat) (rs2Zero : Bool) (eff : Nat → Nat → SlotEff) : Dev :=
  d.slot a 3 opc (opF a 0 12 != 0 || (rs2Zero && opF a 12 5 != 0)) none fun _ r =>
    .ok [eff (fieldOf (r.sr (opF a 17 5)) 0 16) (fieldOf (r.sr (opF a 12 5)) 0 32)]

/-- SYNC_INC (R193). -/
def execSyncInc (a : Slot) (s : State) : Host.Outcome State Fault Refusal :=
  s.run fun d => d.syiSlot a 1 true fun o _ => .sync o 1
/-- SYNC_INCR (R193). -/
def execSyncIncr (a : Slot) (s : State) : Host.Outcome State Fault Refusal :=
  s.run fun d => d.syrSlot a 2 true fun o _ => .sync o 1
/-- SYNC_ADD (R193). -/
def execSyncAdd (a : Slot) (s : State) : Host.Outcome State Fault Refusal :=
  s.run fun d => d.syiSlot a 3 false .sync
/-- SYNC_ADDR (R193). -/
def execSyncAddr (a : Slot) (s : State) : Host.Outcome State Fault Refusal :=
  s.run fun d => d.syrSlot a 6 false .sync
/-- SYNC_WAIT (R195). -/
def execSyncWait (a : Slot) (s : State) : Host.Outcome State Fault Refusal :=
  s.run fun d => d.syiSlot a 4 false .wait
/-- SYNC_WAITR (R195). -/
def execSyncWaitr (a : Slot) (s : State) : Host.Outcome State Fault Refusal :=
  s.run fun d => d.syrSlot a 5 false .wait
/-- SYNC_ENDSTEP (R198). -/
def execSyncEndstep (a : Slot) (s : State) : Host.Outcome State Fault Refusal :=
  s.run fun d => d.slot a 3 7 (a.args != 0) none fun _ _ => .ok [.endstep]

/-! ### Code fetch -/

/-- The extent of the image of context x resident in cluster c (R149). -/
def Dev.extent (d : Dev) (x c : Nat) : Option Extent := (d.ctx x).images.find? fun e => e.cl == c

/-- The 16 bytes of the bundle at an image offset. -/
def Dev.bundleAt (d : Dev) (x c off : Nat) : Bytes :=
  match d.extent x c with
  | some e => d.localRead c (0x700000 + e.base + off) 16
  | none => []

/-- Opcode of a slot of a bundle (R156, R157). -/
def bundleOpc (bs : Bytes) (ix : Nat) : Nat := bitsOf (atLe bs (4 * ix) 4) 22 6

/-- A bundle that holds s.br, s.call, s.jr, s.trap or sync.endstep (R209). -/
def holdsBranch (bs : Bytes) : Bool :=
  let o := bundleOpc bs 0
  o == 0x16 || o == 0x17 || o == 0x18 || o == 0x1C || bundleOpc bs 3 == 7

/-- A bundle that holds s.loop or s.lpop: the loop stack that fetch follows is known only when it issues (R212, log entry 13). -/
def holdsLoop (bs : Bytes) : Bool := bundleOpc bs 0 == 0x19 || bundleOpc bs 0 == 0x1D

/-- Bundles of a buffer that lie past an unresolved control transfer. -/
def pastBranch (branch : Nat → Bool) : List Nat → Nat
  | [] => 0
  | o :: t => if branch o then t.length else pastBranch branch t

/-- The bundle after those of a buffer, with the loop stack as their issue will leave it (R212). -/
def fetchNext : List Nat → Nat → List LoopLevel → Nat
  | [], pc, _ => pc
  | o :: t, _, ls => fetchNext t (nextPc o [] ls).1 (nextPc o [] ls).2

/-- The fetch unit places the next bundle in the buffer of eight (R209 to R213); a poisoned word freezes the context
(R762). -/
def Dev.codeFetch (d : Dev) (c : Nat) (e : Ecc) : Dev :=
  let k := d.clu c
  let x := k.ctx
  let r := d.seqr c x
  let at_ := fetchNext k.fetch r.pc r.loops
  let ready := (k.seq == .running || k.seq == .waiting) && (d.ctx x).state == .running && d.clocked c &&
    decide (k.fetch.length < 8) && decide (at_ < d.imageLen x c) &&
    decide (pastBranch (fun o => holdsBranch (d.bundleAt x c o)) k.fetch < 4) &&
    !k.fetch.any (fun o => holdsLoop (d.bundleAt x c o))
  match ready, d.extent x c with
  | true, some ext =>
    let a := spadAddr c (0x700000 + ext.base + at_)
    let d := d.eccEvent e 0 a
    if d.poisoned a 16 then d.freeze x 0x0B (c / 8) 0 0 0 0
    else (d.modClu c fun k => { k with fetch := k.fetch ++ [at_] }).addFld (Reg.SEQ_FETCH_BYTES c) 0 64 16
  | _, _ => d

/-- CODE_FETCH (R209). -/
def execCodeFetch (c : Nat) (e : Ecc) (s : State) : Host.Outcome State Fault Refusal := s.run (·.codeFetch c e)

end Sys2Proof.Machine
end

