-- ==== Sys2Proof/Machine/Tier.lean ====
section
/-!
DEFINITION. The tier engine (R547 to R570, R586, R587) and the Chest (R571 to R585, R588): staging, eviction, the prefetch
list, tier commands, flash units and blocks, namespaces.
-/

namespace Sys2Proof.Machine

/-! ### The Chest -/

/-- Location number of a flash unit: channel, die, block, unit within the block. -/
def flashLoc (ch die blk slot : Nat) : Nat := ((ch * 16 + die) * 2 ^ 21 + blk) * 512 + slot
/-- Address of a map entry (R545, R572). -/
def Dev.mapAddr (d : Dev) (e : Nat) : Nat := 0x100000000000 + d.capSize - d.mapBytes + 8 * e
/-- Map entry of a mapped unit (R572). -/
def mapWord (loc : Nat) : Nat :=
  loc / 2 ^ 34 % 32 + loc / 2 ^ 30 % 16 * 2 ^ 5 + loc / 512 % 2 ^ 21 * 2 ^ 9 + loc % 512 * 2 ^ 30 + 2 ^ 39
/-- The location that a map entry names. -/
def mapLoc (w : Nat) : Nat := flashLoc (bitsOf w 0 5) (bitsOf w 5 4) (bitsOf w 9 21) (bitsOf w 30 9)
/-- Change the Chest. -/
def Dev.modChest (d : Dev) (f : Chest → Chest) : Dev := { d with chest := f d.chest }
/-- A namespace of the Chest. -/
def Dev.nsOf (d : Dev) (k : Nat) : Option ChestNs := mapFind d.chest.ns k
/-- Map word of a unit of a namespace. -/
def Dev.unitWord (d : Dev) (k u : Nat) : Nat :=
  match d.nsOf k with
  | some n => leNat (d.read (d.mapAddr (n.base + u)) 8)
  | none => 0
/-- The location of a mapped unit. -/
def Dev.unitLoc (d : Dev) (k u : Nat) : Option Nat :=
  if bitsOf (d.unitWord k u) 39 1 = 1 then some (mapLoc (d.unitWord k u)) else none
/-- Units mapped over all namespaces. -/
def Dev.mappedUnits (d : Dev) : Nat := (upFrom 0 64).foldl (fun v k => v + d.fld (Reg.CHEST_NS_MAP k) 32 32) 0
/-- A block record. -/
def Chest.blk (c : Chest) (b : Nat) : FlashBlk := mapGet (fun _ => {}) c.blks b
/-- Write a block record. -/
def Chest.setBlk (c : Chest) (b : Nat) (r : FlashBlk) : Chest := { c with blks := mapSet (fun _ => {}) c.blks b r }
/-- Good blocks. -/
def Chest.good (c : Chest) : Nat :=
  if c.bare then (c.blks.filter fun e => !e.2.retired).length else 32 * c.dies * c.bpd - (c.blks.filter fun e => e.2.retired).length
/-- Unit writes since the last map checkpoint (R578). -/
def Chest.unsaved (c : Chest) : Nat := c.seq - c.ckSeq
/-- Key of a unit of a namespace in the map checkpoint. -/
def unitKey (ns unit : Nat) : Nat := ns * 2 ^ 40 + unit
/-- STATE of the Chest: mounted. -/
def Dev.chestUp (d : Dev) : Bool := 2 ≤ d.fld Reg.CHEST_STATUS 0 3 && d.fld Reg.CHEST_STATUS 0 3 ≤ 4

/-- A namespace becomes read-only (R580, R581). -/
def Dev.nsReadOnly (d : Dev) (k : Nat) : Dev :=
  match d.nsOf k with
  | some n => (d.modChest fun c => { c with ns := mapPut c.ns k (some { n with ro := true }) }).setBit (Reg.CHEST_NS_INFO k) 1 true
  | none => d

/-- SPARE and GOOD after a change (R579); SPARE 0 degrades the Chest. -/
def Dev.chestCount (d : Dev) : Dev :=
  let good := d.chest.good
  let spare := good - ceilDiv d.mappedUnits d.chest.upb - 2048
  let d := (d.setFld Reg.CHEST_STATUS 8 24 spare).setFld Reg.CHEST_STATUS 32 32 good
  if spare = 0 then
    let d := if d.fld Reg.CHEST_STATUS 0 3 = 2 then d.setFld Reg.CHEST_STATUS 0 3 3 else d
    if d.chestUp then d.rasSet 18 else d
  else d.setBit Reg.AON_RAS_STATUS 18 false

/-- A block is retired (R576); while SPARE is 0 it comes from the reclamation reserve (R581). -/
def Dev.retire (d : Dev) (b : Nat) : Dev :=
  let worn := d.fld Reg.CHEST_STATUS 8 24 == 0
  let d := d.modChest fun c => c.setBlk b { c.blk b with retired := true }
  let d := if worn then d.modChest fun c => { c with reserve := c.reserve - 1 } else d
  let d :=
    if worn && d.chest.reserve ≤ 1024 then
      (upFrom 0 64).foldl (fun e k => e.nsReadOnly k) (d.setFld Reg.CHEST_STATUS 0 3 4)
    else d
  d.chestCount

/-- Erase a block; one whose erase count reaches ENDURANCE, or whose erase fails, is retired (R576). -/
def Dev.eraseBlk (d : Dev) (b : Nat) (fail : Bool) : Dev :=
  let r := d.chest.blk b
  let d := d.modChest fun c =>
    { c.setBlk b { used := 0, erases := r.erases + 1, retired := r.retired } with units := c.units.filter fun e => e.1 / 512 != b }
  if !r.retired && (fail || d.fld Reg.CHEST_CFG 16 16 * 1000 ≤ d.chest.formats + r.erases + 1) then d.retire b else d

/-- The lowest block of a die without a record, which no write or erase of its own has touched. -/
def Chest.unlisted (c : Chest) (die : Nat) : Option Nat :=
  let mine := c.blks.filter fun e => e.1 / 2 ^ 21 == die
  if c.bare then none
  else (firstIn (fun i => !mine.any fun e => e.1 % 2 ^ 21 == i) (upFrom 0 (min c.bpd (mine.length + 1)))).map fun i => die * 2 ^ 21 + i

/-- The erased block of a die of least erase count, the lowest number among equals (R575). -/
def Chest.erased (c : Chest) (die : Nat) : Option Nat :=
  match c.unlisted die with
  | some b => some b
  | none =>
    ((c.blks.filter fun e => e.1 / 2 ^ 21 == die && e.2.used == 0 && !e.2.retired).foldl
      (fun m e => match m with | none => some e | some a => if e.2.erases < a.2.erases then some e else m) none).map Prod.fst

/-- The number of erased blocks of a die. -/
def Chest.erasedCount (c : Chest) (die : Nat) : Nat :=
  let mine := c.blks.filter fun e => e.1 / 2 ^ 21 == die
  if c.bare then (mine.filter fun e => e.2.used == 0 && !e.2.retired).length
  else c.bpd - (mine.filter fun e => e.2.used != 0 || e.2.retired).length

/-- The open block of a die that has room. -/
def Chest.open_ (c : Chest) (die : Nat) : Option Nat :=
  (c.blks.find? fun e => e.1 / 2 ^ 21 == die && e.2.used != 0 && decide (e.2.used < c.upb) && !e.2.retired).map Prod.fst

/-- The dies of the channel that takes the next unit (R571). -/
def Chest.nextDies (c : Chest) : List Nat := (upFrom 0 c.dies).map fun i => c.since % 32 * 16 + i

/-- The block that takes the next unit (R571, R575): the open block of the lowest die that has one with room, else an
erased block of the lowest die that has one. -/
def Chest.target (c : Chest) : Option Nat :=
  match c.nextDies.filterMap c.open_ with
  | b :: _ => some b
  | [] => (c.nextDies.filterMap c.erased).head?

/-- Program a unit at a fresh location, update the map entry and mark the old location stale (R573). -/
def Dev.program (d : Dev) (k u : Nat) (data : Bytes) (bad : Bool) : Option Dev :=
  match d.chest.target, d.nsOf k with
  | some b, some n =>
    let r := d.chest.blk b
    let loc := b * 512 + r.used
    let old := d.unitLoc k u
    let d := d.modChest fun c =>
      let units := match old with
        | some o => (match mapFind c.units o with | some f => mapPut c.units o (some { f with stale := true }) | none => c.units)
        | none => c.units
      { c.setBlk b { r with used := r.used + 1 } with
        units := mapPut units loc (some { ns := k, unit := u, seq := c.seq + 1, data := data, bad := bad })
        seq := c.seq + 1
        since := c.since + 1 }
    let d := d.hubWrite (d.mapAddr (n.base + u)) (leBytes 8 (mapWord loc))
    some (if old.isSome then d else d.setFld (Reg.CHEST_NS_MAP k) 32 32 (d.fld (Reg.CHEST_NS_MAP k) 32 32 + 1))
  | _, _ => none

/-- Move the valid units of a block to fresh locations; none where one finds no room. -/
def Dev.relocate (d : Dev) (b : Nat) : Option Dev :=
  let live := d.chest.units.filter fun e => e.1 / 512 == b && !e.2.stale
  let d := d.modChest fun c => c.setBlk b { c.blk b with used := max (c.blk b).used c.upb }
  live.foldl (fun o e => o.bind fun d => d.program e.2.ns e.2.unit e.2.data e.2.bad) (some d)

/-- Relocate and erase a block; nothing where no room is left. -/
def Dev.moveAndErase (d : Dev) (b : Nat) (fail : Bool) : Dev :=
  if !d.boot.pwrGood then d
  else
  match d.relocate b with
  | some e => e.eraseBlk b fail
  | none => d

/-- Stale units of a block. -/
def Chest.staleIn (c : Chest) (b : Nat) : Nat := (c.units.filter fun e => e.1 / 512 == b && e.2.stale).length

/-- Reclaim stale space on a die with fewer than 2 erased blocks (R575): the block with the most stale units goes. -/
def Dev.reclaim (d : Dev) (die : Nat) : Dev :=
  let c := d.chest
  let full := (c.blks.filter fun e => e.1 / 2 ^ 21 == die && c.upb ≤ e.2.used && !e.2.retired).map Prod.fst
  match full.foldl (fun m b => match m with
      | none => if c.staleIn b = 0 then none else some b
      | some a => if c.staleIn a < c.staleIn b then some b else m) (none : Option Nat) with
  | some b => d.moveAndErase b false
  | none => d

/-- Write a unit: reclaim first where the write opens a block on a die with fewer than 2 erased ones (R573, R575); where no die of the
channel has an open or erased block, on its dies in turn until one has. -/
def Dev.chestWrite (d : Dev) (k u : Nat) (data : Bytes) : Option Dev :=
  if !d.boot.pwrGood then none
  else
  let d := match d.chest.target with
    | some b => if (d.chest.blk b).used = 0 && d.chest.erasedCount (b / 2 ^ 21) < 2 then d.reclaim (b / 2 ^ 21) else d
    | none => d.chest.nextDies.foldl (fun e i => if e.chest.target.isSome then e else e.reclaim i) d
  (d.program k u data false).map Dev.chestCount

/-- Unmap a unit (TRIM, DELETE). -/
def Dev.unmap (d : Dev) (k u : Nat) : Dev :=
  match d.unitLoc k u, d.nsOf k with
  | some o, some n =>
    let d := d.modChest fun c =>
      { c with units := match mapFind c.units o with
          | some f => mapPut c.units o (some { f with stale := true })
          | none => c.units }
    (d.hubWrite (d.mapAddr (n.base + u)) (leBytes 8 0)).setFld (Reg.CHEST_NS_MAP k) 32 32 (d.fld (Reg.CHEST_NS_MAP k) 32 32 - 1)
  | _, _ => d

/-- A unit is read from a block: its read count increases (R577). -/
def Dev.countRead (d : Dev) (b : Nat) : Dev := d.modChest fun c => c.setBlk b { c.blk b with reads := (c.blk b).reads + 1 }

/-- Read a unit of a namespace: zeros where unmapped (R566); the block's read count increases (R577). none where the unit is
uncorrectable (R762). -/
def Dev.chestRead (d : Dev) (k u : Nat) (e : Ecc) : Option Bytes × Dev :=
  match d.unitLoc k u with
  | none => (some (List.replicate 65536 0), d)
  | some loc =>
    let d := d.countRead (loc / 512)
    let d := match e with
      | .clean => d
      | .corrected => (d.addFld Reg.AON_ECC_CE 48 16 1).log 2 3 0xFF none 0 u
      | .uncorrectable =>
        ((d.addFld Reg.AON_ECC_UE 48 16 1).modChest fun c =>
          { c with units := match mapFind c.units loc with
              | some f => mapPut c.units loc (some { f with bad := true })
              | none => c.units }).log 3 3 0xFF none 0 u
    match mapFind d.chest.units loc with
    | some f => (if f.bad then none else some f.data, d)
    | none => (some (List.replicate 65536 0), d)

/-! ### Entries and frames -/

/-- The context is in HINT mode with section 0x000B. -/
def Dev.hint (d : Dev) (x : Nat) : Bool := planHint (d.ctx x).plan
/-- The object of an entry is KEEP (R550). -/
def Dev.keeps (d : Dev) (e : TierEnt) : Bool := ((planObjs (d.ctx e.ctx).plan)[e.obj]?).any fun o => bitsOf o.flags 1 1 == 1
/-- The tier engine's work for a context is frozen (R587, R752). -/
def Dev.tierFrozen (d : Dev) (x : Nat) : Bool := (d.ctx x).state == .frozen
/-- An entry may be evicted (R555); none of a frozen context is (R587). -/
def Dev.evictable (d : Dev) (e : TierEnt) : Bool :=
  d.hint e.ctx && !d.keeps e && !e.touched && !e.evicting && !d.tierFrozen e.ctx
/-- The entry counts in the working set (R555). -/
def Dev.inWork (d : Dev) (e : TierEnt) : Bool := !d.hint e.ctx || e.touched || d.keeps e
/-- Frames that a context holds in a pool. -/
def Dev.heldFrames (d : Dev) (x pool : Nat) : Nat :=
  (d.tierEnts.filter fun e => e.ctx == x && e.pool == pool).foldl (fun v e => v + e.frames.length) 0
/-- Frames of a pool in use. -/
def Dev.usedFrames (d : Dev) (pool : Nat) : List Nat := (d.tierEnts.filter fun e => e.pool == pool).flatMap TierEnt.frames
/-- TIER_CTXx_HELD of every context. -/
def Dev.noteHeld (d : Dev) : Dev :=
  allCtxs.foldl (fun e x => (e.setFld (Reg.TIER_CTX_HELD x) 0 32 (d.heldFrames x 0)).setFld (Reg.TIER_CTX_HELD x) 32 32 (d.heldFrames x 1)) d
/-- The entry of an object in a pool, one whose eviction has committed included. -/
def Dev.anyEnt (d : Dev) (x obj pool : Nat) : Option TierEnt :=
  d.tierEnts.find? fun e => e.ctx == x && e.obj == obj && e.pool == pool
/-- Change an entry. -/
def Dev.modEnt (d : Dev) (x obj pool : Nat) (f : TierEnt → TierEnt) : Dev :=
  { d with tierEnts := d.tierEnts.map fun e => if e.ctx = x && e.obj = obj && e.pool = pool then f e else e }
/-- Remove an entry: its frames are free. -/
def Dev.dropEnt (d : Dev) (x obj pool : Nat) : Dev :=
  { d with tierEnts := d.tierEnts.filter fun e => !(e.ctx == x && e.obj == obj && e.pool == pool) }
/-- Commit an eviction (R557): an entry with no dirty page frees its frames at once. -/
def Dev.evict (d : Dev) (e : TierEnt) : Dev :=
  if e.dirty.isEmpty then d.dropEnt e.ctx e.obj e.pool
  else d.modEnt e.ctx e.obj e.pool fun k => { k with evicting := true }

/-- Copy a 64 KiB page with its poison marks. -/
def Dev.copyPage (d : Dev) (src dst : Nat) : Dev :=
  let marks := d.poison.filter fun e => decide (src ≤ e.1) && decide (e.1 < src + 65536)
  marks.foldl (fun e m => e.markPoison (dst + (m.1 - src)) 1) ((d.hcTouch 0 src 65536 false).hubWrite dst (d.read src 65536))

/-- Address of page p of an entry's copy. -/
def Dev.frameAddr (d : Dev) (e : TierEnt) (p : Nat) : Nat := d.poolBase e.pool + e.frames.getD p 0 * 65536

/-- Write an entry's dirty pages to the home (R557, R562). -/
def Dev.writeBack (d : Dev) (e : TierEnt) : Dev :=
  match (planObjs (d.ctx e.ctx).plan)[e.obj]? with
  | some o => e.dirty.foldl (fun k p => k.copyPage (d.frameAddr e p) (o.addr + p * 65536)) d
  | none => d

/-- A dirty page of an entry that holds poison. -/
def Dev.dirtyPoison (d : Dev) (e : TierEnt) : Option Nat := (e.dirty.find? fun p => d.poisoned (d.frameAddr e p) 65536).map (d.frameAddr e)

/-- Every dirty page of a context is written home and every entry freed (R562). -/
def Dev.tierUnload (d : Dev) (x : Nat) : Dev :=
  let d := (d.tierEnts.filter fun e => e.ctx == x).foldl Dev.writeBack d
  ({ d with tierEnts := d.tierEnts.filter fun e => e.ctx != x }).noteHeld

/-- Entries of a list by greatest AGE, then lower context, then lower object. -/
def oldest (l : List TierEnt) : Option TierEnt :=
  l.foldl (fun m e => match m with
    | none => some e
    | some a => if a.age < e.age || (a.age = e.age && (e.ctx < a.ctx || (e.ctx = a.ctx && e.obj < a.obj))) then some e else m) none

/-- Obtain frames for a STAGE (R558): evictions are committed until enough frames are free or coming; the frames, or none
while the STAGE waits. The fuel is the number of entries. -/
def Dev.obtain (x pool need : Nat) : Nat → Dev → Option (List Nat) × Dev
  | fuel, d =>
    let used := d.usedFrames pool
    let free := d.poolFrames pool - used.length
    let mine := d.tierEnts.filter fun e => e.pool == pool && e.ctx == x
    let live := (mine.filter fun e => !e.evicting).foldl (fun v e => v + e.frames.length) 0
    let coming := (d.tierEnts.filter fun e => e.pool == pool && e.evicting).foldl (fun v e => v + e.frames.length) 0
    let p := (d.ctx x).plan
    if need ≤ free && d.heldFrames x pool + need ≤ planMax p pool then
      (some (((upFrom 0 (min (d.poolFrames pool) (used.length + need))).filter fun f => !used.contains f).take need), d)
    else if need ≤ free + coming && live + need ≤ planMax p pool then (none, d)
    else
      match fuel with
      | 0 => (none, d)
      | fuel + 1 =>
        match oldest (mine.filter d.evictable) with
        | some e => Dev.obtain x pool need fuel (d.evict e)
        | none =>
          let rich := fun (e : TierEnt) => e.pool == pool && e.ctx != x && d.evictable e &&
            decide (planMin (d.ctx e.ctx).plan pool < d.heldFrames e.ctx pool)
          match if live + min need (free + coming) < planMin p pool then oldest (d.tierEnts.filter rich) else none with
          | some e => Dev.obtain x pool need fuel (d.evict e)
          | none => (none, d)

/-! ### Tier commands -/

/-- A fault of the tier engine for context x (R586, R587): TIER_FAULT, and the freeze. -/
def Dev.tierFault (d : Dev) (x c : Nat) (list : Bool) (code detail trans : Nat) : Dev :=
  let d :=
    if d.bit Reg.TIER_FAULT 8 then d.setBit Reg.TIER_FAULT 9 true
    else d.setReg Reg.TIER_FAULT (BitVec.ofNat 64 (code + 2 ^ 8 + (if list then 2 ^ 10 else c % 128 * 2 ^ 16) + x % 8 * 2 ^ 24 +
      detail % 2 ^ 32 * 2 ^ 32))
  d.freeze x 5 code 0 trans 0 detail

/-- What comes of a tier command: it goes on or waits, completes with a status, or faults. -/
inductive TierRes where
  | hold (d : Dev)
  | done (d : Dev) (status : Nat)
  | fault (d : Dev) (code detail trans : Nat)
  deriving DecidableEq, Repr

/-- Stage a 64 KiB unit through a buffer of Cabinet client 9 (R569): CLASS where the client is disabled, none where it waits. -/
def Dev.tierBuffer (d : Dev) (x : Nat) (data : Bytes) : Bool × Dev :=
  if !d.cabOn x 9 then (false, d.cabFault ⟨x, 0, 0⟩ 6 9)
  else
    match d.cabAlloc x 9 65536 9 with
    | (some b, d) => (true, (d.cabFill b data).cabRelease b 9)
    | (none, d) => (false, d)

/-- Read a unit for a command through its buffer: the data, or what the command comes to. -/
def Dev.chestIn (d : Dev) (x k u : Nat) (e : Ecc) : Except TierRes (Bytes × Dev) :=
  if !d.chestUp then .error (.hold d)
  else
    match d.chestRead k u e with
    | (none, d) => .error (.fault d 7 (u % 2 ^ 32) 0)
    | (some bs, d) =>
      match d.tierBuffer x bs with
      | (true, d) => .ok (bs, d)
      | (false, d) => .error (.hold d)

/-- The bytes of page p of an object for a copy in a pool (R566). -/
def Dev.stagePage (d : Dev) (x obj pool p : Nat) (o : TierObj) (e : Ecc) : Except TierRes (Bytes × Dev) :=
  let from_ := fun a =>
    if d.poisoned a 65536 then Except.error (TierRes.fault d 7 (a % 2 ^ 32) 0) else .ok (d.read a 65536, d.hcTouch x a 65536 false)
  if o.home = 1 then from_ (o.addr + p * 65536)
  else
    match if pool = 0 then d.tierEnt x obj 1 else none with
    | some c => from_ (d.frameAddr c p)
    | none => d.chestIn x o.ns (o.addr / 65536 + p) e

/-- Fill the frames of a copy page by page; a frame at an address that does not exist is TADDR (R70, R586). -/
def Dev.stagePages (x obj pool : Nat) (o : TierObj) : List (Nat × Nat) → Ecc → Dev → Except TierRes Dev
  | [], _, d => .ok d
  | (p, f) :: t, e, d =>
    let a := d.poolBase pool + f * 65536
    if !d.hubMem a 65536 then .error (.fault d 6 (a % 2 ^ 32) 4)
    else
      match d.stagePage x obj pool p o e with
      | .error r => .error r
      | .ok (bs, d) => Dev.stagePages x obj pool o t .clean (d.hubWrite a bs)

/-- The working set of a context in a pool with an object touched (R555, R559). -/
def Dev.workWith (d : Dev) (x obj pool n : Nat) : Nat :=
  (d.tierEnts.filter fun e => e.ctx == x && e.pool == pool && e.obj != obj && !e.evicting && d.inWork e).foldl
    (fun v e => v + e.frames.length) n

/-- STAGE (R553, R557 to R559, R566). -/
def Dev.stage (d : Dev) (x obj pool : Nat) (e : Ecc) : TierRes :=
  match (planObjs (d.ctx x).plan)[obj]? with
  | none => .fault d 2 obj 0
  | some o =>
    let n := o.frames
    if pool = 1 && o.home = 1 then .fault d 2 obj 0
    else if planMax (d.ctx x).plan pool < d.workWith x obj pool n then .fault d 5 obj 0
    else
      match d.anyEnt x obj pool with
      | some k => if k.evicting then .hold d else .done (d.modEnt x obj pool fun k => { k with touched := true }) 0
      | none =>
        match Dev.obtain x pool n d.tierEnts.length d with
        | (none, d) => .hold d
        | (some fs, d) =>
          match Dev.stagePages x obj pool o ((upFrom 0 n).zip fs) e d with
          | .error r => r
          | .ok d =>
            let k : TierEnt := { ctx := x, obj := obj, pool := pool, frames := fs, touched := true }
            .done { d with tierEnts := d.tierEnts ++ [k] } 0

/-- DROP (R566): the entries of the object in each pool, dirty pages written home first. -/
def Dev.dropObj (d : Dev) (x obj : Nat) : TierRes :=
  if (planObjs (d.ctx x).plan)[obj]?.isNone then .fault d 2 obj 0
  else
    let es := d.tierEnts.filter fun e => e.ctx == x && e.obj == obj
    if es.any TierEnt.evicting then .hold d
    else
      match es.findSome? d.dirtyPoison with
      | some a => .fault d 7 (a % 2 ^ 32) 0
      | none => .done (es.foldl (fun k e => (k.writeBack e).dropEnt x obj e.pool) d) 0

/-- FLUSH (R566). -/
def Dev.flushObj (d : Dev) (x obj : Nat) : TierRes :=
  match (planObjs (d.ctx x).plan)[obj]? with
  | none => .fault d 2 obj 0
  | some o =>
    if !o.writable then .fault d 2 obj 0
    else
      match d.anyEnt x obj 0 with
      | none => .done d 0
      | some e =>
        if e.evicting then .hold d
        else
          match d.dirtyPoison e with
          | some a => .fault d 7 (a % 2 ^ 32) 0
          | none => .done ((d.writeBack e).modEnt x obj 0 fun k => { k with dirty := [] }) 0

/-- The prefetch state of a context. -/
def Dev.pref (d : Dev) (x : Nat) : Prefetch := mapGet (fun _ => {}) d.prefetch x
/-- Write the prefetch state of a context. -/
def Dev.setPref (d : Dev) (x : Nat) (p : Prefetch) : Dev := { d with prefetch := mapSet (fun _ => {}) d.prefetch x p }

/-- ADVANCE (R563): the current layer becomes the maximum of itself and L. TIER_CTXx_STATE shows its low 24 bits (log entry 122). -/
def Dev.advance (d : Dev) (x layer : Nat) : TierRes :=
  let l := max (d.pref x).layer layer
  .done (if d.hint x then (d.setPref x { d.pref x with layer := l }).setFld (Reg.TIER_CTX_STATE x) 8 24 (l % 2 ^ 24) else d) 0

/-- The body checks of a tier.cmd (R565). -/
def tierBody (b : Bytes) : Option Nat :=
  let op := atLe b 0x10 1
  let st := atLe b 0x14 4
  let src := atLe b 0x18 8
  let dst := atLe b 0x20 8
  let len := atLe b 0x28 8
  leastBad [(0x10, op == 0 || decide (7 < op)), (0x11, if op = 1 then decide (1 < atLe b 0x11 1) else atLe b 0x11 1 != 0),
    (0x12, op < 5 && atLe b 0x12 1 != 0), (0x13, atLe b 0x13 1 != 0), (0x14, st != 0xFFFFFFFF && st % 4 != 0),
    (0x18, if op = 5 then src % 65536 != 0 else op != 6 && src != 0),
    (0x20, if 5 < op then dst % 65536 != 0 else op != 5 && dst != 0),
    (0x28, if 5 ≤ op then len % 65536 != 0 || len == 0 else len != 0), (0x30, 3 < op && atLe b 0x30 4 != 0),
    (0x34, op != 4 && atLe b 0x34 4 != 0), (0x38, !zeroAt b 0x38 8)]

/-- OP of a tier.cmd. -/
def tierOp (b : Bytes) : Nat := atLe b 0x10 1

/-- The namespace checks of CREAD, CWRITE and TRIM (R586): the command's fault. -/
def Dev.nsBad (d : Dev) (x : Nat) (b : Bytes) : Option (Nat × Nat) :=
  let k := atLe b 0x12 1
  let at_ := atLe b (if tierOp b = 5 then 0x18 else 0x20) 8
  let cap := ((d.nsOf k).map ChestNs.cap).getD 0
  if 63 < k || bitsOf (planNs (d.ctx x).plan) k 1 = 0 then some (3, k)
  else if cap * 65536 < at_ + atLe b 0x28 8 then some (4, max (at_ / 65536) cap)
  else none

/-- Copy units of a namespace to memory (CREAD). -/
def Dev.creadUnits (x k : Nat) : List (Nat × Nat) → Ecc → Dev → TierRes
  | [], _, d => .done d 0
  | (u, a) :: t, e, d =>
    match d.chestIn x k u e with
    | .error r => r
    | .ok (bs, d) =>
      match d.vwrite x a bs with
      | .error r => .fault d 6 (r.2 % 2 ^ 32) r.1
      | .ok d => Dev.creadUnits x k t .clean d

/-- The namespace of a command is read-only. -/
def Dev.nsRo (d : Dev) (k : Nat) : Bool := (d.nsOf k).any ChestNs.ro

/-- What a tier command comes to when its end is asked for (R566, R567). -/
def Dev.tierRun (d : Dev) (q : Desc) (e : Ecc) : TierRes :=
  let b := q.bytes
  let x := q.ctx
  let k := atLe b 0x12 1
  let n := atLe b 0x28 8 / 65536
  match tierBody b with
  | some o => .fault d 1 o 0
  | none =>
    match tierOp b with
    | 1 => d.stage x (atLe b 0x30 4) (atLe b 0x11 1) e
    | 2 => d.dropObj x (atLe b 0x30 4)
    | 3 => d.flushObj x (atLe b 0x30 4)
    | 4 => d.advance x (atLe b 0x34 4)
    | op =>
      match d.nsBad x b with
      | some f => .fault d f.1 f.2 0
      | none =>
        if !d.chestUp then .hold d
        else if op = 5 then
          Dev.creadUnits x k ((upFrom 0 n).map fun i => (atLe b 0x18 8 / 65536 + i, atLe b 0x20 8 + 65536 * i)) e d
        else if q.prog = 0 && q.cfg.isEmpty && d.nsRo k then .done d 1
        else if op = 7 then
          .done ((upFrom 0 n).foldl (fun g i => g.unmap k (atLe b 0x20 8 / 65536 + i)) d).chestCount 0
        else if !q.cfg.isEmpty then .done d 2
        else if q.prog = n * 65536 then .done d 0
        else .hold d

/-- The k-th tier.cmd of cluster c that has not completed. -/
def Dev.tierDesc (d : Dev) (c k : Nat) : Option Desc := (d.descs.filter fun q => q.cl == c && q.kind == 0x38)[k]?

/-- A command of cluster c before its k-th whose body check fails: commands begin in issue order (R187, R570), and body checks are made
as one begins (R586). -/
def Dev.tierEarlier (d : Dev) (c k : Nat) : Option (Desc × Nat) :=
  ((d.descs.filter fun q => q.cl == c && q.kind == 0x38).take k).findSome? fun q => (tierBody q.bytes).map fun o => (q, o)

/-- A tier command writes its status word, then applies its completion operation (R567). -/
def Dev.tierDone (d : Dev) (q : Desc) (status : Nat) : Dev :=
  let off := atLe q.bytes 0x14 4
  let t := if off = 0xFFFFFFFF then 0 else d.localCheck q.ctx q.cl off 4 2
  if t ≠ 0 then d.tierFault q.ctx q.cl false 6 off t
  else
    let d := if off = 0xFFFFFFFF then d else d.write (spadAddr q.cl off) (leBytes 4 status)
    ({ d with descs := d.descs.erase q }).descDone q 3

/-- What a tier command comes to takes effect (R567, R587). -/
def Dev.tierEnd (q : Desc) : TierRes → Dev
  | .hold d => d.noteHeld
  | .done d s => (d.tierDone q s).noteHeld
  | .fault d code detail tr => (d.tierFault q.ctx q.cl false code detail tr).noteHeld

/-- The end of a tier command, once those before it have begun (R187, R567, R569, R587). -/
def Dev.tierComplete (d : Dev) (c k : Nat) (e : Ecc) : Dev :=
  match d.tierDesc c k, d.tierEarlier c k with
  | none, _ => d
  | some _, some (p, o) => d.tierFault p.ctx c false 1 o 0
  | some q, none => d.withHubTrk q.ctx q.pc 5 fun d => Dev.tierEnd q (d.tierRun q e)

/-- TIER_CMD_COMPLETE (R567). -/
def execTierCmdComplete (c : Done) (k : Nat) (e : Ecc) (s : State) : Host.Outcome State Fault Refusal :=
  s.run fun d =>
    let f := d.tierComplete c.n k e
    match d.tierDesc c.n k with
    | some q => f.endLosing d (decide (d.descs.length ≤ f.descs.length)) 4 c.n q.outs c.lost
    | none => f

/-- Change the first descriptor equal to one. -/
def Dev.setDesc (d : Dev) (q q' : Desc) : Dev := { d with descs := updFirst (fun e => e == q) (fun _ => q') d.descs }

/-- The next unit of a CWRITE is programmed (R573, R580); a program that fails retires its block (R576). -/
def Dev.unitProgram (d : Dev) (c : Nat) (q : Desc) (fail : Bool) : Dev :=
    let b := q.bytes
    let ns := atLe b 0x12 1
    let n := atLe b 0x28 8
    let u := (atLe b 0x20 8 + q.prog) / 65536
    let bad := match tierBody b with
      | some o => some (1, o)
      | none => d.nsBad q.ctx b
    match tierOp b == 6, bad with
    | false, _ => d
    | true, some f => d.tierFault q.ctx c false f.1 f.2 0
    | true, none =>
      if !d.chestUp || !q.cfg.isEmpty || n ≤ q.prog || (q.prog == 0 && d.nsRo ns) then d
      else if d.fld Reg.CHEST_STATUS 8 24 = 0 && ((d.nsOf ns).any fun m => decide (m.cap ≤ d.fld (Reg.CHEST_NS_MAP ns) 32 32)) then
        (d.nsReadOnly ns).setDesc q { q with cfg := [2] }
      else
        match d.vread q.ctx (atLe b 0x18 8 + q.prog) 65536 with
        | .bad t a => d.tierFault q.ctx c false 6 a t
        | .poison a => d.tierFault q.ctx c false 7 a 0
        | .ok bs =>
          match d.tierBuffer q.ctx bs with
          | (false, d) => d
          | (true, d) =>
            if fail then
              match d.chest.target with
              | some t => (match d.relocate t with | some e => e.retire t | none => d)
              | none => d
            else
              match d.chestWrite ns u bs with
              | some d => d.setDesc q { q with prog := q.prog + 65536 }
              | none => d

/-- A unit's program completes; once PWR_GOOD has fallen only those in progress do (R881). -/
def Dev.unitProgrammed (d : Dev) (c k : Nat) (fail : Bool) : Dev :=
  match d.tierDesc c k, d.tierEarlier c k with
  | none, _ => d
  | some _, some (p, o) => d.tierFault p.ctx c false 1 o 0
  | some q, none =>
    if d.boot.pwrGood then d.withHubTrk q.ctx q.pc 5 fun d => d.unitProgram c q fail
    else if d.boot.flight.contains (c, q.ea) then
      let b := { d.boot with flight := d.boot.flight.erase (c, q.ea) }
      { ({ d with boot := { b with pwrGood := true } } : Dev).unitProgram c q fail with boot := b }
    else d

/-- CHEST_UNIT_PROGRAMMED (R573, R881). -/
def execChestUnitProgrammed (c k : Nat) (fail : Bool) (s : State) : Host.Outcome State Fault Refusal :=
  s.run (·.unitProgrammed c k fail)

/-- A descriptor issued for a CREAD keeps the ranges it may write (R587). -/
def Dev.noteOuts (d : Dev) (c : Nat) : Dev :=
  match (d.descs.filter fun q => q.cl == c && q.kind == 0x38).getLast? with
  | some q =>
    match d.translate q.ctx .w (atLe q.bytes 0x20 8) (atLe q.bytes 0x28 8) with
    | .ok ps => d.setDesc q { q with outs := ps.map fun p => (p.pa, p.len) }
    | .error _ => d
  | none => d

/-- A slot that issues a tier.cmd of one OP (R565). -/
def Dev.tierSlot (d : Dev) (a : Slot) (op : Nat) : Dev := d.descSlot a 3 0x1C 0x38 fun b => tierOp b == op

/-- OP STAGE, or a reserved one, which its checks turn away with TBODY as the command begins (R566, R586, log entry 125). -/
def isStage : Bytes → Bool := fun b => tierOp b ≤ 1 || decide (7 < tierOp b)

/-- TIER_STAGE (R566). -/
def execTierStage (a : Slot) (s : State) : Host.Outcome State Fault Refusal := s.run fun d => d.descSlot a 3 0x1C 0x38 isStage
/-- DROP (R566). -/
def execDrop (a : Slot) (s : State) : Host.Outcome State Fault Refusal := s.run (·.tierSlot a 2)
/-- FLUSH (R566). -/
def execFlush (a : Slot) (s : State) : Host.Outcome State Fault Refusal := s.run (·.tierSlot a 3)
/-- ADVANCE (R563). -/
def execAdvance (a : Slot) (s : State) : Host.Outcome State Fault Refusal := s.run (·.tierSlot a 4)
/-- CREAD (R566). -/
def execCread (a : Slot) (s : State) : Host.Outcome State Fault Refusal :=
  s.run fun d =>
    let e := d.tierSlot a 5
    if d.descs.length < e.descs.length then e.noteOuts a.cl else e
/-- CWRITE (R573). -/
def execCwrite (a : Slot) (s : State) : Host.Outcome State Fault Refusal := s.run (·.tierSlot a 6)
/-- TRIM (R566). -/
def execTrim (a : Slot) (s : State) : Host.Outcome State Fault Refusal := s.run (·.tierSlot a 7)

/-! ### The prefetch list (R563, R564) -/

/-- The next entry of the list is eligible (R563). -/
def Dev.prefNext (d : Dev) (x : Nat) : Bool :=
  d.hint x && !(d.pref x).stopped &&
    ((planPrefetch (d.ctx x).plan)[(d.pref x).next]?).any fun e =>
      decide (e.layer ≤ (d.pref x).layer + secAt (d.ctx x).plan 11 1 1)

/-- The list runs while the step does. -/
def Dev.inStep (d : Dev) (x : Nat) : Bool := (d.ctx x).state == .running || (d.ctx x).state == .draining

/-- An eligible entry starts in list order, at most four at a time (R563). -/
def Dev.prefStart (d : Dev) (x : Nat) : Dev :=
  let p := d.pref x
  if d.inStep x && d.prefNext x && p.busy.length < 4 then d.setPref x { p with next := p.next + 1, busy := p.busy ++ [p.next] }
  else d

/-- What the k-th entry in progress comes to takes effect: one that is done sends INC to SYNC with SIGNAL (R563, R564). -/
def Dev.prefEnd (x k : Nat) (q : PrefEntry) : TierRes → Dev
  | .hold d => d.noteHeld
  | .fault d code detail tr => (d.tierFault x 0 true code detail tr).noteHeld
  | .done d _ =>
    let p := d.pref x
    let d := (d.setPref x { p with busy := p.busy.eraseIdx k }).noteHeld
    if q.signal && d.owns x q.sync then d.syncAdd q.sync 1 else d

/-- The k-th entry in progress finishes (R563, R569). -/
def Dev.prefDone (d : Dev) (x k : Nat) (e : Ecc) : Dev :=
  match (d.pref x).busy[k]? with
  | none => d
  | some i =>
    match (planPrefetch (d.ctx x).plan)[i]? with
    | none => d
    | some q => d.withHubTrk x 0 5 fun d => Dev.prefEnd x k q (d.stage x q.obj q.tier e)

/-- PREFETCH_ENTRY_START (R563). -/
def execPrefetchEntryStart (x : Nat) (s : State) : Host.Outcome State Fault Refusal := s.run (·.prefStart x)
/-- PREFETCH_ENTRY_COMPLETE (R563). -/
def execPrefetchEntryComplete (x k : Nat) (e : Ecc) (s : State) : Host.Outcome State Fault Refusal := s.run (·.prefDone x k e)

/-- The ageing sweep commits an eviction (R556). -/
def Dev.ageEvict (d : Dev) (x obj pool : Nat) : Dev :=
  let lim := secAt (d.ctx x).plan 11 2 2
  match d.anyEnt x obj pool with
  | some e => if d.loaded x && d.evictable e && lim != 0 && decide (lim ≤ e.age) then (d.evict e).noteHeld else d
  | none => d

/-- AGEING_EVICT (R556). -/
def execAgeingEvict (x obj pool : Nat) (s : State) : Host.Outcome State Fault Refusal := s.run (·.ageEvict x obj pool)

/-- An evicted entry's dirty pages are home and its frames free (R557). -/
def Dev.evictDone (d : Dev) (x obj pool : Nat) : Dev :=
  match d.anyEnt x obj pool with
  | some e =>
    if !e.evicting || d.tierFrozen x then d
    else
      d.withHubTrk x 0 5 fun d =>
        match d.dirtyPoison e with
        | some a => d.tierFault x 0 false 7 (a % 2 ^ 32) 0
        | none => ((d.writeBack e).dropEnt x obj pool).noteHeld
  | none => d

/-- EVICTION_WRITEBACK_DONE (R557). -/
def execEvictionWritebackDone (x obj pool : Nat) (s : State) : Host.Outcome State Fault Refusal := s.run (·.evictDone x obj pool)

/-! ### Registers, namespaces and background work -/

/-- A write of TIER_POOLt_CFG (R547): discarded while a context is loaded, and where BASE is misaligned or the pool meets the
Chest map. -/
def Dev.wTierPool (d : Dev) (src : Master) (t : Nat) (w : Word) : Dev :=
  let off := Reg.TIER_POOL_CFG t
  d.guard src off fun d =>
    let base := fieldOf w 0 48
    let n := fieldOf w 48 16 * 1024 * 65536
    if d.anyLoaded || base % 65536 != 0 || overlap base n (d.mapAddr 0) d.mapBytes then d.logDiscard off
    else d.plainWrite off w

/-- TIER_POOL_WRITE (R547). -/
def execTierPoolWrite (src : Master) (t : Nat) (w : Word) (s : State) : Host.Outcome State Fault Refusal :=
  s.run fun d => if t < 2 then d.wTierPool src t w else d

/-- A write of CHEST_CFG (R588). -/
def Dev.wChestCfg (d : Dev) (src : Master) (w : Word) : Dev :=
  d.guard src Reg.CHEST_CFG fun d =>
    if d.anyLoaded || fieldOf w 0 16 < 16 || fieldOf w 32 24 < 1000 then d.logDiscard Reg.CHEST_CFG
    else d.plainWrite Reg.CHEST_CFG w

/-- CHEST_CFG_WRITE (R588). -/
def execChestCfgWrite (src : Master) (w : Word) (s : State) : Host.Outcome State Fault Refusal := s.run (·.wChestCfg src w)

/-- A write of CHEST_NS_CMD: with a command bit it runs a command (R584). -/
def Dev.wNsCmd (d : Dev) (src : Master) (w : Word) : Dev :=
  let r := Reg.CHEST_NS_CMD
  d.guard src r fun d =>
    if d.bit r 20 then d.logDiscard r
    else
      let d := d.plainWrite r w
      if fieldOf w 8 3 = 0 then d else { d.setBit r 20 true with nsCmd := some (fieldOf w 8 3) }

/-- CREATE (R584). -/
def execCreate (src : Master) (w : Word) (s : State) : Host.Outcome State Fault Refusal := s.run (·.wNsCmd src w)
/-- DELETE (R585). -/
def execDelete (src : Master) (w : Word) (s : State) : Host.Outcome State Fault Refusal := s.run (·.wNsCmd src w)
/-- FORMAT (R585). -/
def execFormat (src : Master) (w : Word) (s : State) : Host.Outcome State Fault Refusal := s.run (·.wNsCmd src w)

/-- Units of all namespaces. -/
def Chest.caps (c : Chest) : Nat := c.ns.foldl (fun v e => v + e.2.cap) 0

/-- Usable units (R574): 88% of the good blocks' units. -/
def Chest.computeU (c : Chest) : Nat := 88 * (c.good * c.upb) / 100

/-- MAP_BYTES in GiB (R545). -/
def Chest.mapGib (c : Chest) : Nat := if c.dies = 0 then 0 else ceilDiv (8 * c.usable + 16 * (32 * c.dies * c.bpd)) (2 ^ 30)

/-- The status code of a namespace command (R584). -/
def Dev.nsCode (d : Dev) (cmd k cap : Nat) : Nat :=
  let st := d.fld Reg.CHEST_STATUS 0 3
  if cmd ≠ 1 && cmd ≠ 2 && cmd ≠ 4 then 1
  else if (cmd = 1 && (d.nsOf k).isSome) || (cmd = 2 && (d.nsOf k).isNone) then 2
  else if (cmd = 2 && d.bit (Reg.CHEST_NS_INFO k) 2) || (cmd = 4 && !d.chest.ns.isEmpty) then 3
  else if cmd = 1 && (cap = 0 || d.chest.usable < d.chest.caps + cap) then 4
  else if st ≠ 2 && st ≠ 3 then 5
  else 0

/-- Namespace k with its registers. -/
def Dev.setNs (d : Dev) (k : Nat) (n : Option ChestNs) : Dev :=
  let d := d.modChest fun c => { c with ns := mapPut c.ns k n }
  match n with
  | some m =>
    let d := (d.setReg (Reg.CHEST_NS_INFO k) (BitVec.ofNat 64 (1 + m.ro.toNat * 2 + m.cap % 2 ^ 40 * 2 ^ 24)))
    d.setFld (Reg.CHEST_NS_MAP k) 0 32 m.base
  | none => (d.setReg (Reg.CHEST_NS_INFO k) 0).setReg (Reg.CHEST_NS_MAP k) 0

/-- Erase every good block, those without a record among them, retire each whose erase count reaches ENDURANCE by it (R576), and recompute
U (R585). -/
def Dev.format (d : Dev) : Dev :=
  let most := d.fld Reg.CHEST_CFG 16 16 * 1000
  let n := d.chest.formats + 1
  let d := d.modChest fun c =>
    { c with units := [], formats := n, ckpt := [], ckSeq := c.seq, bare := c.bare || decide (most ≤ n)
             blks := mapVals (fun _ => {})
               (fun r => if r.retired then r else { erases := r.erases, retired := decide (most ≤ n + r.erases) }) c.blks }
  let d := d.modChest fun c => { c with usable := c.computeU }
  (d.setFld Reg.TIER_CAP_CFG 40 8 d.chest.mapGib).chestCount

/-- The mapped units of a namespace are unmapped. -/
def Dev.unmapAll (d : Dev) (k : Nat) : Dev :=
  (d.chest.units.filter fun e => e.2.ns == k && !e.2.stale).foldl (fun g e => g.unmap k e.2.unit) d

/-- A map range of cap entries from base is free. -/
def Chest.fits (c : Chest) (base cap : Nat) : Bool :=
  decide (base + cap ≤ c.usable) && !c.ns.any fun e => overlap base cap e.2.base e.2.cap

/-- Some map range of cap entries is free. -/
def Chest.hasRoom (c : Chest) (cap : Nat) : Bool := c.fits 0 cap || c.ns.any fun e => c.fits (e.2.base + e.2.cap) cap

/-- The map ranges of the namespaces move together, in the order of BASE, with their entries (log entry 124). -/
def Dev.compact (d : Dev) : Dev :=
  let live := d.chest.units.filter fun e => !e.2.stale
  let low := fun (n : ChestNs) => (d.chest.ns.filter fun e => decide (e.2.base < n.base)).foldl (fun v e => v + e.2.cap) 0
  let entry := fun (e : Dev) (u : FlashUnit) (w : Nat) =>
    match e.nsOf u.ns with
    | some n => e.hubWrite (e.mapAddr (n.base + u.unit)) (leBytes 8 w)
    | none => e
  let d1 := live.foldl (fun e u => entry e u.2 0) d
  let d2 := d.chest.ns.foldl
    (fun e k => (e.modChest fun c => { c with ns := mapPut c.ns k.1 (some { k.2 with base := low k.2 }) }).setFld
      (Reg.CHEST_NS_MAP k.1) 0 32 (low k.2)) d1
  live.foldl (fun e u => entry e u.2 (mapWord u.1)) d2

/-- The map range that a CREATE takes, and the block with it free: base where it is free; the end of the ranges, moved together, where
no range of the size is (log entry 124); none where base is not a range the Chest could give. -/
def Dev.nsPlace (d : Dev) (base cap : Nat) : Option (Nat × Dev) :=
  if d.chest.fits base cap then some (base, d)
  else if d.chest.hasRoom cap then none
  else some (d.chest.caps, d.compact)

/-- A namespace command completes (R584, R585). base is the map range the Chest gives a new namespace, one that is free: another
range cannot arise while one is. -/
def Dev.nsDone (d : Dev) (base : Nat) : Dev :=
  let r := Reg.CHEST_NS_CMD
  match d.nsCmd with
  | none => d
  | some cmd =>
    let k := d.fld r 0 6
    let cap := d.fld r 24 40
    let code := d.nsCode cmd k cap
    let ended := fun (d : Dev) => ({ (d.setFld r 16 4 code).setBit r 20 false with nsCmd := none } : Dev)
    if cmd = 4 && !d.boot.pwrGood then d
    else if code ≠ 0 then ended d
    else if cmd = 1 then
      match d.nsPlace base cap with
      | some (at_, e) => (ended e).setNs k (some { cap := cap, base := at_, born := d.chest.seq })
      | none => d
    else if cmd = 2 then (((ended d).unmapAll k).setNs k none).chestCount
    else (ended d).format

/-- NS_CMD_COMPLETE (R584). -/
def execNsCmdComplete (base : Nat) (s : State) : Host.Outcome State Fault Refusal := s.run (·.nsDone base)

/-- A programmed unit is what the map names after a mount (R573, R583): the newest footer of its unit past the last map checkpoint, or,
with none, the location that the checkpoint holds; footers from before its namespace was created count for nothing (log entry 123). -/
def Chest.live (c : Chest) (e : Nat × FlashUnit) : Bool :=
  let u := e.2
  let same := fun (f : FlashUnit) => f.ns == u.ns && f.unit == u.unit
  (mapFind c.ns u.ns).any (fun n => decide (n.born < u.seq) && decide (u.unit < n.cap)) &&
    !(c.units.any fun f => same f.2 && decide (max u.seq c.ckSeq < f.2.seq)) &&
    (decide (c.ckSeq < u.seq) || mapFind c.ckpt (unitKey u.ns u.unit) == some e.1)

/-- The Chest mounts (R583): it takes the last map checkpoint and applies the footers written since, by which namespaces and their units
return and other locations are stale, and it is READY, or DEGRADED or WORN as its blocks are. -/
def Dev.mount (d : Dev) : Dev :=
  if d.fld Reg.CHEST_STATUS 0 3 ≠ 1 then d
  else
    let d := if d.chest.usable = 0 then d.modChest fun c => { c with usable := c.computeU } else d
    let d := d.modChest fun c =>
      { c with since := 0, units := c.units.map fun e => (e.1, { e.2 with stale := !c.live e }) }
    let d := d.chest.ns.foldl (fun g e => g.setNs e.1 (some e.2)) d
    let d := d.chest.units.foldl (fun g e =>
      match g.nsOf e.2.ns with
      | some n =>
        if e.2.stale then g
        else (g.hubWrite (g.mapAddr (n.base + e.2.unit)) (leBytes 8 (mapWord e.1))).addFld (Reg.CHEST_NS_MAP e.2.ns) 32 32 1
      | none => g) d
    (d.setFld Reg.CHEST_STATUS 0 3 (if d.chest.reserve ≤ 1024 then 4 else 2)).chestCount

/-- CHEST_MOUNT_COMPLETE (R583). -/
def execChestMountComplete (s : State) : Host.Outcome State Fault Refusal := s.run Dev.mount

/-- A background window of a resource instance is open: it was opened, and Trestle time lies in it (R138, R139). -/
def Dev.windowOpen (d : Dev) (r n : Nat) : Bool := mapGet (fun _ => false) d.windows (r * 16 + n) && d.inWin r n

/-- The Chest may do background work: it is mounted and its window is open (R578). -/
def Dev.chestBg (d : Dev) : Bool := d.boot.pwrGood && d.chestUp && d.windowOpen 2 0

/-- The lowest and the highest erase count of the good blocks, above those that every block has from FORMAT. -/
def Chest.spread (c : Chest) : Nat × Nat :=
  let rs := (c.blks.filter fun e => !e.2.retired).map fun e => e.2.erases
  let hi := rs.foldl max 0
  (if !c.bare && c.blks.length < 32 * c.dies * c.bpd then 0 else rs.foldl min hi, hi)

/-- The dies attached, in the order of block numbers. -/
def Chest.allDies (c : Chest) : List Nat := (upFrom 0 32).flatMap fun ch => upFrom (ch * 16) c.dies

/-- The lowest-count good block (R576): the lowest number among equals, one without a record having count 0. -/
def Chest.coldest (c : Chest) : Option Nat :=
  let lo := c.spread.1
  let listed := (c.blks.filter fun e => !e.2.retired && e.2.erases == lo).map Prod.fst
  let bare := if lo = 0 then (c.allDies.filterMap c.unlisted).take 1 else []
  match listed ++ bare with
  | [] => none
  | b :: t => some (t.foldl min b)

/-- Wear levelling (R576): the valid units of the lowest-count block move and it is erased. -/
def Dev.wearLevel (d : Dev) (fail : Bool) : Dev :=
  let s := d.chest.spread
  if d.chestBg && d.fld Reg.CHEST_CFG 0 16 < s.2 - s.1 then
    match d.chest.coldest with
    | some b => d.moveAndErase b fail
    | none => d
  else d

/-- WEAR_LEVEL (R576). -/
def execWearLevel (fail : Bool) (s : State) : Host.Outcome State Fault Refusal := s.run (·.wearLevel fail)

/-- Read-disturb relocation of a block whose read count reached RD_LIMIT (R577). -/
def Dev.readDisturb (d : Dev) (b : Nat) (fail : Bool) : Dev :=
  if d.chestBg && d.fld Reg.CHEST_CFG 32 24 ≤ (d.chest.blk b).reads then d.moveAndErase b fail else d

/-- READ_DISTURB_RELOCATE (R577). -/
def execReadDisturbRelocate (b : Nat) (fail : Bool) (s : State) : Host.Outcome State Fault Refusal := s.run (·.readDisturb b fail)

/-- A map checkpoint is written to flash (R578, R583): the location of every mapped unit. -/
def Chest.checkpoint (c : Chest) : Chest :=
  { c with ckSeq := c.seq
           ckpt := (c.units.filter fun e => !e.2.stale).foldl (fun m e => mapPut m (unitKey e.2.ns e.2.unit) (some e.1)) [] }

/-- MAP_CHECKPOINT (R578): after every 4,194,304 unit writes. -/
def execMapCheckpoint (s : State) : Host.Outcome State Fault Refusal :=
  s.run fun d => if d.chestBg && 4194304 ≤ d.chest.unsaved then d.modChest Chest.checkpoint else d

end Sys2Proof.Machine
end

