-- ==== Sys2Proof/Machine/Ckpt.lean ====
section
/-!
DEFINITION. The checkpoint engine (R775 to R791): ckp.snap, the snapshot point, copy-on-write, the manifest, restore; the
acknowledgements of its requests, and journal export (R721, R810).
-/

namespace Sys2Proof.Machine

/-! ### Issue (R775 to R778) -/

/-- A fault of the checkpoint engine for context x (R788). -/
def Dev.ckpFault (d : Dev) (x c code detail trans : Nat) : Dev :=
  let d :=
    if d.bit Reg.CKP_FAULT 8 then d.setBit Reg.CKP_FAULT 9 true
    else d.setReg Reg.CKP_FAULT (BitVec.ofNat 64 (code + 2 ^ 8 + c % 128 * 2 ^ 16 + x % 8 * 2 ^ 24 + detail % 2 ^ 32 * 2 ^ 32))
  d.freeze x 0xC code 0 trans 0 detail

/-- The body checks of a ckp.snap (R775, R788). -/
def ckpBody (b : Bytes) : Option Nat :=
  leastBad ([(4, atLe b 4 1 != 0), (0x10, decide (15 < atLe b 0x10 1)), (0x11, atLe b 0x11 1 != 0),
    (0x12, atLe b 0x12 2 == 0 || decide (4096 < atLe b 0x12 2)),
    (0x18, atLe b 0x18 8 % 64 != 0 || decide (2 ^ 48 ≤ atLe b 0x18 8)), (0x28, atLe b 0x28 8 % 4096 != 0),
    (0x30, atLe b 0x30 4 % 4096 != 0)] ++ badBytes b 0x14 4 ++ badBytes b 0x34 12)

/-- Shard entry i of a table (R776), without its pieces. -/
def shardOf (t : Bytes) (i : Nat) : Shard :=
  { addr := atLe t (32 * i) 8, size := atLe t (32 * i + 8) 8, roff := atLe t (32 * i + 16) 8, name := atLe t (32 * i + 24) 4, pieces := [] }

/-- A shard entry breaks R777: its fields, the entries before it, the manifest range. -/
def shardBad (t b : Bytes) (before : List Shard) (i : Nat) : Bool :=
  let s := shardOf t i
  s.addr % 4096 != 0 || decide (2 ^ 48 < s.addr + s.size) || s.size % 4096 != 0 || s.size == 0 || decide (64 * 2 ^ 30 < s.size) ||
    s.roff % 4096 != 0 || !zeroAt t (32 * i + 28) 4 || before.any (fun k => overlap s.addr s.size k.addr k.size) ||
    before.any (fun k => overlap s.roff s.size k.roff k.size) || overlap s.roff s.size (atLe b 0x28 8) (atLe b 0x30 4)

/-- Some address of a range lies in a tier window of context x. -/
def Dev.inWindow (d : Dev) (x a n : Nat) : Bool := (planObjs (d.ctx x).plan).any fun o => overlap a n o.window o.size

/-- Check and translate the shards from index i (R777). -/
def Dev.takeShards (d : Dev) (x : Nat) (t b : Bytes) : Nat → Nat → List Shard → Except EngErr (List Shard)
  | 0, _, done => .ok done
  | n + 1, i, done =>
    let s := shardOf t i
    if shardBad t b done i || d.inWindow x s.addr s.size then .error { code := 0x61, detail := i }
    else
      match d.translate x .r s.addr s.size with
      | .error r => .error { code := 0x62, detail := r.2 % 2 ^ 32, trans := r.1 }
      | .ok ps => Dev.takeShards d x t b n (i + 1) (done ++ [{ s with pieces := ps.map fun p => (p.pa, p.len) }])

/-- The shards of a ckp.snap, or its fault. -/
def Dev.snapShards (d : Dev) (x : Nat) (b : Bytes) : Except EngErr (List Shard) :=
  let n := atLe b 0x12 2
  if !netFor (d.tgt (atLe b 0x10 1)) x then .error { code := 0x61 }
  else
    match d.vread x (atLe b 0x18 8) (32 * n) with
    | .bad t a => .error { code := 0x62, detail := a % 2 ^ 32, trans := t }
    | .poison a => .error { code := 0x63, detail := a % 2 ^ 32 }
    | .ok t => d.takeShards x t b n 0 []

/-- A ckp.snap ends as SKIPPED (R778). -/
def Dev.snapSkip (d : Dev) (x : Nat) : Dev := d.setFld (Reg.CKP_CTX_STATUS x) 8 4 1

/-- The engine takes a ckp.snap at its issue (R777, R778). -/
def Dev.snapTake (d : Dev) (q : Desc) : Dev :=
  let x := q.ctx
  let fault := fun (d : Dev) (e : EngErr) => d.ckpFault x q.cl e.code e.detail e.trans
  match ckpBody q.bytes with
  | some o => fault d { code := 0x60, detail := o }
  | none =>
    if !d.cabOn x 10 then d.cabFault ⟨x, 0, 0⟩ 6 10
    else if (mapFind d.snaps x).any fun s => s.phase == 2 || decide (s.cl ≤ q.cl) then d.snapSkip x
    else
      match d.snapShards x q.bytes with
      | .error e => fault d e
      | .ok ss =>
        let d := if (mapFind d.snaps x).isSome then d.snapSkip x else d.setFld (Reg.CKP_CTX_STATUS x) 8 4 0
        { d.setFld (Reg.CKP_CTX_STATUS x) 0 3 1 with snaps := mapPut d.snaps x (some { cl := q.cl, body := q.bytes, shards := ss }) }

/-- CKP_SNAP (R778): the descriptor issues, and the engine takes it. -/
def Dev.ckpSlot (d : Dev) (a : Slot) : Dev :=
  let e := d.descSlot a 3 0x1E 0x3C anyBody
  match e.descs.find? fun q => q.kind == 0x3C with
  | some q => { e with descs := e.descs.erase q }.snapTake q
  | none => e

/-- CKP_SNAP (R778). -/
def execCkpSnap (a : Slot) (s : State) : Host.Outcome State Fault Refusal := s.run (·.ckpSlot a)

/-! ### The snapshot point and the copy (R779 to R783) -/

/-- Zeros up to a multiple of 64. -/
def pad64 (bs : Bytes) : Bytes := bs ++ List.replicate ((64 - bs.length % 64) % 64) 0

/-- The protected units of a range outside the scratchpads: 256 KiB each (R779). -/
def unitsOf (a n : Nat) : List Nat :=
  if 0x200000000000 ≤ a || n = 0 then [] else upFrom (a / 262144) ((a + n - 1) / 262144 + 1 - a / 262144)

/-- The sequencer registers of a cluster as a manifest's register record (R784). -/
def SeqRegs.record (r : SeqRegs) (c : Nat) : Bytes :=
  pad64 (leBytes 8 c ++ (upFrom 0 32).flatMap (fun i => leBytes 8 (r.sr i).toNat) ++
    (upFrom 0 16).flatMap (fun i => leBytes 8 (r.ar i).toNat) ++ leBytes 8 r.pregs.toNat)

/-- The clusters of a plan, ascending. -/
def planOrder (p : Bytes) : List Nat := (upFrom 0 128).filter fun c => (planCluster p c).isSome

/-- The state a snapshot latches for its manifest (R779, R784): the header up to PLAN_CRC, sync, bias and register records. -/
def Dev.latch (d : Dev) (x step : Nat) (regs : Bool) (s : Snap) : Snap :=
  let p := (d.ctx x).plan
  let objs := (d.objs.filter fun e => e.2.owned && e.2.ctx == x).flatMap fun e =>
    leBytes 2 e.1 ++ leBytes 2 (e.2.ovf.toNat + e.2.reinit.toNat * 2) ++ leBytes 4 e.2.count.toNat
  let lo := d.fld (Reg.DRS_CTX_BIAS x) 0 17
  { s with
    step := step
    head := leBytes 4 0x54504B43 ++ leBytes 2 1 ++ leBytes 1 regs.toNat ++ leBytes 1 x ++ leBytes 8 (atLe s.body 0x20 8) ++
      leBytes 8 step ++ leBytes 2 (planJob p) ++ leBytes 2 d.node ++ leBytes 4 (planDevices p) ++
      leBytes 8 (d.reg (Reg.DRS_CTX_PLACE_ID x)).toNat ++ leBytes 4 (atLe p 0xC 4)
    syncs := objs
    bias := (upFrom lo (d.fld (Reg.DRS_CTX_BIAS x) 32 17)).flatMap fun i => leBytes 4 (d.fld (Reg.DRS_BIAS i) 0 32)
    regs := if regs then (planOrder p).flatMap fun c => (d.seqr c x).record c else [] }

/-- The 256 KiB messages of a snapshot: shard, offset and length, in order (R782, R783). -/
def Snap.msgs (s : Snap) : List (Nat × Nat × Nat) :=
  (s.shards.mapIdx fun i h =>
    (upFrom 0 (ceilDiv h.size 262144)).map fun j => (i, 262144 * j, min 262144 (h.size - 262144 * j))).flatten

/-- The device physical parts of a slice of pieces. -/
def slicePieces : List (Nat × Nat) → Nat → Nat → List (Nat × Nat)
  | [], _, _ => []
  | (a, m) :: t, off, n =>
    if m ≤ off then slicePieces t (off - m) n
    else
      let k := min n (m - off)
      if n = 0 then [] else (a + off, k) :: slicePieces t 0 (n - k)

/-- The protected units that a message draws on. -/
def Snap.draws (s : Snap) (m : Nat × Nat × Nat) : List Nat :=
  match s.shards[m.1]? with
  | some h => (slicePieces h.pieces m.2.1 m.2.2).flatMap fun r => unitsOf r.1 r.2
  | none => []

/-- A message may go: every unit it draws on is copied. -/
def Snap.ready (s : Snap) (m : Nat × Nat × Nat) : Bool := (s.draws m).all fun u => !s.units.any fun e => e.1 == u

/-- Write the snapshot of a context. -/
def Dev.setSnap (d : Dev) (x : Nat) (s : Snap) : Dev := { d with snaps := mapPut d.snaps x (some s) }

/-- The tracker that a request of a snapshot of n bytes takes from the hub-engine reserve (R97, R783, log entry 115). -/
def snapTracker (d : Dev) (x n : Nat) : Tracker :=
  { node := d.node, ctx := x, hub := true, length := min 4096 (ceilDiv n 16), kind := 2, state := 2, src := 12, since := d.time.toNat }

/-- The Cabinet buffer of client 10 that stages a message (R524, R782), while the hub-engine reserve has a tracker. -/
def Dev.snapBuf (d : Dev) (x : Nat) (bs : Bytes) : Option Buf × Dev :=
  match d.cabAlloc x 10 bs.length 10 with
  | (some b, e) => (some b, e.cabFill b bs)
  | r => r

/-- Send the messages of a snapshot that may go, in order, each with a tracker and a buffer that it holds until it is acknowledged; with
none free the engine stalls (R97, R534, R783); a target that refuses ends it with NET (R809). -/
def Dev.snapSend (x : Nat) : Nat → Dev → Dev
  | 0, d => d
  | n + 1, d =>
    match mapFind d.snaps x with
    | none => d
    | some s =>
      match s.msgs[s.sent]? with
      | none => d
      | some m =>
        if !s.ready m then d
        else
          match s.shards[m.1]?, s.datas[m.1]?, d.freeHubTrk with
          | some h, some bs, some k =>
            let part := (bs.drop m.2.1).take m.2.2
            match d.snapBuf x part with
            | (none, e) => e
            | (some b, e) =>
              match (e.takeTrk k (snapTracker e x part.length)).netSend (atLe s.body 0x10 1) 0 x (h.roff + m.2.1) part 0 (some k) (some b) with
              | some e => Dev.snapSend x n (e.setSnap x { s with sent := s.sent + 1 })
              | none => d.snapAbort x 3
          | _, _, _ => d

/-- The buffers of units copied early go back once no message that waits draws on them (R782). -/
def Dev.dropEarly (d : Dev) (x : Nat) : Dev :=
  match mapFind d.snaps x with
  | none => d
  | some s =>
    let needed := fun (u : Nat) => (s.msgs.drop s.sent).any fun m => (s.draws m).contains u
    (s.early.filter fun p => !needed p.1).foldl (fun e p => e.ckpBack p.2) (d.setSnap x { s with early := s.early.filter fun p => needed p.1 })

/-- The snapshot point of context x, as step closes (R779): stopped says whether it enters STOPPED. -/
def Dev.snapPoint (d : Dev) (x step : Nat) (stopped : Bool) : Dev :=
  match mapFind d.snaps x with
  | none => d
  | some s =>
    let ps := s.shards.flatMap Shard.pieces
    let spad := ps.filter fun r => decide (0x200000000000 ≤ r.1)
    if s.phase ≠ 1 then d
    else if !spad.isEmpty && !stopped then d.snapAbort x 2
    else if spad.any fun r => d.poisoned r.1 r.2 then d.snapAbort x 5
    else
      let units := (ps.flatMap fun r => unitsOf r.1 r.2).foldl
        (fun m u => mapPut m u (some (d.poisoned (u * 262144) 262144))) ([] : SMap Bool)
      let s := d.latch x step stopped
        { s with phase := 2, units := units, datas := s.shards.map fun h => h.pieces.flatMap fun r => d.read r.1 r.2 }
      let r := Reg.CKP_CTX_STATUS x
      let d := (((d.setFld r 0 3 2).setFld r 8 4 0).setFld r 32 32 0).setReg (Reg.CKP_CTX_STEP x) (BitVec.ofNat 64 step)
      Dev.snapSend x s.msgs.length (d.setSnap x s)

/-- The buffer of a unit's copy that is made before its turn: a shared one of client 10, never its reserve (R781, R782). The copy of
the unit that the next message draws on needs none; with none free an early one waits. -/
def Dev.earlyBuf (d : Dev) (x u : Nat) (s : Snap) : Option (List (Nat × Buf)) × Dev :=
  if (s.msgs[s.sent]?).any fun m => (s.draws m).contains u then (some [], d)
  else
    match d.cabPick x 10 262144 with
    | some (_, false) =>
      match d.cabAlloc x 10 262144 10 with
      | (some b, e) => (some [(u, b)], e)
      | (none, e) => (none, e)
    | _ => (none, d.cabWait x 10 262144)

/-- A protected unit is copied and unprotected (R781, R782); a poisoned one ends the snapshot (R785). -/
def Dev.cowCopy (d : Dev) (x u : Nat) (e : Ecc) : Dev :=
  match mapFind d.snaps x with
  | none => d
  | some s =>
    match mapFind s.units u with
    | none => d
    | some bad =>
      let d := d.eccEvent e (eccLane (u * 262144)) (u * 262144)
      if s.phase ≠ 2 then d
      else if bad || e == .uncorrectable then d.snapAbort x 5
      else
        match d.earlyBuf x u s with
        | (none, e) => e
        | (some bs, e) =>
          let e := (e.hcTouch x (u * 262144) 262144 false).setSnap x { s with units := mapPut s.units u none, early := s.early ++ bs }
          let e := e.addFld (Reg.CKP_CTX_STATUS x) 32 32 1
          (Dev.snapSend x s.msgs.length e).dropEarly x

/-- COW_COPY_COMPLETE (R781). -/
def execCowCopyComplete (x u : Nat) (e : Ecc) (s : State) : Host.Outcome State Fault Refusal := s.run (·.cowCopy x u e)

/-- The manifest of a snapshot (R784). -/
def Snap.manifest (s : Snap) : Bytes :=
  let ents := (s.shards.zip s.datas).flatMap fun e =>
    leBytes 8 e.1.name ++ leBytes 8 e.1.addr ++ leBytes 8 e.1.size ++ leBytes 8 e.1.roff ++ sha256 e.2
  let syncs := pad64 s.syncs
  let bias := pad64 s.bias
  let n := 64 + ents.length + syncs.length + bias.length + s.regs.length + 64
  let body := s.head ++ leBytes 2 s.shards.length ++ leBytes 2 0 ++ leBytes 4 (s.syncs.length / 8) ++ leBytes 4 (s.bias.length / 4) ++
    leBytes 4 (s.regs.length / 448) ++ leBytes 4 n ++ ents ++ syncs ++ bias ++ s.regs
  body ++ sha256 body ++ List.replicate 32 0

/-- Every shard is acknowledged: the manifest is written, or the snapshot ends for want of space (R783, R784). -/
def Dev.sendManifest (d : Dev) (x : Nat) (s : Snap) : Dev :=
  let m := s.manifest
  if atLe s.body 0x30 4 < m.length then d.snapAbort x 6
  else
    match d.freeHubTrk with
    | none => d
    | some k =>
      match (d.takeTrk k (snapTracker d x m.length)).netSend (atLe s.body 0x10 1) 1 x (atLe s.body 0x28 8) m 0 (some k) with
      | some d => d.setSnap x { s with man := some m }
      | none => d.snapAbort x 3

/-- A snapshot that is COPYING goes on: the messages that may go leave, and once all are acknowledged the manifest (R782, R783). -/
def Dev.snapGo (d : Dev) (x : Nat) : Dev :=
  match mapFind d.snaps x with
  | none => d
  | some s =>
    if s.phase ≠ 2 || s.man.isSome then d
    else if s.acked = s.msgs.length then d.sendManifest x s
    else (Dev.snapSend x s.msgs.length d).dropEarly x

/-- Every snapshot goes on in a hub cycle: one that stalled for a tracker or a buffer asks again (R534). -/
def Dev.snapsGo (d : Dev) : Dev := (d.snaps.map Prod.fst).foldl Dev.snapGo d

/-- One acknowledged write makes its transfer advance (R721, R783, R810). -/
def Dev.netAcked (d : Dev) (t : Nat) (m : NetMsg) : Dev :=
  if m.kind = 2 then
    if (d.qp t).msgs.any fun k => k.kind == 2 && k.ctx == m.ctx then d
    else d.setReg (Reg.FPU_CTX_JHEAD m.ctx) (d.reg (Reg.FPU_CTX_JHEAD m.ctx) + BitVec.ofNat 64 m.len)
  else
    match mapFind d.snaps m.ctx with
    | none => d
    | some s =>
      if m.kind = 1 then d.setSnap m.ctx { s with manAcked := true }
      else (d.setSnap m.ctx { s with acked := s.acked + 1 }).snapGo m.ctx

/-- An acknowledgement on the queue pair of target t (R783). -/
def Dev.netAck (d : Dev) (t psn : Nat) : Dev :=
  let q := d.qp t
  let done := ackedBy psn q.msgs
  done.foldl (fun e m => ((e.setQp t { e.qp t with msgs := (e.qp t).msgs.drop 1 }).endMsg m).netAcked t m) d

/-- RDMA_ACK_IN (R783). -/
def execRdmaAckIn (t psn : Nat) (s : State) : Host.Outcome State Fault Refusal := s.run fun d => if t < 16 then d.netAck t psn else d

/-- The snapshot whose manifest is acknowledged is DONE (R783, R784). -/
def Dev.snapDone (d : Dev) (x : Nat) : Dev :=
  match mapFind d.snaps x with
  | some { man := some m, manAcked := true, .. } =>
    let dig := (m.drop (m.length - 64)).take 32
    let d := (upFrom 0 4).foldl (fun e k => e.setReg (Reg.CKP_CTX_DIGEST x k) (BitVec.ofNat 64 (atLe dig (8 * k) 8))) d
    { (d.setFld (Reg.CKP_CTX_STATUS x) 0 3 3).setFld (Reg.CKP_CTX_STATUS x) 8 4 0 with snaps := mapPut d.snaps x none }
  | _ => d

/-- SNAPSHOT_DONE (R783). -/
def execSnapshotDone (x : Nat) (s : State) : Host.Outcome State Fault Refusal := s.run (·.snapDone x)

/-! ### Restore (R789 to R791) -/

/-- Set the outcome of the restore. -/
def Dev.restoreOut (d : Dev) (r : Restore) (code detail : Nat) : Dev := { d with restore := some { r with out := some (code, detail) } }

/-- Ask for n bytes of the restore's target. -/
def Dev.restoreRead (d : Dev) (r : Restore) (off n : Nat) : Dev :=
  match { d with restore := some r }.netSend r.tgt 3 r.ctx off [] n with
  | some d => d
  | none => d.restoreOut r 2 0

/-- A write of CKP_RESTORE_CTRL (R789, R833): with GO it starts a restore. -/
def Dev.wRestore (d : Dev) (src : Master) (w : Word) : Dev :=
  let off := Reg.CKP_RESTORE_CTRL
  d.guard src off fun d =>
    if d.bit Reg.CKP_RESTORE_STATUS 8 || !d.bit Reg.BUR_STATUS 0 then d.logDiscard off
    else
      let d := d.plainWrite off w
      if !bitOf w 12 then d
      else
        let x := fieldOf w 0 3
        let r : Restore := { ctx := x, tgt := fieldOf w 8 4, off := fieldOf w 16 48 * 4096 }
        let d : Dev := { d.setBit Reg.CKP_RESTORE_STATUS 8 true with restore := some r }
        if (d.ctx x).state ≠ .loaded then d.restoreOut r 1 0 else d.restoreRead r r.off 64

/-- RESTORE_GO (R789). -/
def execRestoreGo (src : Master) (w : Word) (s : State) : Host.Outcome State Fault Refusal := s.run (·.wRestore src w)

/-- Shards of a manifest: address, size, target offset and digest. -/
def manShard (m : Bytes) (i : Nat) : Nat × Nat × Nat × Bytes :=
  let o := 64 + 64 * i
  (atLe m (o + 8) 8, atLe m (o + 16) 8, atLe m (o + 24) 8, (m.drop (o + 32)).take 32)

/-- SHARDS of a manifest. -/
def manCount (m : Bytes) : Nat := atLe m 0x2C 2

/-- Ask for the next part of the shard that arrives. -/
def Dev.restoreNext (d : Dev) (r : Restore) : Dev :=
  if manCount r.man ≤ r.shard then d.restoreOut r 0 0
  else
    let s := manShard r.man r.shard
    d.restoreRead r (s.2.2.1 + r.buf.length) (min 262144 (s.2.1 - r.buf.length))

/-- The manifest has arrived whole: checks 1 to 3 of R789. -/
def Dev.restoreManifest (d : Dev) (r : Restore) : Dev :=
  let m := r.man
  let n := m.length
  let x := r.ctx
  let p := (d.ctx x).plan
  if sha256 (m.take (n - 64)) ≠ (m.drop (n - 64)).take 32 then d.restoreOut r 3 0
  else if atLe m 0x18 2 ≠ planJob p || atLe m 0x1A 2 ≠ d.node || atLe m 0x1C 4 ≠ planDevices p ||
      atLe m 0x20 8 ≠ (d.reg (Reg.DRS_CTX_PLACE_ID x)).toNat then d.restoreOut r 4 0
  else
    match (upFrom 0 (manCount m)).find? fun i =>
        match d.translate x .w (manShard m i).1 (manShard m i).2.1 with | .error _ => true | .ok _ => false with
    | some i => d.restoreOut r 5 i
    | none => d.restoreNext r

/-- Bytes of a shard arrive and are written, never tagged (R789, R790); lost are the scratchpad words they lose (R510). -/
def Dev.restoreShard (d : Dev) (r : Restore) (bs : Bytes) (lost : List (Nat × Nat)) : Dev :=
  let s := manShard r.man r.shard
  match d.translate r.ctx .w (s.1 + r.buf.length) bs.length with
  | .error _ => d.restoreOut r 5 r.shard
  | .ok ps =>
    let d := d.writeLosing lost r.ctx ps bs
    let r := { r with buf := r.buf ++ bs }
    if r.buf.length < s.2.1 then d.restoreNext r
    else if sha256 r.buf ≠ s.2.2.2 then d.restoreOut r 6 r.shard
    else d.restoreNext { r with shard := r.shard + 1, buf := [] }

/-- Restore data arrives on target t (R789). -/
def Dev.restoreData (d : Dev) (t : Nat) (bs : Bytes) (lost : List (Nat × Nat)) : Dev :=
  match d.restore, (d.qp t).msgs with
  | some r, m :: rest =>
    if r.tgt ≠ t || m.kind ≠ 3 || !m.sent || m.len ≠ bs.length || r.out.isSome then d
    else
      let d := d.setQp t { d.qp t with msgs := rest }
      if r.man.isEmpty then
        let n := atLe bs 0x3C 4
        let r := { r with man := bs }
        if atLe bs 0 4 ≠ 0x54504B43 || atLe bs 4 2 ≠ 1 || n % 64 ≠ 0 || n < 128 then d.restoreOut r 3 0
        else d.restoreRead r (r.off + 64) (n - 64)
      else if r.man.length = 64 then d.restoreManifest { r with man := r.man ++ bs }
      else d.restoreShard r bs lost
  | _, _ => d

/-- RDMA_READ_RESP_IN (R789). -/
def execRdmaReadRespIn (t : Done) (data : Bytes) (s : State) : Host.Outcome State Fault Refusal :=
  s.run fun d => if t.n < 16 then d.restoreData t.n data t.lost else d

/-- The sequencer registers that a register record holds (R784, R789). -/
def recordRegs (r : SeqRegs) (b : Bytes) : SeqRegs :=
  let r := (upFrom 0 32).foldl (fun r i => r.setS i (BitVec.ofNat 64 (atLe b (8 + 8 * i) 8))) r
  let r := (upFrom 0 16).foldl (fun r i => r.setA i (BitVec.ofNat 48 (atLe b (264 + 8 * i) 8))) r
  (upFrom 0 8).foldl (fun r i => r.setP i (bitsOf (atLe b 392 1) i 1 == 1)) r

/-- The register records of a manifest. -/
def manRegs (m : Bytes) : List Bytes :=
  let n := atLe m 0x38 4
  let start := m.length - 64 - 448 * n
  (upFrom 0 n).map fun i => (m.drop (start + 448 * i)).take 448

/-- Write the register records in order, up to the first that names a cluster without an entry: whether all were written. -/
def Dev.restoreRegs (x : Nat) : List Bytes → Dev → Bool × Dev
  | [], d => (true, d)
  | b :: t, d =>
    let c := atLe b 0 1
    if (planCluster (d.ctx x).plan c).isNone then (false, d)
    else Dev.restoreRegs x t (d.setSeqr c x (recordRegs (d.seqr c x) b))

/-- Bytes of shards not verified hold undefined data (R790). -/
def Dev.restoreLoosen (d : Dev) (r : Restore) : Dev :=
  (upFrom r.shard (manCount r.man - r.shard)).foldl
    (fun e i =>
      match e.translate r.ctx .w (manShard r.man i).1 (manShard r.man i).2.1 with
      | .ok ps => e.loosen (ps.map fun p => (p.pa, p.len))
      | .error _ => e) d

/-- The restore ends (R789, R802). -/
def Dev.restoreDone (d : Dev) : Dev :=
  match d.restore with
  | some r =>
    match r.out with
    | none => d
    | some (code, detail) =>
      let d := if (code = 2 || code = 6) && 64 < r.man.length then d.restoreLoosen r else d
      let w := if code = 0 && bitsOf (atLe r.man 6 1) 0 1 = 1 then Dev.restoreRegs r.ctx (manRegs r.man) d else (true, d)
      let code := if w.1 then code else 7
      let d := w.2.setReg Reg.CKP_RESTORE_STATUS (BitVec.ofNat 64 (code + detail % 2 ^ 32 * 2 ^ 32))
      { d with restore := none }.ctxEvent r.ctx
  | none => d

/-- RESTORE_COMPLETE (R789). -/
def execRestoreComplete (s : State) : Host.Outcome State Fault Refusal := s.run Dev.restoreDone

/-! ### Journal export (R721, R810) -/

/-- What the Bureau or another hub master reads of memory that it cannot fault on: bytes of a poisoned unit are free. -/
def Dev.softRead (d : Dev) (a n : Nat) : Bytes × Dev :=
  if d.poisoned a n then
    ((upFrom a n).map fun b => if d.poisoned b 1 then Config.freeByte (d.freeCtr + (b - a)) else d.byte b, { d with freeCtr := d.freeCtr + n })
  else (d.read a n, d)

/-- Bytes of a journal ring from a byte count, wrapping (R719). -/
def Dev.ringRead (d : Dev) (x pos n : Nat) : Bytes × Dev :=
  let base := d.fld (Reg.FPU_CTX_JBASE x) 0 48
  let size := d.fld (Reg.FPU_CTX_JSIZE x) 0 40
  let o := pos % size
  let k := min n (size - o)
  let p := d.softRead (base + o) k
  let q := p.2.softRead base (n - k)
  (p.1 ++ q.1, q.2)

/-- A journal record leaves for the export target in a background window (R810). -/
def Dev.journalExport (d : Dev) (x : Nat) : Dev :=
  let head := (d.reg (Reg.FPU_CTX_JHEAD x)).toNat
  let tail := (d.reg (Reg.FPU_CTX_JTAIL x)).toNat
  let size := d.fld (Reg.FPU_CTX_JSIZE x) 0 40
  let busy := d.qps.any fun e => e.2.msgs.any fun m => m.kind == 2 && m.ctx == x
  let open_ := (upFrom 0 8).any fun n => d.windowOpen 0 n
  match (upFrom 0 16).find? fun t => netFor (d.tgt t) x && bitsOf (atLe (d.tgt t) 0 1) 3 1 == 1 with
  | none => d
  | some t =>
    let cap := atLe (d.tgt t) 0x30 8
    if !d.bit (Reg.FPU_CTX_JCFG x) 16 || tail ≤ head || size = 0 || busy || !open_ || cap = 0 then d
    else
      let h := d.ringRead x head 64
      let n := atLe h.1 8 4
      let r := h.2.ringRead x head n
      let o := head % cap
      let k := min n (cap - o)
      match r.2.netSend t 2 x o (r.1.take k) n with
      | none => d
      | some e => if k = n then e else (e.netSend t 2 x 0 (r.1.drop k) n).getD d

/-- JOURNAL_EXPORT (R810). -/
def execJournalExport (x : Nat) (s : State) : Host.Outcome State Fault Refusal := s.run fun d => if x < 8 then d.journalExport x else d

end Sys2Proof.Machine
end

