-- ==== Sys2Proof/Machine/CollMath.lean ====
section
/-!
DEFINITION. The arithmetic and the data flow of a collective (R671 to R678): what a member lifts, combines, carries and writes,
the streams of chunks it receives and sends on either path, and its result.
-/

namespace Sys2Proof.Machine

/-- An operation as one member sees it: its parameters, and the group (R664, R665). rank is this device's. -/
structure CollEnv where
  op : Nat
  mode : Nat
  rop : Nat
  ifmt : Nat
  ofmt : Nat
  cfmt : Nat
  w : Int
  count : Nat
  root : Nat
  q : Nat
  rank : Nat
  nodes : List Nat
  ll : Bool
  deriving DecidableEq, Repr

/-- Members. -/
def CollEnv.n (e : CollEnv) : Nat := e.nodes.length
/-- Bench sets. -/
def CollEnv.benches (e : CollEnv) : Nat := e.n / e.q
/-- This device's bench index. -/
def CollEnv.b (e : CollEnv) : Nat := e.rank / e.q
/-- This device's local index. -/
def CollEnv.l (e : CollEnv) : Nat := e.rank % e.q
/-- Node of member (b, l). -/
def CollEnv.node (e : CollEnv) (b l : Nat) : Nat := e.nodes.getD (b * e.q + l) 0
/-- A reduction, or BARRIER, which reduces no element. -/
def CollEnv.reduces (e : CollEnv) : Bool := e.op != 3 && e.op != 4
/-- Elements of a reduction (R666). -/
def CollEnv.total (e : CollEnv) : Nat := if e.op = 2 then e.n * e.count else e.count
/-- The other local indexes of the bench. -/
def CollEnv.others (e : CollEnv) : List Nat := (upFrom 0 e.q).filter fun l => l != e.l

/-! ### Elements -/

/-- Bits of an element; 0xF is the start agreement's unsigned 64-bit element (R680). -/
def cBits (f : Nat) : Nat := if f = 0xF then 64 else elemBits f
/-- Element i of w bits of a packed string. -/
def cElem (w : Nat) (bs : Bytes) (i : Nat) : Nat := bitsOf (atLe bs (w * i / 8) ((w + 15) / 8)) (w * i % 8) w
/-- The elements of a packed string from lo. -/
def cElems (w : Nat) (bs : Bytes) (lo n : Nat) : List Nat := (upFrom lo n).map (cElem w bs)
/-- Bytes of n packed elements of w bits. -/
def cBytes (w n : Nat) : Nat := (w * n + 7) / 8
/-- Packed elements of w bits. -/
def cPack (w : Nat) (es : List Nat) : Bytes := leBytes (cBytes w es.length) (es.foldr (fun e v => e % 2 ^ w + v * 2 ^ w) 0)

/-- The number format of a FLOAT accumulator. -/
def CollEnv.acc (e : CollEnv) : FFmt := if e.ifmt = 3 then fFP64 else fFP32

/-- lift (R671), with the events of R674. -/
def CollEnv.lift (e : CollEnv) (v : Nat) : AccV × Nat :=
  match e.mode with
  | 0 => (.fp (match e.ifmt with | 0 => v * 65536 | 1 => fFP32.rne (fFP16.dec v) | _ => v), 0)
  | 1 =>
    if e.ifmt = 0xE then (match oisVal v with | some n => (.num n, 0) | none => (.nan, 0))
    else (match oisOf (elemVal e.ifmt v) e.w with | some u => (.num u.1, u.2.toNat) | none => (.nan, 0))
  | _ => (.num (if e.ifmt = 0xF then (v : Int) else toSigned 32 v), 0)

/-- op (R671). -/
def CollEnv.comb (e : CollEnv) (a b : AccV) : AccV :=
  match a, b with
  | .fp x, .fp y =>
    .fp (match e.rop with | 0 => e.acc.add .rne x y | 1 => e.acc.min x y | _ => e.acc.max x y)
  | .num x, .num y =>
    if e.mode = 1 then .num (x + y)
    else
      match e.rop with
      | 0 => .num (toSigned 32 (wrapTo 32 (x + y)))
      | 1 => .num (min x y)
      | _ => .num (max x y)
  | _, _ => .nan

/-- Bits of an accumulator that travels whole (R678). -/
def CollEnv.fullBits (e : CollEnv) : Nat := match e.mode with | 0 => e.acc.width | 1 => 96 | _ => cBits e.ifmt
/-- Bits of a carried value. -/
def CollEnv.carryBits (e : CollEnv) : Nat := match e.cfmt with | 0 => e.fullBits | 1 => 16 | _ => 64

/-- An accumulator as it travels whole, with the event of a saturation. -/
def CollEnv.full (e : CollEnv) (a : AccV) : Nat × Nat :=
  match a with
  | .fp b => (b, 0)
  | .nan => (oisNan, 0)
  | .num n =>
    if e.mode = 1 then
      let s := oisSat n
      (oisBits s.1, s.2.toNat)
    else (wrapTo e.fullBits n, 0)

/-- An accumulator that travelled whole. -/
def CollEnv.ofFull (e : CollEnv) (b : Nat) : AccV :=
  match e.mode with
  | 0 => .fp b
  | 1 => (match oisVal b with | some n => .num n | none => .nan)
  | _ => .num (if e.ifmt = 0xF then (b : Int) else toSigned 32 b)

/-- The pattern of NaN in an OIS64 carry: the one count outside its range (R671). -/
def ois64Nan : Nat := 2 ^ 63

/-- carry (R671), with the events of R674. -/
def CollEnv.carry (e : CollEnv) (a : AccV) : Nat × Nat :=
  if e.cfmt = 0 then e.full a
  else
    match a with
    | .fp b => (fBF16.rne (fFP32.dec b), 0)
    | .nan => (if e.cfmt = 1 then 0x7FC0 else ois64Nan, 0)
    | .num n =>
      if e.cfmt = 1 then
        let v := fBF16.ofCount n e.w
        (v, if v % 2 ^ 15 = 0x7F80 then 1 else 0)
      else
        let r := (ofSigned n (-32) false).toInt .rne
        let m : Int := 2 ^ 63 - 1
        if m < r then (wrapTo 64 m, 1) else if r < -m then (wrapTo 64 (-m), 1) else (wrapTo 64 r, 0)

/-- A BF16 carry in units of 2^(W − 64) (R671): exact, and ±(2^95 − 1) for an infinity. -/
def CollEnv.widenBf16 (e : CollEnv) (c : Nat) : AccV :=
  match fBF16.dec c with
  | .nan => .nan
  | .inf neg => .num (if neg then -((2 ^ 95 - 1 : Nat) : Int) else ((2 ^ 95 - 1 : Nat) : Int))
  | .fin neg m x => .num (gridCount neg m x e.w)

/-- widen (R671). -/
def CollEnv.widen (e : CollEnv) (c : Nat) : AccV :=
  if e.cfmt = 0 then e.ofFull c
  else if e.mode = 0 then .fp (c * 65536)
  else if e.cfmt = 1 then e.widenBf16 c
  else if c = ois64Nan then .nan
  else .num (toSigned 64 c * 2 ^ 32)

/-- out (R671), with the events of R674. -/
def CollEnv.out (e : CollEnv) (a : AccV) : Nat × Nat :=
  match a with
  | .fp b =>
    if cBits e.ofmt = e.acc.width then (b, 0)
    else ((match floatFmt e.ofmt with | some g => g.rne (e.acc.dec b) | none => 0), 0)
  | .nan => ((match floatFmt e.ofmt with | some g => g.nanBits | none => oisNan), 1)
  | .num n =>
    if e.mode = 1 then
      let s := oisSat n
      ((match floatFmt e.ofmt with | some g => g.ofCount s.1 e.w | none => oisBits s.1), s.2.toNat)
    else (wrapTo (cBits e.ofmt) n, 0)

/-- Events of a list of values. -/
def evSum {α : Type} (l : List (α × Nat)) : Nat := l.foldl (fun v p => v + p.2) 0

/-- Lift a list of elements. -/
def CollEnv.lifts (e : CollEnv) (l : List Nat) : List AccV := l.map fun v => (e.lift v).1
/-- Combine element by element. -/
def CollEnv.combs (e : CollEnv) (a b : List AccV) : List AccV := a.zipWith e.comb b

/-! ### Trees (R673) -/

/-- Parent of bench b > 0 on the low-latency path: p runs over the powers 16^(j+1); fuel bounds j. -/
def llParentFrom : Nat → Nat → Nat → Nat
  | 0, _, _ => 0
  | f + 1, p, b => if b % p = 0 then llParentFrom f (16 * p) b else b - b % p
/-- Parent of bench b > 0 on the low-latency path. -/
def llParent (b : Nat) : Nat := llParentFrom 5 16 b
/-- Children of a bench on the low-latency path, ascending. -/
def CollEnv.llKids (e : CollEnv) (b : Nat) : List Nat := (upFrom 1 (e.benches - 1)).filter fun c => llParent c == b
/-- Bench c lies in the low-latency subtree of bench b. -/
def llUnder (b : Nat) : Nat → Nat → Bool
  | 0, c => c == b
  | f + 1, c => c == b || (c != 0 && llUnder b f (llParent c))

/-- The node of a bench in tree t, and the bench of a node (R673). -/
def CollEnv.flip (e : CollEnv) (t b : Nat) : Nat := if t = 0 then b else e.benches - 1 - b
/-- Children of a bench in tree t, in the order of the tree. -/
def CollEnv.kids (e : CollEnv) (t b : Nat) : List Nat :=
  let i := e.flip t b
  (([2 * i + 1, 2 * i + 2]).filter fun c => decide (c < e.benches)).map (e.flip t)
/-- Parent of a bench in tree t. -/
def CollEnv.parent (e : CollEnv) (t b : Nat) : Nat := e.flip t ((e.flip t b - 1) / 2)
/-- Node c lies in the subtree of node i of a bulk tree. -/
def bulkUnder (i : Nat) : Nat → Nat → Bool
  | 0, c => c == i
  | f + 1, c => c == i || (c != 0 && bulkUnder i f ((c - 1) / 2))

/-- First element of bench slice l (R673). -/
def CollEnv.start (e : CollEnv) (l : Nat) : Nat := l * e.total / e.q
/-- Elements of bench slice l. -/
def CollEnv.len (e : CollEnv) (l : Nat) : Nat := e.start (l + 1) - e.start l
/-- Elements of a slice that use tree t (R673), as first position and number within the slice. -/
def CollEnv.part (e : CollEnv) (t : Nat) : Nat × Nat :=
  let h := (e.len e.l + 1) / 2
  if t = 0 then (0, h) else (h, e.len e.l - h)

/-! ### Streams -/

/-- An inbound stream: the node it comes from, its phase, and its bytes (R681). -/
structure FlowIn where
  src : Nat
  phase : Nat
  len : Nat
  deriving DecidableEq, Repr

/-- An outbound stream: to a node, or to the rest of the bench by BENCH_MC; its bytes once every input is present. -/
structure FlowOut where
  dst : Option Nat
  phase : Nat
  data : Option Bytes
  deriving DecidableEq, Repr

/-- What has arrived: the bytes of a stream, once whole. -/
abbrev Arrived := FlowIn → Option Bytes

/-- Bytes of n carried values. -/
def CollEnv.cLen (e : CollEnv) (n : Nat) : Nat := cBytes e.carryBits n
/-- Carried values as bytes. -/
def CollEnv.cOut (e : CollEnv) (l : List AccV) : Bytes := cPack e.carryBits (l.map fun a => (e.carry a).1)
/-- Carried values widened. -/
def CollEnv.cIn (e : CollEnv) (n : Nat) (bs : Bytes) : List AccV := (cElems e.carryBits bs 0 n).map e.widen
/-- Output values as bytes. -/
def CollEnv.oOut (e : CollEnv) (l : List AccV) : Bytes := cPack (cBits e.ofmt) (l.map fun a => (e.out a).1)

/-- Fold the values of streams into a value, in order, while all are present. -/
def foldFlows (e : CollEnv) (dec : Bytes → List AccV) (got : Arrived) : List AccV → List FlowIn → Option (List AccV)
  | a, [] => some a
  | a, f :: t =>
    match got f with
    | none => none
    | some bs => foldFlows e dec got (e.combs a (dec bs)) t

/-! #### Reductions on the low-latency path (R678) -/

/-- The streams up to a bench leader from its bench, and from its children's leaders. -/
def CollEnv.llUp (e : CollEnv) : List FlowIn × List FlowIn :=
  ((upFrom 1 (e.q - 1)).map fun l => { src := e.node e.b l, phase := 6, len := cBytes e.fullBits e.total },
    (e.llKids e.b).map fun c => { src := e.node c 0, phase := 6, len := e.cLen e.total })

/-- The value of a bench leader's node (R672). -/
def CollEnv.llNode (e : CollEnv) (input : Bytes) (got : Arrived) : Option (List AccV) :=
  let own := e.lifts (cElems (cBits e.ifmt) input 0 e.total)
  match foldFlows e (fun bs => (cElems e.fullBits bs 0 e.total).map e.ofFull) got own e.llUp.1 with
  | none => none
  | some v => foldFlows e (e.cIn e.total) got v e.llUp.2

/-- The stream down to a member: from its leader, or, to a leader, from its parent. -/
def CollEnv.llDown (e : CollEnv) : FlowIn :=
  if e.l = 0 then { src := e.node (llParent e.b) 0, phase := 7, len := e.cLen e.total }
  else { src := e.node e.b 0, phase := 7, len := cBytes (cBits e.ofmt) e.total }

/-- The carried value of the root as a leader has it; with one bench there is none. -/
def CollEnv.llRoot (e : CollEnv) (input : Bytes) (got : Arrived) : Option Bytes :=
  if e.b = 0 then (e.llNode input got).map e.cOut else got e.llDown

/-- The values that a leader writes out (R672). -/
def CollEnv.llFinal (e : CollEnv) (input : Bytes) (got : Arrived) : Option (List AccV) :=
  if e.benches = 1 then e.llNode input got else (e.llRoot input got).map (e.cIn e.total)

/-- Inbound streams of a reduction on the low-latency path. -/
def CollEnv.llRedIn (e : CollEnv) : List FlowIn :=
  if e.l ≠ 0 then [e.llDown] else e.llUp.1 ++ e.llUp.2 ++ (if e.b = 0 then [] else [e.llDown])

/-- Outbound streams of a reduction on the low-latency path. -/
def CollEnv.llRedOut (e : CollEnv) (input : Bytes) (got : Arrived) : List FlowOut :=
  if e.l ≠ 0 then
    let own := e.lifts (cElems (cBits e.ifmt) input 0 e.total)
    [{ dst := some (e.node e.b 0), phase := 6, data := some (cPack e.fullBits (own.map fun a => (e.full a).1)) }]
  else
    (if e.b = 0 then [] else [{ dst := some (e.node (llParent e.b) 0), phase := 6, data := (e.llNode input got).map e.cOut }]) ++
      (e.llKids e.b).map (fun c => { dst := some (e.node c 0), phase := 7, data := e.llRoot input got }) ++
      (if e.q = 1 then [] else [{ dst := none, phase := 7, data := (e.llFinal input got).map e.oOut }])

/-- The output elements of every member, and the events of the functions that this device performed (R674). -/
def CollEnv.llRedRes (e : CollEnv) (input : Bytes) (got : Arrived) : Option (Bytes × Nat) :=
  let lifted := evSum ((cElems (cBits e.ifmt) input 0 e.total).map e.lift)
  if e.l ≠ 0 then (got e.llDown).map fun bs => (bs, lifted)
  else
    match e.llFinal input got, e.llNode input got with
    | some v, some nd =>
      some (e.oOut v, lifted + (if e.benches = 1 then 0 else evSum (nd.map e.carry)) + evSum (v.map e.out))
    | _, _ => none

/-! #### Reductions on the bulk path (R676) -/

/-- Slice l of an input of one member, as it travels in phase 0. -/
def CollEnv.slice (e : CollEnv) (input : Bytes) (l : Nat) : Bytes :=
  cPack (cBits e.ifmt) (cElems (cBits e.ifmt) input (e.start l) (e.len l))

/-- The stream of this device's slice from local member l. -/
def CollEnv.sliceIn (e : CollEnv) (l : Nat) : FlowIn :=
  { src := e.node e.b l, phase := 0, len := cBytes (cBits e.ifmt) (e.len e.l) }

/-- The raw elements of this device's slice from every member of its bench, in local order. -/
def CollEnv.sliceRaws (e : CollEnv) (input : Bytes) (got : Arrived) : Option (List (List Nat)) :=
  (upFrom 0 e.q).mapM fun l =>
    let bs := if l = e.l then some (e.slice input e.l) else if e.len e.l = 0 then some [] else got (e.sliceIn l)
    bs.map fun b => cElems (cBits e.ifmt) b 0 (e.len e.l)

/-- bench(b) for this device's slice (R672). -/
def CollEnv.benchVal (e : CollEnv) (input : Bytes) (got : Arrived) : Option (List AccV) :=
  match e.sliceRaws input got with
  | some (r :: t) => some (t.foldl (fun a x => e.combs a (e.lifts x)) (e.lifts r))
  | _ => none

/-- The streams up tree t to this device. -/
def CollEnv.treeUp (e : CollEnv) (t : Nat) : List FlowIn :=
  if (e.part t).2 = 0 then []
  else (e.kids t e.b).map fun c => { src := e.node c e.l, phase := 1 + t, len := e.cLen (e.part t).2 }

/-- The value of this bench's node of tree t for the slice's part (R672). -/
def CollEnv.treeVal (e : CollEnv) (input : Bytes) (got : Arrived) (t : Nat) : Option (List AccV) :=
  match e.benchVal input got with
  | none => none
  | some v => foldFlows e (e.cIn (e.part t).2) got ((v.drop (e.part t).1).take (e.part t).2) (e.treeUp t)

/-- This device's bench is the root of tree t. -/
def CollEnv.isRoot (e : CollEnv) (t : Nat) : Bool := e.flip t e.b == 0

/-- The stream down tree t to this device. -/
def CollEnv.treeDown (e : CollEnv) (t : Nat) : FlowIn :=
  { src := e.node (e.parent t e.b) e.l, phase := 3 + t, len := e.cLen (e.part t).2 }

/-- The carried value of the root of tree t. -/
def CollEnv.treeRoot (e : CollEnv) (input : Bytes) (got : Arrived) (t : Nat) : Option Bytes :=
  if (e.part t).2 = 0 then some []
  else if e.isRoot t then (e.treeVal input got t).map e.cOut
  else got (e.treeDown t)

/-- The values of this device's slice that are written out. -/
def CollEnv.sliceVal (e : CollEnv) (input : Bytes) (got : Arrived) : Option (List AccV) :=
  if e.benches = 1 then e.benchVal input got
  else
    match e.treeRoot input got 0, e.treeRoot input got 1 with
    | some a, some b => some (e.cIn (e.part 0).2 a ++ e.cIn (e.part 1).2 b)
    | _, _ => none

/-- The finished slices travel over the bench (R676): in an ALLREDUCE, and, DESIGN CHOICE (log entry 119), in a REDUCE_SCATTER over
several benches, where phases 1 and 2 bring a member's own block to another member of its bench. -/
def CollEnv.gathers (e : CollEnv) : Bool := e.op != 2 || decide (1 < e.benches)

/-- The stream of the finished slice of local member l. -/
def CollEnv.gatherIn (e : CollEnv) (l : Nat) : FlowIn :=
  { src := e.node e.b l, phase := 5, len := cBytes (cBits e.ofmt) (e.len l) }

/-- Inbound streams of a reduction on the bulk path; one of no bytes is not sent. -/
def CollEnv.bulkRedIn (e : CollEnv) : List FlowIn :=
  let down := (upFrom 0 2).filterMap fun t => if e.benches = 1 || e.isRoot t then none else some (e.treeDown t)
  ((e.others.map e.sliceIn) ++ e.treeUp 0 ++ e.treeUp 1 ++ down ++ (if e.gathers then e.others.map e.gatherIn else [])).filter
    fun f => f.len != 0

/-- Outbound streams of a reduction on the bulk path. -/
def CollEnv.bulkRedOut (e : CollEnv) (input : Bytes) (got : Arrived) : List FlowOut :=
  let up := fun t =>
    if e.benches = 1 || e.isRoot t || (e.part t).2 = 0 then []
    else [({ dst := some (e.node (e.parent t e.b) e.l), phase := 1 + t, data := (e.treeVal input got t).map e.cOut } : FlowOut)]
  let down := fun t =>
    if (e.part t).2 = 0 then []
    else (e.kids t e.b).map fun c => ({ dst := some (e.node c e.l), phase := 3 + t, data := e.treeRoot input got t } : FlowOut)
  ((e.others.filter fun l => e.len l != 0).map fun l =>
      ({ dst := some (e.node e.b l), phase := 0, data := some (e.slice input l) } : FlowOut)) ++
    up 0 ++ up 1 ++ down 0 ++ down 1 ++
    (if e.q = 1 || e.len e.l = 0 || !e.gathers then []
     else [{ dst := none, phase := 5, data := (e.sliceVal input got).map e.oOut }])

/-- The output elements of the whole operation, or of the own slice where slices do not travel, and this device's events. -/
def CollEnv.bulkRedRes (e : CollEnv) (input : Bytes) (got : Arrived) : Option (Bytes × Nat) :=
  match e.sliceVal input got, e.sliceRaws input got with
  | some v, some raws =>
    let parts := (upFrom 0 e.q).mapM fun l =>
      if l = e.l then some (e.oOut v) else if e.len l = 0 || !e.gathers then some [] else got (e.gatherIn l)
    let carried :=
      if e.benches = 1 then 0
      else (upFrom 0 2).foldl (fun s t => s + (match e.treeVal input got t with | some u => evSum (u.map e.carry) | none => 0)) 0
    parts.map fun ps =>
      (ps.flatten, raws.foldl (fun s r => s + evSum (r.map e.lift)) 0 + carried + evSum (v.map e.out))
  | _, _ => none

/-! #### ALLGATHER and BROADCAST (R676) -/

/-- The ranks whose block travels: all, or ROOT. -/
def CollEnv.owners (e : CollEnv) : List Nat := if e.op = 4 then [e.root] else upFrom 0 e.n

/-- Bytes of k blocks. -/
def CollEnv.blocks (e : CollEnv) (k : Nat) : Nat := cBytes (cBits e.ifmt) (k * e.count)

/-- Blocks of a list of ranks as a stream: raw elements in ascending rank. -/
abbrev Blocks := List (Nat × List Nat)

/-- A stream of the blocks of ranks, decoded. -/
def CollEnv.ofStream (e : CollEnv) (ranks : List Nat) (bs : Bytes) : Blocks :=
  ranks.mapIdx fun i r => (r, cElems (cBits e.ifmt) bs (i * e.count) e.count)

/-- Blocks of ranks as a stream. -/
def CollEnv.toStream (e : CollEnv) (ranks : List Nat) (m : Blocks) : Bytes :=
  cPack (cBits e.ifmt) (ranks.flatMap fun r => ((m.find? fun p => p.1 == r).map Prod.snd).getD [])

/-- Streams of blocks with the ranks each carries. -/
abbrev BlockFlows := List (FlowIn × List Nat)

/-- The blocks of streams, added to those at hand, while all are present. -/
def gatherFlows (e : CollEnv) (got : Arrived) : Blocks → BlockFlows → Option Blocks
  | m, [] => some m
  | m, (f, ranks) :: t =>
    match got f with
    | none => none
    | some bs => gatherFlows e got (m ++ e.ofStream ranks bs) t

/-- This member's own block, where it travels. -/
def CollEnv.own (e : CollEnv) (input : Bytes) : Blocks :=
  if e.owners.contains e.rank then [(e.rank, cElems (cBits e.ifmt) input 0 e.count)] else []

/-- Owners in the subtree of bench b: on the low-latency path of any local index, on the bulk path of this device's. -/
def CollEnv.under (e : CollEnv) (b : Nat) : List Nat :=
  e.owners.filter fun r =>
    if e.ll then llUnder b 5 (r / e.q) else r % e.q == e.l && bulkUnder b 16 (r / e.q)

/-- Owners of the streams down to a member: all, or on the bulk path those of the rail. -/
def CollEnv.rail (e : CollEnv) (l : Nat) : List Nat := if e.ll then e.owners else e.owners.filter fun r => r % e.q == l

/-- A stream of blocks. -/
def CollEnv.blockFlow (e : CollEnv) (src phase : Nat) (ranks : List Nat) : FlowIn × List Nat :=
  ({ src := src, phase := phase, len := e.blocks ranks.length }, ranks)

/-- The streams up to this device. -/
def CollEnv.gUp (e : CollEnv) : BlockFlows :=
  if e.ll then
    (upFrom 1 (e.q - 1)).map (fun l => e.blockFlow (e.node e.b l) 6 (e.owners.filter fun r => r == e.b * e.q + l)) ++
      (e.llKids e.b).map fun c => e.blockFlow (e.node c 0) 6 (e.under c)
  else ((e.kids 0 e.b).map fun c => e.blockFlow (e.node c e.l) 1 (e.under c)).filter fun f => f.1.len != 0

/-- The stream down to this device from its parent. -/
def CollEnv.gDown (e : CollEnv) : FlowIn × List Nat :=
  if e.ll then e.blockFlow (e.node (llParent e.b) 0) 7 e.owners
  else e.blockFlow (e.node (e.parent 0 e.b) e.l) 3 (e.rail e.l)

/-- This device takes part in the tree: on the low-latency path a leader, on the bulk path where its rail carries blocks. -/
def CollEnv.inTree (e : CollEnv) : Bool := if e.ll then e.l == 0 else !(e.rail e.l).isEmpty

/-- The blocks of this device's subtree. -/
def CollEnv.gNode (e : CollEnv) (input : Bytes) (got : Arrived) : Option Blocks := gatherFlows e got (e.own input) e.gUp

/-- The blocks that come down the tree here. -/
def CollEnv.gAll (e : CollEnv) (input : Bytes) (got : Arrived) : Option Blocks :=
  if e.b = 0 then e.gNode input got else gatherFlows e got [] [e.gDown]

/-- The streams that members of the bench send to the rest of it. -/
def CollEnv.gBench (e : CollEnv) : BlockFlows :=
  if e.ll then (if e.l = 0 then [] else [e.blockFlow (e.node e.b 0) 7 e.owners])
  else (e.others.map fun l => e.blockFlow (e.node e.b l) 5 (e.rail l)).filter fun f => f.1.len != 0

/-- Inbound streams of ALLGATHER and BROADCAST. -/
def CollEnv.gatherFlowsIn (e : CollEnv) : List FlowIn :=
  ((if e.inTree then e.gUp ++ (if e.b = 0 then [] else [e.gDown]) else []) ++ e.gBench).map Prod.fst

/-- Outbound streams of ALLGATHER and BROADCAST. -/
def CollEnv.gatherFlowsOut (e : CollEnv) (input : Bytes) (got : Arrived) : List FlowOut :=
  if e.inTree then
    let up := if e.ll then 6 else 1
    let down := if e.ll then 7 else 3
    let kids := if e.ll then e.llKids e.b else e.kids 0 e.b
    let dad := if e.ll then e.node (llParent e.b) 0 else e.node (e.parent 0 e.b) e.l
    let all := (e.gAll input got).map (e.toStream (e.rail e.l))
    (if e.b = 0 || (!e.ll && (e.under e.b).isEmpty) then []
      else [{ dst := some dad, phase := up, data := (e.gNode input got).map (e.toStream (e.under e.b)) }]) ++
      kids.map (fun c => { dst := some (if e.ll then e.node c 0 else e.node c e.l), phase := down, data := all }) ++
      (if e.q = 1 then [] else [{ dst := none, phase := if e.ll then 7 else 5, data := all }])
  else if e.ll then
    [{ dst := some (e.node e.b 0), phase := 6, data := some (e.toStream (e.owners.filter fun r => r == e.rank) (e.own input)) }]
  else []

/-- The output of ALLGATHER and BROADCAST. -/
def CollEnv.gatherRes (e : CollEnv) (input : Bytes) (got : Arrived) : Option (Bytes × Nat) :=
  let tree := if e.inTree then e.gAll input got else some []
  match tree, gatherFlows e got [] e.gBench with
  | some a, some b => some (e.toStream e.owners (a ++ b), 0)
  | _, _ => none

/-! #### Any operation -/

/-- Every stream a member receives. -/
def CollEnv.flowsIn (e : CollEnv) : List FlowIn :=
  if !e.reduces then e.gatherFlowsIn else if e.ll then e.llRedIn else e.bulkRedIn

/-- Every stream a member sends, in a fixed order. -/
def CollEnv.flowsOut (e : CollEnv) (input : Bytes) (got : Arrived) : List FlowOut :=
  if !e.reduces then e.gatherFlowsOut input got else if e.ll then e.llRedOut input got else e.bulkRedOut input got

/-- The bytes that a member writes at DST, and the events it counts. -/
def CollEnv.result (e : CollEnv) (input : Bytes) (got : Arrived) : Option (Bytes × Nat) :=
  let r := if !e.reduces then e.gatherRes input got else if e.ll then e.llRedRes input got else e.bulkRedRes input got
  if e.op = 2 && (e.ll || e.gathers) then
    let w := cBits e.ofmt
    r.map fun p => (cPack w (cElems w p.1 (e.rank * e.count) e.count), p.2)
  else r

end Sys2Proof.Machine
end

