-- ==== Sys2Proof/Machine/Collectives.lean ====
section
/-!
DEFINITION. The collectives engine (R661 to R692): its descriptors and their checks, the operations it runs, the chunks it sends,
stages and consumes, the start and drain agreements (R680), and the packets COLL and COLL_LL.
-/

namespace Sys2Proof.Machine

/-! ### Groups (R661 to R664) -/

/-- The collective configuration section of a context. -/
def Dev.collSec (d : Dev) (x : Nat) : Option Sec := if d.loaded x then planFind (d.ctx x).plan 12 else none

/-- Group g of a context: q and the members in group-rank order. -/
def Dev.collGroup (d : Dev) (x g : Nat) : Option (Nat × List Nat) :=
  match d.collSec x with
  | none => none
  | some s =>
    let p := (d.ctx x).plan
    let o := s.off + 0x40 + 16 * g
    if g < atLe p s.off 2 then
      some (atLe p (o + 4) 1, (upFrom 0 (atLe p o 4)).map fun i => atLe p (s.off + atLe p (o + 8) 4 + 2 * i) 2)
    else none

/-- LL_MAX in force for a context (R661). -/
def Dev.llMax (d : Dev) (x : Nat) : Nat :=
  match d.collSec x with
  | none => 256
  | some s =>
    let v := atLe (d.ctx x).plan (s.off + 4) 4
    if v = 0 then 256 else v

/-- The group index that a GROUP field names: group 0 for the agreements (R684). -/
def groupIx (g : Nat) : Nat := if g = 0xFE || g = 0xFF then 0 else g

/-- The operation of a body on a group, as this device sees it; none where it is no member (R668). -/
def Dev.collEnv (d : Dev) (x g : Nat) (b : Bytes) (w : Int) : Option CollEnv :=
  match d.collGroup x (groupIx g) with
  | none => none
  | some (q, nodes) =>
    match nodes.findIdx? (· == d.node) with
    | none => none
    | some r =>
      let e : CollEnv :=
        { op := atLe b 0x10 1, mode := atLe b 0x12 1, rop := atLe b 0x13 1, ifmt := atLe b 0x14 1, ofmt := atLe b 0x15 1,
          cfmt := atLe b 0x16 1, w := w, count := atLe b 0x1C 4, root := atLe b 0x30 4, q := q, rank := r, nodes := nodes, ll := true }
      let size := cBits e.ifmt * (if e.op = 2 then e.n * e.count else e.count)
      some { e with ll := e.op == 5 || 0xFE ≤ g || decide (size ≤ 8 * d.llMax x) }

/-! ### Checks (R665 to R668, R689) -/

/-- A combination of the reduction modes table (R667). -/
def collModeOk (mode rop ifmt ofmt cfmt : Nat) : Bool :=
  match mode with
  | 0 => rop ≤ 2 && ((ifmt ≤ 2 && ofmt ≤ 2 && cfmt ≤ 1) || (ifmt == 3 && ofmt == 3 && cfmt == 0))
  | 1 => rop == 0 && (ifmt ≤ 3 || ifmt == 0xE) && (ofmt == 0 || ofmt == 2 || ofmt == 3 || ofmt == 0xE) && cfmt ≤ 2
  | 2 => rop ≤ 2 && ifmt == 0xD && ofmt == 0xD && cfmt == 0
  | _ => false

/-- CBODY (R665 to R667): the lowest offset whose check fails, for a group of n members; src says whether SRC is read here: a
BROADCAST reads it at ROOT alone (R666). -/
def collBody (b : Bytes) (n : Nat) (src : Bool) : Option Nat :=
  let op := atLe b 0x10 1
  let f := fun o => atLe b o 1
  let red := op == 1 || op == 2
  let mode := f 0x12
  let count := atLe b 0x1C 4
  let most := if op = 2 || op = 3 then 2 ^ 28 / max n 1 else 2 ^ 28
  let wNone := !red || mode != 1
  leastBad (badBytes b 0x1A 2 ++ badBytes b 0x38 8 ++
    [(0x10, op == 0 || decide (5 < op)), (0x12, if red then !collModeOk mode (f 0x13) (f 0x14) (f 0x15) (f 0x16) else mode != 0),
    (0x13, !red && f 0x13 != 0), (0x14, !red && (if op = 5 then f 0x14 != 0 else 0xE < f 0x14)),
    (0x15, !red && (if op = 5 then f 0x15 != 0 else f 0x15 != f 0x14)), (0x16, !red && f 0x16 != 0),
    (0x17, if wNone then f 0x17 != 0 else f 0x17 != 0 && f 0x17 != 2), (0x18, wNone && atLe b 0x18 2 != 0),
    (0x1C, if op = 5 then count != 0 else count == 0 || decide (most < count)),
    (0x20, if op = 5 then atLe b 0x20 8 != 0 else src && atLe b 0x20 8 % 16 != 0),
    (0x28, if op = 5 then atLe b 0x28 8 != 0 else atLe b 0x28 8 % 16 != 0), (0x30, op != 4 && atLe b 0x30 4 != 0),
    (0x34, if f 0x17 = 2 then atLe b 0x34 4 % 2 != 0 else atLe b 0x34 4 != 0)])

/-! ### Chunks (R681, R682) -/

/-- The parameter block of the chunk check (R682). -/
def CollEnv.block (e : CollEnv) : Bytes :=
  ([e.op, e.mode, e.rop, e.ifmt, e.ofmt, e.cfmt].map (BitVec.ofNat 8)) ++ leBytes 2 (wrapTo 16 e.w) ++ leBytes 4 e.count ++
    leBytes 4 e.root

/-- CHECK of a chunk (R682). -/
def CollEnv.check (e : CollEnv) (pay : Bytes) : Nat := crc32c (e.block ++ pay)

/-- Payload bytes of a chunk of a phase (R678). -/
def chunkSize (phase : Nat) : Nat := if 6 ≤ phase then 256 else 4096

/-- A string cut into chunks; one of no bytes is one empty chunk. -/
def chunksOf (size : Nat) (bs : Bytes) : List Bytes :=
  (upFrom 0 (max 1 (ceilDiv bs.length size))).map fun i => (bs.drop (i * size)).take size

/-- A payload filled with zeros to whole units. -/
def padUnits (bs : Bytes) : Bytes := bs ++ List.replicate (16 * ceilDiv bs.length 16 - bs.length) 0

/-- The stream of an inbound flow, once every chunk has been consumed. -/
def CollOp.arrived (o : CollOp) : Arrived := fun f =>
  let n := max 1 (ceilDiv f.len (chunkSize f.phase))
  let parts := (upFrom 0 n).mapM fun i =>
    (o.got.find? fun g => g.1 == f.src && g.2.1 == f.phase && g.2.2.1 == i).map fun g => g.2.2.2
  parts.map fun l => l.flatten.take f.len

/-- The environment of a running operation. -/
def Dev.envOf (d : Dev) (o : CollOp) : Option CollEnv := d.collEnv o.desc.ctx o.group o.desc.bytes o.w

/-- OP of an operation in COL_FAULT. -/
def CollOp.code (o : CollOp) : Nat := if o.group = 0xFE || o.group = 0xFF then 0xFF else atLe o.desc.bytes 0x10 1

/-- One chunk of an operation, addressed (R681). -/
def Dev.chunk (d : Dev) (o : CollOp) (e : CollEnv) (dst : Option Nat) (phase i : Nat) (data : Bytes) : Send :=
  let pay := padUnits data
  let vc := if 6 ≤ phase then 1 else 4
  let addr := i % 2 ^ 24 + o.group % 256 * 2 ^ 24 + phase * 2 ^ 32 + (if 0xFE ≤ o.group then 0 else o.seq % 4096) * 2 ^ 36
  let h := d.ctxHdr o.desc.ctx (if vc = 1 then 0x11 else 0x10) vc (dst.getD 0)
  let mask := e.others.foldl (fun v l => v + 2 ^ (e.node e.b l % 16)) 0
  let h := { h with len := pay.length / 16, addr := addr, sval := e.check pay }
  let h := if dst.isNone then { h with rmode := 2, mcast := mask } else h
  let to_ := dst.getD (e.node e.b (if e.l = 0 then 1 else 0))
  { hdr := h, pay := pay,
    trk := { addr := addr, node := to_, ctx := o.desc.ctx, cluster := o.desc.cl, hub := true, length := pay.length / 16, kind := 2,
             state := 2, src := 4, unit := o.code, pc := o.desc.pc } }

/-- A GRANT from a node has been consumed (R685). -/
def CollOp.granted (o : CollOp) (node : Nat) : Bool := o.got.any fun g => g.1 == node && g.2.1 == 8

/-- A stream may be sent now (R685): on the bulk path each of its peers has granted. -/
def CollOp.maySend (o : CollOp) (e : CollEnv) (f : FlowOut) : Bool :=
  e.ll || (match f.dst with | some n => o.granted n | none => e.others.all fun l => o.granted (e.node e.b l))

/-- Hand over what can be sent while trackers of the reserve are free (R686): the rest stays. -/
def Dev.sendOut : List Send → Dev → Dev × List Send × List (Nat × Nat)
  | [], d => (d, [], [])
  | s :: t, d =>
    match d.freeHubTrk with
    | none => (d, s :: t, [])
    | some k =>
      let d := d.takeTrk k { s.trk with since := d.time.toNat }
      let d := match s.here with
        | some w => { d with lwrites := d.lwrites ++ [{ w with trk := k }] }
        | none => d.inject { s.hdr with seq := d.tag k } s.pay false
      let r := Dev.sendOut t d
      (r.1, r.2.1, (k, d.gen k) :: r.2.2)

/-- An operation needs buffers of Cabinet client 8 for its segments: the bulk path between members (R676, R686). DEDUCED: with one
member nothing is staged. -/
def CollEnv.segmented (e : CollEnv) : Bool := !e.ll && decide (1 < e.n)

/-- Stage segments of 16 KiB each through a buffer of Cabinet client 8, which is released once its segment has been handed over (R532,
R534, R676, R686): whether all were staged. -/
def Dev.stageSegs (x : Nat) : List Bytes → Dev → Bool × Dev
  | [], d => (true, d)
  | bs :: t, d =>
    match d.cabAlloc x 8 (max bs.length 1) 8 with
    | (some b, d) => Dev.stageSegs x t ((d.cabFill b bs).cabRelease b 8)
    | (none, d) => (false, d)

/-- A stream of a running operation is handed to its queue, once its segments are staged (R534, R686). -/
def CollEnv.handStream (e : CollEnv) (r : Dev × CollOp) (f : FlowOut × Nat) : Dev × CollOp :=
  let (d, o) := r
  match f.1.data with
  | none => r
  | some bs =>
    if o.sent.contains f.2 || !o.maySend e f.1 then r
    else
      let s := if e.segmented then Dev.stageSegs o.desc.ctx (chunksOf 16384 bs) d else (true, d)
      if !s.1 then (s.2, o)
      else
        let cs := (chunksOf (chunkSize f.1.phase) bs).mapIdx fun i c => d.chunk o e f.1.dst f.1.phase i c
        (s.2, { o with sent := o.sent ++ [f.2], outq := o.outq ++ cs })

/-- An operation with every stream that is ready handed to its queue. -/
def Dev.ready (d : Dev) (o : CollOp) : Dev × CollOp :=
  match d.envOf o with
  | none => (d, o)
  | some e => (e.flowsOut o.input o.arrived).zipIdx.foldl e.handStream (d, o)

/-- An operation sends what it can; nothing of an exchange operation becomes ready later. -/
def Dev.collAdvance (d : Dev) (i : Nat) : Dev :=
  match d.colls[i]? with
  | none => d
  | some o =>
    let s := if o.group < 256 then d.ready o else (d, o)
    if s.1.colls[i]? ≠ some o then s.1
    else
      let r := Dev.sendOut s.2.outq s.1
      { r.1 with colls := r.1.colls.set i { s.2 with outq := r.2.1, trks := s.2.trks ++ r.2.2 } }

/-- Start an operation: on the bulk path a GRANT goes to each peer that it will receive from (R685). -/
def Dev.collJoin (d : Dev) (o : CollOp) : Dev :=
  let grants :=
    match d.envOf o with
    | none => []
    | some e =>
      if e.ll then []
      else ((e.flowsIn.map FlowIn.src).eraseDups).map fun n => d.chunk o e (some n) 8 0 []
  let d := { d with colls := d.colls ++ [{ o with outq := grants }] }
  d.collAdvance (d.colls.length - 1)

/-! ### Operations -/

/-- The number of operations that a context has started on a group in the step (R668). -/
def Dev.collNo (d : Dev) (x g : Nat) : Nat := mapGet (fun _ => 0) d.collSeq (x * 256 + g)

/-- A fault in an operation that is starting or running (R689, R690). -/
def Dev.collErr (d : Dev) (q : Desc) (e : EngErr) : Dev := d.colFault q.ctx q.cl (atLe q.bytes 0x10 1) e.code e.detail e.trans

/-- The resolved window (R665). -/
def Dev.collWindow (d : Dev) (q : Desc) : Except EngErr Int :=
  if atLe q.bytes 0x17 1 = 2 then
    match d.engLocal q.ctx q.cl (atLe q.bytes 0x34 4) 2 with
    | .ok bs => .ok (toSigned 16 (leNat bs))
    | .error e => .error { code := if e.poison then 0x33 else 0x32, detail := e.addr % 2 ^ 32, trans := bitsOf e.addr 48 3 }
  else .ok (toSigned 16 (atLe q.bytes 0x18 2))

/-- Elements that a member reads at SRC (R666). -/
def CollEnv.inCount (e : CollEnv) : Nat :=
  match e.op with | 2 => e.n * e.count | 4 => if e.rank = e.root then e.count else 0 | _ => e.count
/-- Elements that a member writes at DST. -/
def CollEnv.outCount (e : CollEnv) : Nat := if e.op = 3 then e.n * e.count else e.count

/-- A member of group g reads SRC of a body (R666). -/
def Dev.readsSrc (d : Dev) (x g : Nat) (b : Bytes) : Bool :=
  atLe b 0x10 1 != 4 || (d.collGroup x g).any fun p => p.2[atLe b 0x30 4]? == some d.node

/-- Every check of an operation, and its input (R667, R668). The numbers of the agreements are no group of a program. -/
def Dev.collCheck (d : Dev) (q : Desc) : Except EngErr (CollEnv × Bytes × Dev) :=
  let b := q.bytes
  let g := atLe b 0x11 1
  match collBody b ((d.collGroup q.ctx g).elim 1 fun p => p.2.length) (d.readsSrc q.ctx g b) with
  | some o => .error { code := 0x30, detail := o }
  | none =>
    match (if 0xFE ≤ g then none else d.collEnv q.ctx g b 0) with
    | none => .error { code := 0x31, detail := g }
    | some e =>
      if e.op = 4 && e.n ≤ e.root then .error { code := 0x31, detail := g }
      else
        match d.collWindow q with
        | .error e => .error e
        | .ok w =>
          let n := cBytes (cBits e.ifmt) e.inCount
          if n = 0 then .ok ({ e with w := w }, [], d)
          else
            match Eng.read q.ctx 0x32 0x33 (atLe b 0x20 8) n d with
            | .error e _ => .error e
            | .ok bs d => .ok ({ e with w := w }, bs, d)

/-- A program operation of a group is running. -/
def Dev.collRunning (d : Dev) (x g : Nat) : Bool := d.colls.any fun o => o.desc.ctx == x && o.group == g

/-- The engine starts a collective on a group (R668, R692), unless one runs on it; CLASS where its segments need a buffer and client
8 is disabled (R525, R686). -/
def Dev.collStart (d : Dev) (q : Desc) : Dev :=
  let g := atLe q.bytes 0x11 1
  if d.collRunning q.ctx g then d
  else
    let d := { d with descs := d.descs.erase q }
    match d.collCheck q with
    | .error e => d.collErr q e
    | .ok (e, input, d) =>
      if e.segmented && !d.cabOn q.ctx 8 then d.cabFault ⟨q.ctx, 0, 0⟩ 6 8
      else
      let m := d.collNo q.ctx g
      let d := { d with collSeq := mapSet (fun _ => 0) d.collSeq (q.ctx * 256 + g) (m + 1) }
      d.collJoin { desc := q, group := g, seq := m, w := e.w, input := input,
                   outs := d.outRanges q.ctx [(atLe q.bytes 0x28 8, cBytes (cBits e.ofmt) e.outCount)] }

/-- A reduction that breaches OIS completeness (R703). -/
def CollEnv.breaches (e : CollEnv) : Bool :=
  (e.op == 1 || e.op == 2) && ((e.mode == 0 && e.rop == 0) || (e.mode == 1 && e.cfmt != 0))

/-- A collective completes (R687): its output is written, then its completion operation applies. -/
def Dev.collFinish (d : Dev) (o : CollOp) : Dev :=
  let q := o.desc
  match d.envOf o with
  | none => d
  | some e =>
    match e.result o.input o.arrived with
    | none => d
    | some (bs, ev) =>
      if !o.outq.isEmpty || (e.flowsOut o.input o.arrived).length ≠ o.sent.length then d
      else
        let r := if bs.isEmpty then (d, none) else (Eng.write q.ctx 0x32 (atLe q.bytes 0x28 8) bs).runOn d
        match r.2 with
        | some er => r.1.collErr q er
        | none =>
          let d := if ev = 0 then r.1 else (r.1.bump (Reg.COL_CTX_SAT q.ctx) ev).markSat q.ctx q.cl q.pc
          let d := if e.breaches then d.markBreach q.ctx q.cl q.pc else d
          { d with colls := d.colls.erase o }.descDone q 3

/-! ### Agreements (R106, R109, R680) -/

/-- The body that stands for an agreement (R682). -/
def agreeBody (start : Bool) : Bytes :=
  List.replicate 16 0 ++ (if start then [1, 0, 2, 2, 0xF, 0xF] else [5, 0, 0, 0, 0, 0]) ++ List.replicate 6 0 ++
    leBytes 4 start.toNat ++ List.replicate 32 0

/-- A context joins the start agreement with n_ready, or the drain agreement. -/
def Dev.agreeJoin (d : Dev) (x : Nat) (start : Bool) (n : Nat) : Dev :=
  let q : Desc := { ctx := x, cl := 0, kind := 0x22, ea := 0, pc := 0, bytes := agreeBody start }
  d.collJoin { desc := q, group := if start then 0xFE else 0xFF, seq := 0, input := leBytes 8 n }

/-- The agreement of its kind that a context runs. -/
def Dev.agreeOp (d : Dev) (x : Nat) (start : Bool) : Option CollOp :=
  d.colls.find? fun o => o.desc.ctx == x && o.group == (if start then 0xFE else 0xFF)

/-- The value of an agreement, once it is complete and every chunk of it has left. -/
def Dev.agreed (d : Dev) (x : Nat) (start : Bool) : Option Nat :=
  match d.agreeOp x start with
  | none => none
  | some o =>
    match d.envOf o with
    | none => none
    | some e =>
      if !o.outq.isEmpty || (e.flowsOut o.input o.arrived).length ≠ o.sent.length then none
      else (e.result o.input o.arrived).map fun r => leNat r.1

/-- An agreement that has been taken ends. -/
def Dev.agreeEnd (d : Dev) (x : Nat) (start : Bool) : Dev :=
  { d with colls := d.colls.filter fun o => !(o.desc.ctx == x && o.group == (if start then 0xFE else 0xFF)) }

/-! ### Inbound chunks (R684, R686) -/

/-- The fields of a chunk's ADDR: index, group, phase, number. -/
def chunkTag (h : Hdr) : Nat × Nat × Nat × Nat :=
  (bitsOf h.addr 0 24, bitsOf h.addr 24 8, bitsOf h.addr 32 4, bitsOf h.addr 36 12)

/-- CTAG (R684). -/
def Dev.ctagBad (d : Dev) (x : Nat) (h : Hdr) : Bool :=
  let (_, g, phase, seq) := chunkTag h
  let agree := 0xFE ≤ g
  match d.collGroup x (groupIx g) with
  | none => true
  | some (_, nodes) =>
    !nodes.contains d.node || decide (8 < phase) || (agree && phase != 6 && phase != 7) ||
      (!agree &&
        (let m := d.collNo x g
         seq != m % 4096 && !(d.collRunning x g && seq == (m + 4095) % 4096)))

/-- An inbound chunk at its destination: checked, staged and acknowledged, or refused (R684, R686). -/
def Dev.inChunk (d : Dev) (p : RPkt) (vc : Nat) : Dev :=
  match d.inHead p vc with
  | .error c => (d.refuse p.hdr c).nackTo p.hdr c
  | .ok x =>
    if d.ctagBad x p.hdr then (d.refuse p.hdr 0xC).nackTo p.hdr 0xC
    else
      let n := p.pay.length
      let keep := fun (d : Dev) (b : Option Buf) =>
        let c : Staged := { ctx := x, hdr := p.hdr, pay := p.pay, poison := p.poison, buf := b }
        { d with staged := d.staged ++ [c] }.inject (d.respHdr p.hdr 8 0 0) [] false
      if n = 0 || !d.cabOn x vc then keep d none
      else
        let r := d.cabAlloc x vc n vc
        match r.1 with
        | none => { r.2 with parked := r.2.parked ++ [{ buf := none, pkt := p }] }
        | some b => keep (r.2.cabFill b p.pay) (some b)

/-- The running operation that a staged chunk belongs to. -/
def Dev.opOf (d : Dev) (s : Staged) : Option Nat :=
  let (_, g, _, seq) := chunkTag s.hdr
  d.colls.findIdx? fun o => o.desc.ctx == s.ctx && o.group == g && (decide (0xFE ≤ g) || o.seq % 4096 == seq)

/-- Free the Cabinet buffer of a staged chunk. -/
def Dev.unstage (d : Dev) (s : Staged) : Dev := match s.buf with | some b => d.cabRelease b s.hdr.vc | none => d

/-- The engine reads the k-th staged chunk for use (R683): CHECK is recomputed, and the chunk joins its stream. -/
def Dev.consume (d : Dev) (k : Nat) : Dev :=
  match d.staged[k]? with
  | none => d
  | some s =>
    match d.opOf s with
    | none => d
    | some i =>
      match d.colls[i]?, (d.colls[i]?).bind d.envOf with
      | some o, some e =>
        let d := { d with staged := d.staged.eraseIdx k }
        let a := match s.buf with | some b => d.cabAddr b | none => 0
        let pay := match s.buf with | some _ => d.read a s.pay.length | none => s.pay
        let d := d.unstage s
        let (ix, _, phase, _) := chunkTag s.hdr
        if s.poison || (s.buf.isSome && d.poisoned a s.pay.length) then
          d.colFault s.ctx o.desc.cl o.code 0x33 (a % 2 ^ 32) 0
        else if e.check pay ≠ s.hdr.sval then d.colFault s.ctx o.desc.cl o.code 0x34 s.hdr.src 0
        else
          let wanted := phase == 8 || e.flowsIn.any fun f =>
            f.src == s.hdr.src && f.phase == phase && decide (ix < max 1 (ceilDiv f.len (chunkSize phase)))
          if !wanted then d
          else
            let d := { d with colls := d.colls.set i { o with got := o.got ++ [(s.hdr.src, phase, ix, pay)] } }
            d.collAdvance i
      | _, _ => d

/-- COLL_CHUNK_CONSUME (R683). -/
def execCollChunkConsume (k : Nat) (s : State) : Host.Outcome State Fault Refusal := s.run (·.consume k)
/-- COLL (R684). -/
def execColl (p : Packet) (s : State) : Host.Outcome State Fault Refusal := s.run (·.receive p 0x10 Dev.inChunk)
/-- COLL_LL (R684). -/
def execCollLl (p : Packet) (s : State) : Host.Outcome State Fault Refusal := s.run (·.receive p 0x11 Dev.inChunk)

/-! ### Issue -/

/-- OP of a fab.coll body. -/
def isOp (n : Nat) : Bytes → Bool := fun b => atLe b 0x10 1 == n
/-- ALLREDUCE, or a reserved OP, which its checks turn away (R689). -/
def isAllreduce : Bytes → Bool := fun b =>
  let op := atLe b 0x10 1
  op ≤ 1 || (5 < op && op < 0x20) || 0x23 < op

/-- ALLREDUCE (R666, R672). -/
def execAllreduce (a : Slot) (s : State) : Host.Outcome State Fault Refusal :=
  s.run fun d => d.descSlot a 3 0x12 0x22 isAllreduce
/-- REDUCE_SCATTER (R666). -/
def execReduceScatter (a : Slot) (s : State) : Host.Outcome State Fault Refusal :=
  s.run fun d => d.descSlot a 3 0x12 0x22 (isOp 2)
/-- ALLGATHER (R666). -/
def execAllgather (a : Slot) (s : State) : Host.Outcome State Fault Refusal :=
  s.run fun d => d.descSlot a 3 0x12 0x22 (isOp 3)
/-- BROADCAST (R666). -/
def execBroadcast (a : Slot) (s : State) : Host.Outcome State Fault Refusal :=
  s.run fun d => d.descSlot a 3 0x12 0x22 (isOp 4)
/-- BARRIER (R666). -/
def execBarrier (a : Slot) (s : State) : Host.Outcome State Fault Refusal :=
  s.run fun d => d.descSlot a 3 0x12 0x22 (isOp 5)
/-- COUNT (R295). -/
def execCount (a : Slot) (s : State) : Host.Outcome State Fault Refusal :=
  s.run fun d => d.descSlot a 3 0x12 0x22 (isOp 0x20)
/-- DISPATCH (R303). -/
def execDispatch (a : Slot) (s : State) : Host.Outcome State Fault Refusal :=
  s.run fun d => d.descSlot a 3 0x12 0x22 (isOp 0x21)
/-- RETURN (R312). -/
def execXchgReturn (a : Slot) (s : State) : Host.Outcome State Fault Refusal :=
  s.run fun d => d.descSlot a 3 0x12 0x22 (isOp 0x22)
/-- REDUCE (R317). -/
def execReduce (a : Slot) (s : State) : Host.Outcome State Fault Refusal :=
  s.run fun d => d.descSlot a 3 0x12 0x22 (isOp 0x23)

end Sys2Proof.Machine
end

