-- ==== Sys2Proof/Machine/Exchange.lean ====
section
/-!
DEFINITION. The exchange operations (R287 to R322, R334, R335): COUNT, DISPATCH, RETURN and REDUCE, and the engine's commands
COLL_OP_START and COLL_OP_COMPLETE.
-/

namespace Sys2Proof.Machine

/-! ### Checks (R295, R303, R312, R317, R334) -/

/-- XBODY: the lowest offset whose check fails; f is the profile where there is one. DESIGN CHOICE (log entry 120): without a profile
the scales of a DISPATCH are taken as present, so that a misaligned XSC is XBODY. -/
def xBody (b : Bytes) (f : Option Bytes) : Option Nat :=
  let off := fun o g => off64 (atLe b o 8) g
  match atLe b 0x10 1 with
  | 0x20 =>
    let out := atLe b 0x1C 4
    leastBad (badBytes b 0x12 10 ++ badBytes b 0x28 24 ++ [(0x1C, out != 0xFFFFFFFF && out % 8 != 0), (0x20, off 0x20 64)])
  | 0x21 =>
    let scales := match f with | some f => pfAscRow f != 0 | none => true
    leastBad (badBytes b 0x1C 4 ++ [(0x20, off 0x20 64), (0x28, off 0x28 16), (0x30, scales && off 0x30 16), (0x38, off 0x38 64)])
  | 0x22 =>
    leastBad (badBytes b 0x18 8 ++ badBytes b 0x30 16 ++
      [(0x16, decide (atLe b 0x16 2 < atLe b 0x14 2)), (0x20, off 0x20 64), (0x28, off 0x28 16)])
  | _ =>
    let stride := atLe b 0x38 4
    let row := match f with
      | some f => pfOutRow f / (if atLe b 0x13 1 = 0 then 4 else 2) * (if atLe b 0x16 1 = 0 then 4 else 2)
      | none => 0
    leastBad (badBytes b 0x17 1 ++ badBytes b 0x3C 4 ++ [(0x12, decide (3 < atLe b 0x12 1)), (0x13, decide (1 < atLe b 0x13 1)),
      (0x14, bitsOf (atLe b 0x12 1) 0 1 == 0 && atLe b 0x14 2 != 0), (0x16, decide (1 < atLe b 0x16 1)),
      (0x1C, atLe b 0x1C 4 == 0), (0x20, off 0x20 64), (0x28, off 0x28 16), (0x30, off 0x30 16),
      (0x38, stride % 16 != 0 || decide (stride < row))])

/-- Count entries of every expert of a layer, as an exchange operation reads them. -/
def xCounts (x at_ : Nat) (f : Bytes) : Eng Counts := do
  let bs ← Eng.read x 0x43 0x44 at_ (16 * pfE f)
  pure { lo := 0, bytes := bs }

/-- LIST of R300. -/
def listLen (f t : Bytes) (c : Counts) : Nat := (upFrom 0 (pfE f)).foldl (fun v e => v + dispOf f t c e) 0

/-- The checks of an exchange operation before anything is written, in their order (R334): the profile, or the fault. XRANGE
of DISPATCH is checked once the counts are read. -/
def Dev.xCheck (d : Dev) (q : Desc) : Except EngErr Bytes :=
  let b := q.bytes
  let op := atLe b 0x10 1
  let ix := atLe b 0x11 1
  let pf := d.profile q.ctx ix
  match xBody b pf, pf with
  | some o, _ => .error { code := 0x40, detail := o }
  | none, none => .error { code := 0x41, detail := ix }
  | none, some f =>
    let t := d.placement q.ctx
    if op ≠ 0x23 && t.isEmpty then .error { code := 0x4A }
    else if op = 0x22 && plCount t (pfLayer f) ≤ atLe b 0x16 2 then .error { code := 0x42, detail := 0x16 }
    else if op = 0x23 && 1048576 < atLe b 0x18 4 + atLe b 0x1C 4 then
      .error { code := 0x42, detail := if 1048576 ≤ atLe b 0x18 4 then 0x18 else 0x1C }
    else .ok f

/-! ### Sends (R305 to R307, R315) -/

/-- One write of an exchange (R305, R306): its pieces, each a packet on vc, or a local write where the node is this device. -/
def Dev.xWrite (d : Dev) (q : Desc) (vc node a : Nat) (bs : Bytes) : List Send :=
  let short := bs.length = 8
  (cutAt 4096 a bs.length).map fun p =>
    let data := (bs.drop (p.1 - a)).take p.2
    let units := ceilDiv p.2 16
    let h := { d.ctxHdr q.ctx (if short then 2 else 1) vc node with
      len := units, sop := 3, sync := atLe q.bytes 0x12 2, addr := p.1 }
    let t : Tracker :=
      { addr := p.1, node := node, ctx := q.ctx, cluster := q.cl, hub := true, length := units, kind := 3, state := 2, src := 4,
        unit := atLe q.bytes 0x10 1, pc := q.pc }
    let w : LWrite := { trk := 0, ctx := q.ctx, va := p.1, data := data, rop := 3, robj := atLe q.bytes 0x12 2, exch := true }
    { hdr := h, pay := padUnits data, trk := t, here := if node = d.node then some w else none }

/-- A drawer tag (R273). -/
def drawerTag (source token kslot : Nat) : Bytes := leBytes 8 (source % 65536 + token % 2 ^ 20 * 2 ^ 16 + kslot % 16 * 2 ^ 36 + 2 ^ 40)

/-- The writes of one dispatch entry (R305). -/
def sendEntry (q : Desc) (f : Bytes) (pos : Nat) : Eng (List Send) := do
  let b := q.bytes
  let rd := Eng.read q.ctx 0x43 0x44
  let ent ← rd (atLe b 0x20 8 + 16 * pos) 16
  let v := leNat ent
  let tok := bitsOf v 32 20
  let slot := bitsOf v 64 23
  let node := bitsOf v 96 16
  let i := bitsOf v 112 10
  let row ← rd (atLe b 0x28 8 + tok * pfRow f) (pfRow f)
  let sc ← if pfAscRow f = 0 then pure [] else rd (atLe b 0x30 8 + tok * pfAscRow f) (pfAscRow f)
  let d ← get
  let base := pfDrawer f i
  pure (d.xWrite q 2 node (base + slot * pfRow f) row ++
    (if sc.isEmpty then [] else d.xWrite q 2 node (base + pfAsc f + slot * pfAscRow f) sc) ++
    d.xWrite q 2 node (base + pfTag f + slot * 8) (drawerTag d.node tok (bitsOf v 24 4)))

/-- Everything that a DISPATCH sends (R304, R305). -/
def dispatchSends (q : Desc) (f : Bytes) : Eng (List Send) := do
  let b := q.bytes
  let c ← xCounts q.ctx (atLe b 0x38 8) f
  let d ← get
  let len := listLen f (d.placement q.ctx) c
  let first := atLe b 0x14 4
  let n := atLe b 0x18 4
  Eng.failIf (decide (len < first)) 0x42 0x14
  Eng.failIf (n != 0 && decide (len < first + n)) 0x42 0x18
  (upFrom first (if n = 0 then len - first else n)).foldlM (fun l pos => do let s ← sendEntry q f pos; pure (l ++ s)) []

/-- The return of one slot of a drawer (R313). -/
def returnSlot (q : Desc) (f : Bytes) (i s : Nat) : Eng (List Send) := do
  let tagAt := pfDrawer f i + pfTag f + s * 8
  let tag ← Eng.read q.ctx 0x43 0x44 tagAt 8
  let v := leNat tag
  let slot := bitsOf v 36 4
  Eng.failIf (bitsOf v 40 1 == 0 || decide (pfK f ≤ slot)) 0x47 s
  let row ← Eng.read q.ctx 0x43 0x44 (pfOut f i + s * pfOutRow f) (pfOutRow f)
  Eng.write q.ctx 0x43 tagAt (leBytes 8 0)
  let d ← get
  pure (d.xWrite q 3 (bitsOf v 0 16) (atLe q.bytes 0x28 8 + (bitsOf v 16 20 * pfK f + slot) * pfOutRow f) row)

/-- The return of one round of a resident (R313, R314). -/
def returnRound (q : Desc) (f : Bytes) (i j : Nat) : Eng (List Send) := do
  let ix := i * (1 + pfSpill f) + j
  let m ← Eng.read q.ctx 0x43 0x44 (atLe q.bytes 0x20 8 + 64 * ix) 4
  Eng.failIf (decide (pfCap f < leNat m)) 0x48 ix
  (upFrom (j * pfCap f) (leNat m)).foldlM (fun l s => do let r ← returnSlot q f i s; pure (l ++ r)) []

/-- Everything that a RETURN sends (R313). -/
def returnSends (q : Desc) (f : Bytes) : Eng (List Send) :=
  let lo := atLe q.bytes 0x14 2
  (upFrom lo (atLe q.bytes 0x16 2 + 1 - lo)).foldlM
    (fun l i => (upFrom 0 (1 + pfSpill f)).foldlM (fun l j => do let r ← returnRound q f i j; pure (l ++ r)) l) []

/-! ### COUNT (R296 to R300) -/

/-- The check value a participant contributes (R299). -/
def countCheck (t f : Bytes) : Nat := atLe t 0 8 + crc32c f * 2 ^ 64

/-- What each participant of the group contributes, by group-local rank: this device's own in its place. -/
def countShares (t f own : Bytes) (peers : List (Nat × Bytes)) : List (Nat × Bytes) :=
  peers.take (plGs t (pfLayer f)) |>.set (plSelf t % plGs t (pfLayer f)) (countCheck t f, own)

/-- Sum of LOCAL of an expert over contributions. -/
def localSum (e : Nat) (l : List (Nat × Bytes)) : Nat := l.foldl (fun v p => v + atLe p.2 (4 * e) 4) 0

/-- The expectation block (R300). -/
def expectBlock (f t : Bytes) (c : Counts) : Bytes :=
  let l := pfLayer f
  let list := listLen f t c
  let rows := fun (p : Nat × Nat × Nat) => rankCount (min (c.t p.2.1) (limitOf f t p.2.1)) p.2.2 (plRep t l p.2.1)
  let units := (pfRow f + pfAscRow f) / 16 + 1
  leBytes 8 list ++ leBytes 8 ((plResidents t l (plSelf t)).foldl (fun v p => v + rows p * units) 0) ++
    leBytes 8 (list * pfOutRow f / 16)

/-- Write a string at an offset of the issuing cluster's scratchpad (R300, R737). -/
def xLocal (q : Desc) (off : Nat) (bs : Bytes) : Eng Unit := fun d =>
  match d.localCheck q.ctx q.cl off bs.length 2 with
  | 0 => .ok () (d.write (spadAddr q.cl off) bs)
  | t => .error { code := 0x43, detail := off % 2 ^ 32, trans := t } d

/-- The count entries of the experts of a COUNT as it leaves them (R297): LOCAL is that read as the device joined (R302). -/
def countLeft (f own : Bytes) (rank : Nat) (shares : List (Nat × Bytes)) : Counts :=
  { lo := 0
    bytes := (upFrom 0 (pfE f)).flatMap fun e =>
      leBytes 4 (atLe own (4 * e) 4) ++ leBytes 4 (localSum e (shares.take rank)) ++ leBytes 4 (localSum e shares) ++ leBytes 4 0 }

/-- The packets by which a COUNT carries its partial sums to a node (R301): VC1, 256 B each with 32 experts as 64-bit sums. The spec
gives them neither ADDR nor CHECK, which are free values (log entry 59); k counts the free values used. -/
def Dev.countSends (d : Dev) (q : Desc) (f own : Bytes) (node k : Nat) : List Send :=
  (upFrom 0 (ceilDiv (pfE f) 32)).map fun i =>
    let addr := (Config.freeWord (k + 2 * i)).toNat % 2 ^ 48
    let h := { d.ctxHdr q.ctx 0x11 1 node with len := 16, addr := addr, sval := (Config.freeWord (k + 2 * i + 1)).toNat % 2 ^ 32 }
    { hdr := h, pay := (upFrom (32 * i) 32).flatMap fun e => leBytes 8 (atLe own (4 * e) 4)
      trk := { addr := addr, node := node, ctx := q.ctx, cluster := q.cl, hub := true, length := 16, kind := 2, state := 2, src := 4,
               unit := 0x20, pc := q.pc } }

/-- The packets of a COUNT to every other participant of its exchange group (R296, R301, log entry 59). -/
def Dev.countAll (d : Dev) (q : Desc) (f own : Bytes) : List Send :=
  let t := d.placement q.ctx
  let l := pfLayer f
  let base := plBase t l (plSelf t)
  let n := 2 * ceilDiv (pfE f) 32
  (((upFrom base (plGs t l)).filter fun r => r != plSelf t).mapIdx fun i r =>
    d.countSends q f own (plNode t r) (d.freeCtr + i * n)).flatten

/-- A COUNT with every participant's contribution (R297 to R300). -/
def countWork (q : Desc) (f own : Bytes) (peers : List (Nat × Bytes)) : Eng Unit := do
  let d ← get
  let t := d.placement q.ctx
  let shares := countShares t f own peers
  let checks := shares.map Prod.fst
  let least := checks.foldl min (checks.headD 0)
  Eng.failIf (least != checks.foldl max 0) 0x45 (least % 2 ^ 32)
  let es := upFrom 0 (pfE f)
  match firstIn (fun e => decide (2 ^ 32 ≤ localSum e shares)) es with
  | some e => throw { code := 0x46, detail := e }
  | none => pure ()
  let rank := plSelf t % plGs t (pfLayer f)
  let at_ := atLe q.bytes 0x20 8
  es.forM fun e =>
    Eng.write q.ctx 0x43 (at_ + 16 * e + 4) (leBytes 4 (localSum e (shares.take rank)) ++ leBytes 4 (localSum e shares))
  let out := atLe q.bytes 0x1C 4
  if out = 0xFFFFFFFF then pure () else xLocal q out (expectBlock f t (countLeft f own rank shares))

/-! ### REDUCE (R317 to R321) -/

/-- An element widened to FP32: 0 FP32, 1 BF16. -/
def widenElem (fmt v : Nat) : Nat := if fmt = 0 then v else v * 65536
/-- Bytes of an element. -/
def xSize (fmt : Nat) : Nat := if fmt = 0 then 4 else 2
/-- Element i of a row, widened. -/
def rowElem (fmt : Nat) (row : Bytes) (i : Nat) : Nat := widenElem fmt (atLe row (i * xSize fmt) (xSize fmt))

/-- One output element in FP32 mode (R318): terms are the weight and the returned element of each assigned k-slot. -/
def reduceFp (ofmt start : Nat) (terms : List (Nat × Nat)) : Nat :=
  let acc := terms.foldl (fun a t => fadd a (fmul t.1 t.2)) start
  if ofmt = 0 then acc else fBF16.rne (fFP32.dec acc)

/-- One output element in OIS mode, and whether it met saturation or a NaN (R318 to R320). -/
def reduceOis (ofmt : Nat) (w : Int) (start : FVal) (terms : List (Nat × Nat)) : Nat × Bool :=
  let fmt := if ofmt = 0 then fFP32 else fBF16
  let parts := (start :: terms.map fun t => (fFP32.dec t.1).mul (fFP32.dec t.2)).mapM fun v => oisOf v w
  match parts with
  | none => (fmt.nanBits, true)
  | some ps =>
    let s := oisSat (ps.foldl (fun v p => v + p.1) 0)
    (fmt.ofCount s.1 w, s.2 || ps.any Prod.snd)

/-- The combine of one token (R318, R321). -/
def reduceToken (q : Desc) (f : Bytes) (t : Nat) : Eng Unit := do
  let b := q.bytes
  let k := pfK f
  let ois := bitsOf (atLe b 0x12 1) 0 1 == 1
  let addIn := bitsOf (atLe b 0x12 1) 1 1 == 1
  let efmt := atLe b 0x13 1
  let ofmt := atLe b 0x16 1
  let rd := Eng.read q.ctx 0x43 0x44
  let route ← rd (atLe b 0x20 8 + t * 8 * k) (8 * k)
  let state := fun j => bitsOf (atLe route (8 * j) 4) 28 2
  Eng.failIf ((upFrom 0 k).any fun j => state j != 2 && state j != 3) 0x49 t
  let used := (upFrom 0 k).filter fun j => state j == 2
  let rows ← used.mapM fun j => do
    let r ← rd (atLe b 0x28 8 + (t * k + j) * pfOutRow f) (pfOutRow f)
    pure (atLe route (8 * j + 4) 4, r)
  let n := pfOutRow f / xSize efmt
  let ya := atLe b 0x30 8 + t * atLe b 0x38 4
  let y ← if addIn then rd ya (n * xSize ofmt) else pure []
  let terms := fun i => rows.map fun r => (r.1, rowElem efmt r.2 i)
  if ois then do
    let w := toSigned 16 (atLe b 0x14 2)
    let es := (upFrom 0 n).map fun i =>
      reduceOis ofmt w (if addIn then fFP32.dec (rowElem ofmt y i) else .fin false 0 0) (terms i)
    let hits := (es.filter Prod.snd).length
    Eng.write q.ctx 0x43 ya (es.flatMap fun e => leBytes (xSize ofmt) e.1)
    Eng.mod fun d => if hits = 0 then d else (d.bump (Reg.COL_CTX_XSAT q.ctx) hits).markSat q.ctx q.cl q.pc
  else
    Eng.write q.ctx 0x43 ya ((upFrom 0 n).flatMap fun i =>
      leBytes (xSize ofmt) (reduceFp ofmt (if addIn then rowElem ofmt y i else 0) (terms i)))

/-- The work of a REDUCE. -/
def reduceWork (q : Desc) (f : Bytes) : Eng Unit := do
  Eng.mod fun d => if bitsOf (atLe q.bytes 0x12 1) 0 1 = 0 then d.markBreach q.ctx q.cl q.pc else d
  (upFrom (atLe q.bytes 0x18 4) (atLe q.bytes 0x1C 4)).forM (reduceToken q f)

/-! ### The engine's commands -/

/-- The ranges of the first n output rows of a REDUCE. -/
def Dev.reduceOuts (d : Dev) (q : Desc) (f : Bytes) (n : Nat) : List (Nat × Nat) :=
  let b := q.bytes
  d.outRanges q.ctx ((upFrom (atLe b 0x18 4) n).map fun t =>
    (atLe b 0x30 8 + t * atLe b 0x38 4, pfOutRow f / xSize (atLe b 0x13 1) * xSize (atLe b 0x16 1)))

/-- The ranges of an exchange operation's outputs on this device (R335). -/
def Dev.xOuts (d : Dev) (q : Desc) (f : Bytes) : List (Nat × Nat) :=
  let b := q.bytes
  match atLe b 0x10 1 with
  | 0x20 =>
    d.outRanges q.ctx ((upFrom 0 (pfE f)).map fun e => (atLe b 0x20 8 + 16 * e + 4, 8)) ++
      (if atLe b 0x1C 4 = 0xFFFFFFFF || !d.localRegion q.cl (atLe b 0x1C 4) 24 then [] else [(spadAddr q.cl (atLe b 0x1C 4), 24)])
  | 0x22 =>
    let lo := atLe b 0x14 2
    d.outRanges q.ctx ((upFrom lo (atLe b 0x16 2 + 1 - lo)).map fun i =>
      (pfDrawer f i + pfTag f, 8 * pfCap f * (1 + pfSpill f)))
  | 0x23 => d.reduceOuts q f (atLe b 0x1C 4)
  | _ => []

/-- What an exchange operation reads at its start (R302, R304, R313): LOCAL of every expert, and all that it sends. -/
def xBegin (q : Desc) (f : Bytes) : Eng (Bytes × List Send) :=
  match atLe q.bytes 0x10 1 with
  | 0x20 => do
    let c ← xCounts q.ctx (atLe q.bytes 0x20 8) f
    let own := (upFrom 0 (pfE f)).flatMap fun e => leBytes 4 (c.n e)
    let d ← get
    let s := d.countAll q f own
    Eng.mod fun d => { d with freeCtr := d.freeCtr + 2 * s.length }
    pure (own, s)
  | 0x21 => do let s ← dispatchSends q f; pure ([], s)
  | 0x22 => do let s ← returnSends q f; pure ([], s)
  | _ => pure ([], [])

/-- The engine starts an exchange operation (R288, R334). DESIGN CHOICE (log entry 121): one that faults while it forms its sends has
performed none of its writes to drawers or return buffers. -/
def Dev.xStart (d : Dev) (q : Desc) : Dev :=
  let d := { d with descs := d.descs.erase q }
  match d.xCheck q with
  | .error e => d.collErr q e
  | .ok f =>
    let o : CollOp := { desc := q, group := 256, seq := 0, outs := d.xOuts q f }
    match xBegin q f d with
    | .error e d => { d with colls := d.colls ++ [o] }.collErr q e
    | .ok (input, sends) d =>
      let d := { d with colls := d.colls ++ [{ o with input := input, outq := sends }] }
      d.collAdvance (d.colls.length - 1)

/-- OP of a fab.coll body is an exchange operation (R287). -/
def isExchange (b : Bytes) : Bool := decide (0x20 ≤ atLe b 0x10 1) && decide (atLe b 0x10 1 ≤ 0x23)

/-- What orders a fab.coll descriptor (R187): its context, and its layer for an exchange operation, else its group. A profile that
the context does not have stands for a layer of its own. -/
def Dev.collKey (d : Dev) (q : Desc) : Nat × Bool × Nat :=
  let ix := atLe q.bytes 0x11 1
  if isExchange q.bytes then (q.ctx, true, ((d.profile q.ctx ix).map pfLayer).getD (65536 + ix)) else (q.ctx, false, ix)

/-- A fab.coll descriptor that no earlier one of its group or layer waits before (R187). -/
def collFirst (d : Dev) (q : Desc) : Bool :=
  q.kind == 0x22 && (d.descs.find? fun e => e.kind == 0x22 && d.collKey e == d.collKey q) == some q

/-- The engine starts the k-th waiting operation that is first of its group or layer, while it runs fewer than 16 (R187, R668,
R692). -/
def Dev.collNext (d : Dev) (k : Nat) : Dev :=
  match (d.descs.filter (collFirst d))[k]? with
  | none => d
  | some q =>
    if 16 ≤ (d.colls.filter fun o => o.group < 0xFE || o.group == 256).length then d
    else if isExchange q.bytes then d.xStart q
    else d.collStart q

/-- A transfer that an operation sent is still in flight. -/
def Dev.sendOpen (d : Dev) (t : Nat × Nat) : Bool := (d.trk t.1).kind != 0 && d.gen t.1 == t.2 && (d.trk t.1).state != 3

/-- The work of an exchange operation at its completion, or none while it cannot complete (R296, R309, R316). -/
def Dev.xWork (d : Dev) (o : CollOp) (f : Bytes) (peers : List (Nat × Bytes)) : Option (Eng Unit) :=
  let q := o.desc
  match atLe q.bytes 0x10 1 with
  | 0x20 =>
    if peers.length < plGs (d.placement q.ctx) (pfLayer f) || !o.outq.isEmpty then none else some (countWork q f o.input peers)
  | 0x23 => some (reduceWork q f)
  | _ => if o.outq.isEmpty && !o.trks.any d.sendOpen then some (pure ()) else none

/-- MISMATCH and TOTAL_RANGE: no count is written (R298, R299). -/
def countUnwritten (e : EngErr) : Bool := e.code == 0x45 || e.code == 0x46

/-- The operations as one that faults leaves them: a ROUTE fault of a REDUCE leaves the rows of its token and of later ones unwritten, so
that only the earlier ones are open outputs (R321, R335). -/
def Dev.xOpen (d : Dev) (o : CollOp) (f : Bytes) (e : EngErr) : Dev :=
  if e.code = 0x49 then
    let outs := d.reduceOuts o.desc f (e.detail - atLe o.desc.bytes 0x18 4)
    { d with colls := d.colls.map fun p => if p = o then { p with outs := outs } else p }
  else d

/-- An exchange operation completes (R309, R316, R335). -/
def Dev.xFinish (d : Dev) (o : CollOp) (peers : List (Nat × Bytes)) : Dev :=
  let q := o.desc
  match d.profile q.ctx (atLe q.bytes 0x11 1) with
  | none => d
  | some f =>
    match d.xWork o f peers with
    | none => d
    | some m =>
      let r := m.runOn d
      match r.2 with
      | some e => (if countUnwritten e then { d with colls := d.colls.erase o } else r.1.xOpen o f e).collErr q e
      | none => { r.1 with colls := r.1.colls.erase o }.descDone q 3

/-- The k-th running operation sends what waits and, where it can, completes (R687, R309, R316). -/
def Dev.collDone (d : Dev) (k : Nat) (peers : List (Nat × Bytes)) : Dev :=
  let d := d.collAdvance k
  match d.colls[k]? with
  | none => d
  | some o => if o.group = 256 then d.xFinish o peers else if o.group < 0xFE then d.collFinish o else d

/-- COLL_OP_START (R668). -/
def execCollOpStart (k : Nat) (s : State) : Host.Outcome State Fault Refusal := s.run (·.collNext k)
/-- COLL_OP_COMPLETE (R687). peers are the check value and the LOCAL counts of each participant of a COUNT, by group-local
rank (R299). -/
def execCollOpComplete (k : Done) (peers : List (Nat × Bytes)) (s : State) : Host.Outcome State Fault Refusal :=
  s.run fun d =>
    let e := d.collDone k.n peers
    e.endLosing d (decide (d.colls.length ≤ e.colls.length)) 4 128 ((d.colls[k.n]?).elim [] CollOp.outs) k.lost

end Sys2Proof.Machine
end

