-- ==== Sys2Proof/Machine/Load.lean ====
section
/-!
DEFINITION. Plan commands (R79 to R83, R90, R99, R903): LOAD, START and UNLOAD, what LOAD gives a context and what UNLOAD and
teardown take from it, and the weight pointer arrays (R293).
-/

namespace Sys2Proof.Machine

/-! ### Measurement registers (R841, R842) -/

/-- MRm. -/
def Dev.mr (d : Dev) (m : Nat) : Bytes := (upFrom 0 6).flatMap fun k => leBytes 8 (d.reg (Reg.AON_MR_W m k)).toNat
/-- Extend MRm with a 48-byte digest (R842). -/
def Dev.mrExtend (d : Dev) (m : Nat) (digest : Bytes) : Dev :=
  let v := sha384 (d.mr m ++ digest)
  (upFrom 0 6).foldl (fun e k => e.setReg (Reg.AON_MR_W m k) (BitVec.ofNat 64 (atLe v (8 * k) 8))) d

/-! ### What a context holds outside itself -/

/-- CAB_TOTAL and the VC7 weight in force (R142), from the loaded plans. -/
def Dev.noteLoaded (d : Dev) : Dev :=
  let xs := allCtxs.filter d.loaded
  let bufs := xs.foldl (fun v x => (planPools (d.ctx x).plan).foldl (fun v q => v + q.2.2) v) 0
  let ws := xs.flatMap fun x => ((planWindows (d.ctx x).plan).filter fun w => w.res == 4).map WindowEntry.len
  let w7 := ws.foldl max 0
  (d.setReg Reg.CAB_TOTAL (BitVec.ofNat 64 bufs)).setFld Reg.FAB_VCW 20 4 (if ws.isEmpty then 1 else w7)

/-- Objects of a context are released (R124). -/
def Dev.freeObjs (d : Dev) (x : Nat) : Dev :=
  let f := fun (o : SyncObj) => if o.owned && o.ctx == x then {} else o
  { d with objs := mapVals (fun _ => {}) f d.objs, syncQ := d.syncQ.filter fun q => q.ctx != x }

/-- Every pool of a context is returned; no link word is written (R539). -/
def Dev.freePools (d : Dev) (x : Nat) : Dev :=
  let d := { d with cabRec := mapKeep (fun k => k / 131072 != x) d.cabRec, cabPend := d.cabPend.filter fun q => q.ctx != x }
  (upFrom 0 8).foldl
    (fun e p => ((e.setReg (Reg.CAB_CTX_P_BASE x p) 0).setReg (Reg.CAB_CTX_P_STATE x p) 0).setReg (Reg.CAB_CTX_P_RES x p) 0)
    (d.setReg (Reg.CAB_CTX_CFG x) 0)

/-- The bias claim of a context is released (R237). -/
def Dev.freeBias (d : Dev) (x : Nat) : Dev :=
  let lo := d.fld (Reg.DRS_CTX_BIAS x) 0 17
  let n := d.fld (Reg.DRS_CTX_BIAS x) 32 17
  { d.setReg (Reg.DRS_CTX_BIAS x) 0 with biasWritten := mapKeep (fun k => decide (k < lo) || decide (lo + n ≤ k)) d.biasWritten }

/-- The namespaces bound to a context are unbound. -/
def Dev.freeNs (d : Dev) (x : Nat) : Dev :=
  (upFrom 0 64).foldl
    (fun e k => if e.bit (Reg.CHEST_NS_INFO k) 2 && e.fld (Reg.CHEST_NS_INFO k) 3 3 == x then e.setFld (Reg.CHEST_NS_INFO k) 2 4 0 else e) d

/-- The fingerprint slots of a context are released and read 0 (R727). -/
def Dev.freeSlots (d : Dev) (x : Nat) : Dev :=
  (d.ctx x).slots.foldl
    (fun e s => { e.setReg (Reg.FPU_SLOT s.slot) 0 with run := mapPut e.run (Reg.FPU_SLOT s.slot) none })
    (d.modCtx x fun c => { c with slots := [] })

/-- What UNLOAD and the RELEASE phase of teardown take from a context alike (R752): trackers, objects, pools, staged copies, bias
claim, namespaces, slots, extents, pinned lines, placement tables, staged inbound packets of its job, and the slice. -/
def Dev.release (d : Dev) (x : Nat) : Dev :=
  let job := planJob (d.ctx x).plan
  let loadedHere := d.loaded x
  let d := { d with
    trks := mapKeep (fun k => !((d.trk k).ctx == x && (d.trk k).kind != 0)) d.trks
    lwrites := d.lwrites.filter fun w => w.ctx != x
    tierEnts := d.tierEnts.filter fun e => e.ctx != x
    prefetch := mapPut d.prefetch x none
    placeTab := mapPut d.placeTab x none
    placePend := mapPut d.placePend x none
    colls := d.colls.filter fun o => o.desc.ctx != x
    collSeq := mapKeep (fun k => k / 256 != x) d.collSeq
    staged := d.staged.filter fun s => s.ctx != x
    parked := d.parked.filter fun p => !(loadedHere && p.pkt.hdr.job == job) }
  let d := (d.setReg (Reg.DRS_CTX_PLACE_ID x) 0).setReg (Reg.DRS_CTX_PLACE_SWAP x) 0
  let d := ((((d.freeObjs x).freePools x).freeBias x).freeNs x).freeSlots x
  let d := (d.hcUnpin x).modCtx x fun c => { c with images := [], slice := false }
  d.noteHeld

/-- The sequencers of a context that leaves are IDLE. -/
def idleSeq (x : Nat) (k : Cluster) : Cluster :=
  if k.ctx = x then { k with seq := .idle, staged := [], wait := none, waitOk := false, fetch := [] } else k

/-- Power-up is complete: READY, and the masters that BUR_ADMIT admits (R832, R851). -/
def Dev.setReady (d : Dev) : Dev :=
  ((d.setBit Reg.BUR_STATUS 0 true).setFld Reg.BUR_STATUS 8 8 6).setReg Reg.BUR_ADMIT 0x0003FFFF0003FFFD

/-- A Bureau restart is complete once the restarted Bureau has no context loaded (R846). -/
def Dev.restartEnd (d : Dev) : Dev :=
  if d.boot.restart && d.boot.slot.isSome && !allCtxs.any d.loaded then
    let d := { d with boot := { d.boot with restart := false } }
    if d.boot.stage = 8 then d.setReady else d
  else d

/-- A context that leaves for UNLOADED keeps the number of its step, its late starts and its gap (R98, R727). -/
def Dev.toUnloaded (d : Dev) (x : Nat) : Dev :=
  let c := d.ctx x
  let d := { d.setCtx x { step := c.step, late := c.late, gap := c.gap } with clus := mapVals (fun _ => {}) (idleSeq x) d.clus }
  let r := Reg.FAB_CTX_ID x
  let d := ((d.setFld r 0 16 0).setFld r 32 8 0).setFld r 40 24 0
  (((d.setReg (Reg.COL_CTX_CFG x) 0).setReg (Reg.TIER_CTX_STATE x) 0).setReg (Reg.CTX_CTX_SERVE x) 0).noteLoaded.restartEnd

/-! ### Weight pointer arrays (R293) -/

/-- The copies of the weight pointer arrays of a table: profile index, RESW and bytes. -/
def reswCopies (p t : Bytes) : List (Nat × Nat × Bytes) :=
  match planFind p 8 with
  | none => []
  | some s =>
    (upFrom 0 (atLe p s.off 2)).filterMap fun i =>
      let f := profileOf p s i
      let l := pfLayer f
      let n := plCount t l
      if t.isEmpty || plLayers t ≤ l || plWptr t l = 0xFFFFFFFF || n = 0 then none
      else some (i, pfResw f, (t.drop (plWptr t l)).take (16 * n))

/-- Write the arrays in order, or the profile and translation reason and address of the first that fails. -/
def Dev.writeResw (x : Nat) : List (Nat × Nat × Bytes) → Dev → Except (Nat × Nat × Nat) Dev
  | [], d => .ok d
  | (i, a, bs) :: t, d =>
    match d.vwrite x a bs with
    | .ok d => Dev.writeResw x t d
    | .error r => .error (i, r)

/-! ### LOAD -/

/-- The plan bytes that the Bureau copies (R79): the header, and the rest where LENGTH is in range. -/
def Dev.planRead (d : Dev) (addr : Nat) : Bytes × Dev :=
  let h := d.softRead addr 64
  let n := atLe h.1 8 4
  if 64 < n && n ≤ 256 * 2 ^ 20 && inHbm addr n then
    let r := h.2.softRead (addr + 64) (n - 64)
    (h.1 ++ r.1, r.2)
  else h

/-- Give the objects of the sync initialisation table to context x (R91). -/
def Dev.giveObjs (d : Dev) (x : Nat) (p : Bytes) : Dev :=
  (planSyncs p).foldl
    (fun e q =>
      let chain := bitsOf q.flags 1 1 == 1
      let o : SyncObj :=
        { count := BitVec.ofNat 32 q.init, owned := true, ctx := x, reinit := bitsOf q.flags 0 1 == 1, chain := chain,
          next := q.next, target := q.target, init := q.init }
      e.setObj q.obj o) d

/-- Copy an image into its code store, at its place (R149), and extend MR6 with it (R841). -/
def Dev.giveImage (d : Dev) (x : Nat) (e : ClusterEntry) : Dev :=
  match d.placeImage e with
  | none => d
  | some base =>
    let r := d.softRead e.image e.len
    let d := r.2.write (spadAddr e.cl (0x700000 + base)) r.1
    (d.modCtx x fun c => { c with images := c.images ++ [{ cl := e.cl, base := base, len := imageSpan e.len }] }).mrExtend 6 (sha384 r.1)

/-- The fingerprint slots of a plan (R712, R713). -/
def planSlots (d : Dev) (p : Bytes) : List FpSlot :=
  match planFind p 7 with
  | none => []
  | some s => (slotEntries p s).map fun o =>
      let base := atLe p (o + 8) 8
      { slot := atLe p o 2
        runs := ((segRuns (planStacks p) (d.segsOf p) base (atLe p (o + 0x10) 8)).getD []).map fun r => (r.1, r.2.1, r.2.2 - base) }

/-- The bias claim of a plan, both copies at the initial values (R237). -/
def Dev.giveBias (d : Dev) (x : Nat) (p : Bytes) : Dev :=
  match planFind p 8 with
  | none => d
  | some s =>
    let (lo, n) := planClaim p
    let np := atLe p s.off 2
    let nb := atLe p (s.off + 4) 4
    let value := fun i => if i < nb then atLe p (s.off + 0x40 + 128 * np + 4 * i) 4 else 0
    (upFrom 0 n).foldl (fun e i => e.setReg (Reg.DRS_BIAS (lo + i)) (BitVec.ofNat 64 (value i + value i * 2 ^ 32)))
      (d.setReg (Reg.DRS_CTX_BIAS x) (BitVec.ofNat 64 (if n = 0 then 0 else lo + n * 2 ^ 32)))

/-- A pool of a plan: its registers, its link words and its reserves (R529). -/
def Dev.givePool (d : Dev) (x en : Nat) (pools : List (Nat × Nat × Nat)) (p : Nat) (q : Nat × Nat × Nat) : Dev :=
  let n := q.2.2
  let d := d.setReg (Reg.CAB_CTX_P_BASE x p) (BitVec.ofNat 64 (q.1 + q.2.1 * 2 ^ 48))
  let d := d.setReg (Reg.CAB_CTX_P_STATE x p) (BitVec.ofNat 64 (n + n * 2 ^ 32))
  let res := (upFrom 0 16).foldl (fun v c => if bitsOf en c 1 = 1 && homeIn pools c == some p then v + 2 ^ c else v) 0
  let d := d.setReg (Reg.CAB_CTX_P_RES x p) (BitVec.ofNat 64 res)
  (upFrom 0 n).foldl
    (fun e i =>
      if e.cabBlocked ⟨x, p, i⟩ then e
      else e.hubWrite (q.1 + i * 2 ^ q.2.1) (leBytes 8 (linkWord (if i + 1 = n then 0xFFFF else i + 1) p x))) d

/-- The Cabinet pools and hub cache ways of a plan (R521, R529). -/
def Dev.giveCabinet (d : Dev) (x : Nat) (p : Bytes) : Dev :=
  let pools := planPools p
  let d := d.setReg (Reg.CAB_CTX_CFG x) (BitVec.ofNat 64 (pools.length + cabFld p 2 2 * 2 ^ 16))
  let d := ((upFrom 0 pools.length).zip pools).foldl (fun e q => e.givePool x (cabFld p 2 2) pools q.1 q.2) d
  let d := d.setReg (Reg.CAB_HC_CTX_WAYS x) (BitVec.ofNat 64 (planWays p + cabFld p 6 2 * 2 ^ 16))
  let d := d.setReg (Reg.CAB_HC_CTX_PIN_BASE x) (BitVec.ofNat 64 (cabFld p 8 8))
  let d := d.setReg (Reg.CAB_HC_CTX_PIN_SIZE x) (BitVec.ofNat 64 (cabFld p 0x10 8))
  d.setFld Reg.CAB_HC_STATUS 16 16 d.hcPinned

/-- Bind the namespaces of a plan (R551). -/
def Dev.giveNs (d : Dev) (x : Nat) (p : Bytes) : Dev :=
  (upFrom 0 64).foldl (fun e k => if bitsOf (planNs p) k 1 = 1 then e.setFld (Reg.CHEST_NS_INFO k) 2 4 (1 + 2 * x) else e) d

/-- The registers that show a loaded plan, and the fault record cleared (R757). -/
def Dev.giveRegs (d : Dev) (x : Nat) (p : Bytes) : Dev :=
  let d := (upFrom 0 1024).foldl (fun e k => e.setReg (Reg.CTX_FR x k) 0) d
  let r := Reg.FAB_CTX_ID x
  let d := ((d.setFld r 0 16 (planJob p)).setFld r 32 8 0).setFld r 40 24 0
  let ll := secAt p 12 4 4
  let d := d.setReg (Reg.COL_CTX_CFG x) (if (planFind p 12).isSome then
    BitVec.ofNat 64 (secAt p 12 0 2 % 128 + (if ll = 0 then 256 else ll) * 2 ^ 16) else 0)
  let d := d.setReg (Reg.TIER_CTX_STATE x) (BitVec.ofNat 64 (planHint p).toNat)
  let t := planTable p
  let d := { d with placeTab := mapPut d.placeTab x (if t.isEmpty then none else some t) }
  let d := (d.setReg (Reg.DRS_CTX_PLACE_ID x) (BitVec.ofNat 64 (atLe t 0 8))).setReg (Reg.DRS_CTX_PLACE_SWAP x) 0
  d.setReg (Reg.CTX_CTX_SERVE x) 0

/-- What LOAD of an accepted plan does but for the weight pointer arrays: the context is LOADED (R79, R90, R98, R149). -/
def Dev.giveAll (d : Dev) (x : Nat) (p : Bytes) : Dev :=
  let c := d.ctx x
  let d := { d with seqs := mapKeep (fun k => k % 8 != x) d.seqs }
  let d := d.mrExtend 5 (sha384 p)
  let d := d.setCtx x { state := .loaded, step := BitVec.ofNat 64 (planFirst p), late := c.late, gap := c.gap, plan := p, slots := planSlots d p }
  let d := (planClusters p).foldl (fun e k => e.giveImage x k) d
  ((((((d.giveObjs x p).giveBias x p).giveCabinet x p).giveNs x p).giveRegs x p)).noteLoaded

/-- End a plan command: BUR_PLAN_STATUS takes its outcome and BUSY returns to 0 (R802, R903). -/
def Dev.planEnd (d : Dev) (x : Nat) (e : LoadErr) : Dev :=
  let w := e.code % 256 + e.block % 256 * 2 ^ 8 + x % 8 * 2 ^ 16 + e.detail % 2 ^ 32 * 2 ^ 32
  { d.setReg Reg.BUR_PLAN_STATUS (BitVec.ofNat 64 w) with planCmd := none }.ctxEvent x

/-- LOAD of the plan at an address into context x: the block after it and its outcome (R83, R293). -/
def Dev.loadRun (d : Dev) (x addr : Nat) : Dev × LoadErr :=
  if !inHbm addr 64 then (d, { code := 3, detail := 8 })
  else
    let r := d.planRead addr
    let d := r.2
    let p := r.1
    match d.headErr x addr p with
    | some e => (d, e)
    | none =>
      match d.bodyErr x p with
      | some e => (d, e)
      | none =>
        match Dev.writeResw x (reswCopies p (planTable p)) (d.giveAll x p) with
        | .ok e => (e, { code := 0 })
        | .error r => (d, { code := 0xD, block := 0xA, detail := (planFind p 8).elim 0 Sec.off + 0x40 + 128 * r.1 + 0x40 })

/-- The plan command of a kind that is being performed. -/
def Dev.planNow (d : Dev) (kind : Nat) : Option PlanCmd := d.planCmd.filter fun c => c.kind == kind

/-- LOAD_COMPLETE (R83, R903). -/
def execLoadComplete (s : State) : Host.Outcome State Fault Refusal :=
  s.run fun d =>
    match d.planNow 0 with
    | none => d
    | some c =>
      let r := d.loadRun c.ctx c.addr
      r.1.planEnd c.ctx r.2

/-! ### START and UNLOAD -/

/-- n_ready (R108): the smallest slot number whose time is at or after t. -/
def slotFrom (t0 period t : Nat) : Nat := if t ≤ t0 then 0 else ceilDiv (t - t0) period

/-- Enter ARMED and join the start agreement (R108). -/
def Dev.arm (d : Dev) (x : Nat) : Dev :=
  let p := (d.ctx x).plan
  let n := slotFrom (planT0 p) (planPeriod p) (d.time.toNat + planLead p)
  let d := d.modCtx x fun c => { c with state := .armed, nReady := n, agreed := false, slice := false }
  if 1 < planDevices p then d.agreeJoin x true n else d

/-- START_COMPLETE (R82, R100, R791, R903). -/
def execStartComplete (s : State) : Host.Outcome State Fault Refusal :=
  s.run fun d =>
    match d.planNow 1 with
    | none => d
    | some c =>
      let st := (d.ctx c.ctx).state
      if (st = .loaded || st = .stopped) && !d.restore.any fun r => r.ctx == c.ctx then (d.arm c.ctx).planEnd c.ctx { code := 0 }
      else d.planEnd c.ctx { code := 6 }

/-- UNLOAD of a context (R124, R153, R237, R539, R562). -/
def Dev.unloadRun (d : Dev) (x : Nat) : Dev := ((d.tierUnload x).release x).toUnloaded x

/-- UNLOAD_COMPLETE (R82, R562, R787, R903). -/
def execUnloadComplete (s : State) : Host.Outcome State Fault Refusal :=
  s.run fun d =>
    match d.planNow 2 with
    | none => d
    | some c =>
      let st := (d.ctx c.ctx).state
      if (st = .loaded || st = .stopped || st = .done) && (mapFind d.snaps c.ctx).isNone then (d.unloadRun c.ctx).planEnd c.ctx { code := 0 }
      else d.planEnd c.ctx { code := 6 }

/-! ### The registers -/

/-- A write of BUR_PLAN_CTRL (R80, R81, R833, R903). -/
def Dev.wPlanCtrl (d : Dev) (src : Master) (w : Word) : Dev :=
  let r := Reg.BUR_PLAN_CTRL
  d.guard src r fun d =>
    if !d.bit Reg.BUR_STATUS 0 || d.bit Reg.BUR_PLAN_STATUS 19 then d.logDiscard r
    else
      let d := d.plainWrite r w
      let x := fieldOf w 48 3
      let go := fun k => { d.setBit Reg.BUR_PLAN_STATUS 19 true with planCmd := some { kind := k, ctx := x, addr := fieldOf w 0 48 } }
      match fieldOf w 56 3 with
      | 0 => d
      | 1 => go 0
      | 2 => go 1
      | 4 => go 2
      | _ => d.setReg Reg.BUR_PLAN_STATUS (BitVec.ofNat 64 (5 + x * 2 ^ 16))

/-- LOAD (R83, R903). -/
def execLoad (src : Master) (w : Word) (s : State) : Host.Outcome State Fault Refusal := s.run (·.wPlanCtrl src w)
/-- START (R82, R903). -/
def execStart (src : Master) (w : Word) (s : State) : Host.Outcome State Fault Refusal := s.run (·.wPlanCtrl src w)
/-- UNLOAD (R82, R903). -/
def execUnload (src : Master) (w : Word) (s : State) : Host.Outcome State Fault Refusal := s.run (·.wPlanCtrl src w)

/-- A write of BUR_PLAN_STOPx (R99). -/
def Dev.wPlanStop (d : Dev) (src : Master) (x : Nat) (w : Word) : Dev :=
  let r := Reg.BUR_PLAN_STOP x
  d.guard src r fun d => if d.loaded x && w.toNat < (d.ctx x).step.toNat then d.logDiscard r else d.plainWrite r w

/-- PLAN_STOP_WRITE (R99). -/
def execPlanStopWrite (src : Master) (x : Nat) (w : Word) (s : State) : Host.Outcome State Fault Refusal :=
  s.run fun d => if x < 8 then d.wPlanStop src x w else d

end Sys2Proof.Machine
end

