-- ==== Sys2Proof/Machine/Matrix.lean ====
section
/-!
DEFINITION. The arithmetic of the matrix array (R343, R347 to R353, R387 to R395): operands, the sum of one output element in
each mode, and the FP64 method. An element's result is defined without regard to the grid's schedule.
-/

namespace Sys2Proof.Machine

/-- One GEMM: mode, formats, window, shape, flags and the operand record (R359, R360, R376). -/
structure Gemm where
  mode : Nat
  afmt : Nat
  bfmt : Nat
  ofmt : Nat
  w : Int
  m : Nat
  n : Nat
  k : Nat
  tb : Bool
  accIn : Bool
  sq : Bool
  a : Nat
  sa : Nat
  b : Nat
  sb : Nat
  c : Nat
  lda : Nat
  ldsa : Nat
  ldb : Nat
  ldsb : Nat
  ldc : Nat
  deriving DecidableEq, Repr

/-- Plane depth K_p of a format (R342); FP64 runs as 8-bit digits. -/
def planeDepth (f : Nat) : Nat :=
  if elemBits f = 16 || f = 2 then 128 else if elemBits f = 8 || f = 3 then 256 else 512

/-- The operand formats pair as the FLOAT and OIS rows of R347 allow. -/
def floatPair (a b : Nat) : Bool :=
  (a == 0 && b == 0) || (a == 1 && b == 1) || ((a == 4 || a == 5) && (b == 4 || b == 5)) ||
    ((a == 6 || a == 7) && (b == 6 || b == 7)) || (8 ≤ a && a ≤ 0xA && 8 ≤ b && b ≤ 0xA)

/-- The combinations of R347. -/
def legalMode (mode a b o : Nat) : Bool :=
  match mode with
  | 0 => floatPair a b && (o == 2 || o == 0 || o == 1)
  | 1 => ((a == 0xB && b == 0xB) || (a == 0xC && b == 0xC)) && o == 0xD
  | 2 => floatPair a b && (o == 2 || o == 0 || o == 0xE)
  | 3 => a == 2 && b == 2 && o == 2
  | 4 => a == 3 && b == 3 && o == 3
  | _ => false

/-! ### Operands (R343, R339, R371) -/

/-- The rows of A. -/
def Gemm.aRows (g : Gemm) : List (Nat × Nat) := strided g.a g.lda g.m (elemBytes g.afmt g.k)
/-- The scale rows of A. -/
def Gemm.aScales (g : Gemm) : List (Nat × Nat) := if isMx g.afmt then strided g.sa g.ldsa g.m (ceilDiv g.k 32) else []
/-- Rows and columns of the stored B. -/
def Gemm.stored (g : Gemm) : Nat × Nat := if g.tb then (g.k, g.n) else (g.n, g.k)
/-- The rows of the stored B. -/
def Gemm.bRows (g : Gemm) : List (Nat × Nat) := strided g.b g.ldb g.stored.1 (elemBytes g.bfmt g.stored.2)
/-- The scale rows of the stored B. -/
def Gemm.bScales (g : Gemm) : List (Nat × Nat) :=
  if !isMx g.bfmt then []
  else strided g.sb g.ldsb (if g.sq then ceilDiv g.stored.1 32 else g.stored.1) (ceilDiv g.stored.2 32)
/-- The rows of the output. -/
def Gemm.cRows (g : Gemm) : List (Nat × Nat) := strided g.c g.ldc g.m (elemBytes g.ofmt g.n)

/-- Byte j of row i. -/
def byteAt (r : List Bytes) (i j : Nat) : Nat := ((r.getD i []).getD j 0).toNat

/-- Element j of row i of a matrix of a format, with its block scale at row si (R339). -/
def elemAt (f : Nat) (rows scales : List Bytes) (i j si : Nat) : FVal :=
  let b := elemOf f (rows.getD i []) j
  if isMx f then mxVal f b (byteAt scales si (j / 32)) else elemVal f b

/-- val_a (m, k). -/
def Gemm.valA (g : Gemm) (rows scales : List Bytes) (m k : Nat) : FVal := elemAt g.afmt rows scales m k m

/-- val_b (k, n) in the stored orientation. -/
def storedB (f : Nat) (tb sq : Bool) (rows scales : List Bytes) (k n : Nat) : FVal :=
  let i := if tb then k else n
  let j := if tb then n else k
  elemAt f rows scales i j (if sq then i / 32 else i)

/-! ### Products and sums -/

/-- The high and low parts of an FP32 operand (R387): the significand is cut to its 12 most significant bits as encoded. -/
def splitX3 : FVal → FVal × FVal
  | .fin neg m e => (.fin neg (m - m % 4096) e, .fin neg (m % 4096) e)
  | v => (v, v)

/-- The product of FP32X3 mode (R388, R389). -/
def mulX3 (a b : FVal) : FVal :=
  match a, b with
  | .fin x m e, .fin y n f =>
    let p := splitX3 (.fin x m e)
    let q := splitX3 (.fin y n f)
    match ((p.1.mul q.1).add false (p.1.mul q.2)).add false (p.2.mul q.1) with
    | .fin _ 0 z => .fin (xor x y) 0 z
    | v => v
  | _, _ => a.mul b

/-- The product of a mode. -/
def prodOf (mode : Nat) (a b : FVal) : FVal := if mode = 3 then mulX3 a b else a.mul b

/-- A list cut into pieces of 32; the fuel is its length. -/
def chunks32 {α : Type} : Nat → List α → List (List α)
  | 0, _ => []
  | f + 1, l => if l.isEmpty then [] else l.take 32 :: chunks32 f (l.drop 32)

/-- The exact sum of a group's products (R348, R349): −0 is its start, so that a zero sum is −0 only where every product is. -/
def groupSum (ps : List FVal) : FVal := ps.foldl (FVal.add false) (.fin true 0 0)

/-- One group added to an FP32 accumulator; a group without a product leaves it unchanged (R348, R412). -/
def addGroup (acc : Nat) (ps : List (Option FVal)) : Nat :=
  let q := ps.filterMap id
  if q.isEmpty then acc else fFP32.rne ((fFP32.dec acc).add false (groupSum q))

/-- The sum of one element in OIS mode with its events (R351 to R353). -/
def oisSum (w : Int) : AccV → List (Option FVal) → AccV × Nat
  | acc, [] => (acc, 0)
  | acc, none :: t => oisSum w acc t
  | acc, some p :: t =>
    match oisOf p w, acc with
    | none, .nan => oisSum w .nan t
    | none, _ => let r := oisSum w .nan t; (r.1, r.2 + 1)
    | some (n, s), .num v => let r := oisSum w (.num (v + n)) t; (r.1, r.2 + s.toNat)
    | some (_, s), a => let r := oisSum w a t; (r.1, r.2 + s.toNat)

/-- An exact integer product added to a sum (R350). -/
def intAdd (acc : AccV) (p : Option FVal) : AccV :=
  match acc, p with
  | .num v, some q => .num (v + q.toInt .rtz)
  | a, _ => a

/-- The sum of one output element from its start (R348, R350, R351), with the OIS events: ps holds the product of every k, or
none where B is absent (R411). -/
def accDot (mode : Nat) (w : Int) (start : AccV) (ps : List (Option FVal)) : AccV × Nat :=
  match mode with
  | 1 => (ps.foldl intAdd start, 0)
  | 2 => oisSum w start ps
  | _ =>
    match start with
    | .fp b => (.fp ((chunks32 ps.length ps).foldl addGroup b), 0)
    | a => (a, 0)

/-- The start of a sum: the existing output under ACC_IN, else zero (R348, R350, R351), with its OIS events (R353). -/
def accStart (mode ofmt : Nat) (w : Int) (old : Option Nat) : AccV × Nat :=
  match mode, old with
  | 1, none => (.num 0, 0)
  | 1, some b => (.num (toSigned 32 b), 0)
  | 2, none => (.num 0, 0)
  | 2, some b =>
    if ofmt = 0xE then
      match oisVal b with
      | none => (.nan, 1)
      | some n => (.num n, 0)
    else
      match oisOf (elemVal ofmt b) w with
      | none => (.nan, 1)
      | some (n, s) => (.num n, s.toNat)
  | _, none => (.fp 0, 0)
  | _, some b => (.fp (fFP32.rne (elemVal ofmt b)), 0)

/-- The element written from an accumulator (R348, R350, R351, R352), with whether the drain saturates. -/
def accOut (ofmt : Nat) (w : Int) (acc : AccV) : Nat × Bool :=
  match acc with
  | .fp b => (((floatFmt ofmt).getD fFP32).rne (fFP32.dec b), false)
  | .nan => (if ofmt = 0xE then oisNan else ((floatFmt ofmt).getD fFP32).nanBits, false)
  | .num n =>
    if ofmt = 0xD then
      let top : Int := 2147483647
      if top < n then (wrapTo 32 top, true)
      else if n < -top - 1 then (wrapTo 32 (-top - 1), true)
      else (wrapTo 32 n, false)
    else
      let s := oisSat n
      if ofmt = 0xE then (oisBits s.1, s.2) else (((floatFmt ofmt).getD fFP32).ofCount s.1 w, s.2)

/-- The existing output element of row m, column n under ACC_IN. -/
def Gemm.old (g : Gemm) (c : List Bytes) (m n : Nat) : Option Nat :=
  if g.accIn then some (elemOf g.ofmt (c.getD m []) n) else none

/-- Every accumulator of a GEMM by rows with the OIS events of its sums. start gives each sum's start; valB is none where B is
absent. -/
def Gemm.accs (g : Gemm) (valA : Nat → Nat → FVal) (valB : Nat → Nat → Option FVal) (start : Nat → Nat → AccV × Nat) :
    List (List (AccV × Nat)) :=
  (upFrom 0 g.m).map fun m => (upFrom 0 g.n).map fun n =>
    let s := start m n
    let r := accDot g.mode g.w s.1
      ((upFrom 0 g.k).map fun k => (valB k n).map fun b => prodOf g.mode (valA m k) b)
    (r.1, r.2 + s.2)

/-- Total of the events of a table of accumulators. -/
def accEvents (l : List (List (AccV × Nat))) : Nat := l.foldl (fun v r => r.foldl (fun u e => u + e.2) v) 0

/-- The accumulators without their events. -/
def accVals (l : List (List (AccV × Nat))) : List (List AccV) := l.map fun r => r.map Prod.fst

/-- The rows written from accumulators at an address and stride, and the elements that saturate. -/
def drainRows (c ldc ofmt : Nat) (w : Int) (accs : List (List AccV)) : List (Nat × Bytes) × Nat :=
  let outs := accs.map fun r => r.map (accOut ofmt w)
  (outs.mapIdx (fun i r => (c + i * ldc, packElems ofmt (r.map Prod.fst))),
    outs.foldl (fun v r => v + (r.filter Prod.snd).length) 0)

/-! ### FP64 by seven integer limbs (R390 to R395) -/

/-- e of a row or column: ilogb of its largest magnitude plus 1, or 0 where every element is zero; none where one is NaN or
infinite (R390, R393). -/
def limbExp (vs : List FVal) : Option Int :=
  if vs.any fun v => match v with | .fin _ _ _ => false | _ => true then none
  else
    some (vs.foldl (fun (m : Option Int) v =>
      match v.ilogb, m with
      | some i, some j => some (max (i + 1) j)
      | some i, none => some (i + 1)
      | none, j => j) none |>.getD 0)

/-- X of an element of a row with exponent e (R390). -/
def limbInt (e : Int) (v : FVal) : Int := (v.scale (54 - e)).toInt .rne

/-- The signed digits of x, most significant first (R391); the first argument is the number of digits left. -/
def limbDigits : Nat → Int → List Int → List Int
  | 0, _, acc => acc
  | i + 1, r, acc =>
    let d := (r + 128) % 256 - 128
    limbDigits i ((r - d) / 256) (d :: acc)

/-- S over k and over every digit pair with i + j at most 6 (R392). -/
def limbSum (xs ys : List (List Int)) : Int :=
  (List.zip xs ys).foldl (fun s p =>
    (upFrom 0 7).foldl (fun s i =>
      (upFrom 0 (7 - i)).foldl (fun s j => s + p.1.getD i 0 * p.2.getD j 0 * ((256 ^ (12 - i - j) : Nat) : Int)) s) s) 0

/-- Exponent and digits of every row or column of an operand. -/
def limbsOf (rows : List (List FVal)) : List (Option (Int × List (List Int))) :=
  rows.map fun r => (limbExp r).map fun e => (e, r.map fun v => limbDigits 7 (limbInt e v) [])

/-- One output element (R392, R393). -/
def limbOut (a b : Option (Int × List (List Int))) (old : Option Nat) : Nat :=
  match a, b with
  | some (ea, xs), some (eb, ys) =>
    let v := ofSigned (limbSum xs ys) (ea + eb - 108) false
    fFP64.rne (match old with | some o => v.add false (fFP64.dec o) | none => v)
  | _, _ => fFP64.nanBits

/-- A workspace (R395): the exponents, then digit i of element k of row r at (i × rows + r) × K + k. A row with a NaN or an
infinity has no exponent or digits, so its places hold free values. -/
def limbWork (base k : Nat) (ls : List (Option (Int × List (List Int)))) (d : Dev) : List (Nat × Bytes) × Dev :=
  let n := ls.length
  let off := base + 64 * ceilDiv (4 * n) 64
  let step := fun (acc : List (Nat × Bytes) × Dev) (p : Option (Int × List (List Int)) × Nat) =>
    match p.1 with
    | some (e, ds) =>
      (acc.1 ++ (base + 4 * p.2, leBytes 4 (wrapTo 32 e)) ::
        (upFrom 0 7).map (fun i => (off + (i * n + p.2) * k, ds.map fun q => BitVec.ofInt 8 (q.getD i 0))), acc.2)
    | none =>
      let f := acc.2.freshBytes (4 + 7 * k)
      (acc.1 ++ (base + 4 * p.2, f.1.take 4) ::
        (upFrom 0 7).map (fun i => (off + (i * n + p.2) * k, (f.1.drop (4 + i * k)).take k)), f.2)
  ls.zipIdx.foldl step ([], d)

end Sys2Proof.Machine
end

