-- ==== Sys2Proof/Machine/MatrixExec.lean ====
section
/-!
DEFINITION. The descriptors of the matrix array: their checks (R347, R354, R359 to R371, R375 to R380, R404, R405), and
mx.gemm, mx.gemm.grp, mx.load and mx.drain performed.
-/

namespace Sys2Proof.Machine

/-- W and WSRC and WOFF break R354. -/
def winBad (mode w wsrc woff : Nat) : Bool :=
  decide (2 < wsrc) || (mode != 2 && (w != 0 || wsrc != 0)) || (wsrc != 2 && woff != 0)

/-- The window of an OIS descriptor (R354, R355): W of the body, MXA_WIN as sampled, or the s16 at WOFF. -/
def Dev.window (d : Dev) (q : Desc) (w wsrc woff : Nat) : Except RdErr Int :=
  match wsrc with
  | 0 => .ok (toSigned 16 w)
  | 1 => .ok (toSigned 16 (fieldOf (q.cfg.getD 0 0) 0 16))
  | _ =>
    match d.engLocal q.ctx q.cl woff 2 with
    | .ok bs => .ok (toSigned 16 (leNat bs))
    | .error e => .error e

/-- A failed read as checks of the ADDR and POISON subcodes. -/
def rdChecks {α : Type} (r : Except RdErr α) : List (Nat × Bool × Nat) :=
  match r with
  | .ok _ => []
  | .error e => [((e.sub 4 5).sub, true, e.addr)]

/-- K of a GEMM breaks R364. -/
def kBad (afmt bfmt mode k : Nat) (held : Bool) : Bool :=
  ((isMx afmt || isMx bfmt || held) && k % 32 != 0) || (bfmt == 0xC && k % 2 != 0) || (mode == 4 && decide (65536 < k))

/-- M, N or K out of range (R359, R376). -/
def mnkBad (m n k : Nat) : Bool :=
  m == 0 || decide (2 ^ 24 ≤ m) || n == 0 || decide (65536 < n) || k == 0 || decide (1048576 < k)

/-- The fields of an mx.gemm body and its operand record (R359, R360). -/
def gemmOf (b r : Bytes) (w : Int) : Gemm :=
  let fl := atLe b 0x17 1
  { mode := atLe b 0x13 1, afmt := atLe b 0x10 1, bfmt := atLe b 0x11 1, ofmt := atLe b 0x12 1, w := w,
    m := atLe b 0x18 4, n := atLe b 0x1C 4, k := atLe b 0x20 4, tb := bitsOf fl 0 1 == 1, accIn := bitsOf fl 1 1 == 1,
    sq := bitsOf fl 2 1 == 1, a := atLe r 0 8, sa := atLe r 8 8, b := atLe r 0x10 8, sb := atLe r 0x18 8,
    c := atLe r 0x20 8, lda := atLe r 0x28 4, ldsa := atLe r 0x2C 4, ldb := atLe r 0x30 4, ldsb := atLe r 0x34 4,
    ldc := atLe r 0x38 4 }

/-- A flag of an mx.gemm body. -/
def gemmFlag (b : Bytes) (i : Nat) : Bool := bitsOf (atLe b 0x17 1) i 1 == 1

/-- The plane a descriptor names. -/
def Cluster.plane (k : Cluster) (i : Nat) : Option Plane := if i = 0 then k.plane0 else k.plane1
/-- Write a plane. -/
def Cluster.setPlane (k : Cluster) (i : Nat) (p : Option Plane) : Cluster :=
  if i = 0 then { k with plane0 := p } else { k with plane1 := p }

/-- A resident plane cannot serve a GEMM (R370, R371). -/
def planeBad (p : Option Plane) (g : Gemm) : Bool :=
  match p with
  | none => true
  | some p =>
    let fits := if g.tb then decide (g.k ≤ p.cols) && decide (g.n ≤ p.rows) else decide (g.k ≤ p.rows) && decide (g.n ≤ p.cols)
    p.fmt != g.bfmt || !fits || (g.tb && isMx g.bfmt && !p.sq)

/-- K or N is beyond a plane's capacity (R364). -/
def residentShape (g : Gemm) : Bool :=
  let kp := planeDepth g.bfmt
  if g.tb then decide (128 < g.k) || decide (kp < g.n) else decide (kp < g.k) || decide (128 < g.n)

/-- Held accumulators and a descriptor's HOLD and CONT disagree (R365, R366). -/
def holdBad (held : Option Held) (g : Gemm) (hold cont : Bool) : Bool :=
  (g.mode == 4 && (hold || cont)) ||
    (hold && decide ((if g.mode = 2 then 256 else 1024) < g.m * ceilDiv g.n 128)) ||
    (match held with
    | none => cont
    | some h => !cont || h.mode != g.mode || h.w != g.w || h.m != g.m || h.n != g.n)

/-- The fields of the operand record that a GEMM does not use are not 0 (R360): under HOLD the output is used only to start the sums
(R348, R365). -/
def recordBad (g : Gemm) (r : Bytes) (resident hold cont : Bool) : Bool :=
  let noOut := hold && !(g.accIn && !cont)
  let mxa := isMx g.afmt
  let mxb := isMx g.bfmt && !resident
  (!(mxa || g.mode == 4) && g.sa != 0) || (!mxa && g.ldsa != 0) || (resident && (g.b != 0 || g.ldb != 0)) ||
    (!(mxb || g.mode == 4) && g.sb != 0) || (!mxb && g.ldsb != 0) || (noOut && (g.c != 0 || g.ldc != 0)) ||
    !zeroAt r 0x3C 4

/-- Every check of an mx.gemm before its work, the least subcode first (R404, R405). -/
def gemmErr (k : Cluster) (b : Bytes) (opr : Except RdErr Bytes) (win : Except RdErr Int) : Option SubErr :=
  let r := match opr with | .ok r => r | .error _ => []
  let g := gemmOf b r (match win with | .ok w => w | .error _ => 0)
  let resident := gemmFlag b 3
  let hold := gemmFlag b 5
  let cont := gemmFlag b 6
  let wsrc := atLe b 0x16 1
  let woff := atLe b 0x28 4
  leastErr ([(1, !legalMode g.mode g.afmt g.bfmt g.ofmt || winBad g.mode (atLe b 0x14 2) wsrc woff, 0),
    (2, mnkBad g.m g.n g.k || kBad g.afmt g.bfmt g.mode g.k (hold || cont) || (resident && residentShape g), 0),
    alignErr 3 64 [atLe b 0x24 4], alignErr 3 2 (if wsrc = 2 then [woff] else []),
    alignErr 3 16 [g.a, g.sa, g.b, g.sb, g.c, g.lda, g.ldsa, g.ldb, g.ldsb, g.ldc]] ++
    rdChecks opr ++ rdChecks win ++
    [(6, if resident then planeBad (k.plane (gemmFlag b 4).toNat) g else g.tb && isMx g.bfmt && !g.sq, 0),
    (7, holdBad k.held g hold cont, 0),
    (8, gemmFlag b 7 || !zeroAt b 0x2C 20 || recordBad g r resident hold cont, 0)])

/-- Every check of an mx.load (R362, R404). -/
def loadErr (b : Bytes) : Option SubErr :=
  let f := atLe b 0x10 1
  let rows := atLe b 0x14 2
  let cols := atLe b 0x16 2
  leastErr [(1, !(f == 0 || f == 1 || (4 ≤ f && f ≤ 0xC)), 0),
    (2, decide (1 < atLe b 0x11 1) || rows == 0 || decide (planeDepth f < rows) || cols == 0 || decide (128 < cols), 0),
    alignErr 3 16 [atLe b 0x18 8, atLe b 0x20 8, atLe b 0x28 4, atLe b 0x2C 4],
    (8, decide (1 < atLe b 0x12 1) || !zeroAt b 0x13 1 || !zeroAt b 0x30 16 || (!isMx f && atLe b 0x20 8 != 0), 0)]

/-- Every check of an mx.drain (R363, R366, R404). -/
def drainErr (held : Option Held) (b : Bytes) : Option SubErr :=
  let o := atLe b 0x10 1
  let legal := match held with
    | none => decide (o < 0xF)
    | some h =>
      match h.mode with
      | 0 => o == 2 || o == 0 || o == 1
      | 1 => o == 0xD
      | 2 => o == 2 || o == 0 || o == 0xE
      | _ => o == 2
  leastErr [(1, !legal, 0), alignErr 3 16 [atLe b 0x18 8, atLe b 0x20 4], (7, held.isNone, 0),
    (8, !zeroAt b 0x11 7 || !zeroAt b 0x24 28, 0)]

/-- Every check of an mx.gemm.grp body (R375, R404). -/
def grpErr (held : Option Held) (b : Bytes) (win : Except RdErr Int) : Option SubErr :=
  let mode := atLe b 0x13 1
  let wsrc := atLe b 0x16 1
  let woff := atLe b 0x38 4
  let count := atLe b 0x22 2
  leastErr ([(1, mode == 4 || !legalMode mode (atLe b 0x10 1) (atLe b 0x11 1) (atLe b 0x12 1) ||
      winBad mode (atLe b 0x14 2) wsrc woff, 0),
    (2, count == 0 || decide (4096 < count), 0), alignErr 3 64 [atLe b 0x18 8], alignErr 3 2 (if wsrc = 2 then [woff] else []),
    alignErr 3 16 [atLe b 0x24 4, atLe b 0x28 4, atLe b 0x2C 4, atLe b 0x30 4, atLe b 0x34 4]] ++ rdChecks win ++
    [(7, held.isSome, 0), (8, !zeroAt b 0x17 1 || !zeroAt b 0x3C 4, 0)])

/-- The GEMM of a group table entry (R376, R377). -/
def entryGemm (b e : Bytes) (w : Int) : Gemm :=
  let fl := atLe e 0xC 4
  { mode := atLe b 0x13 1, afmt := atLe b 0x10 1, bfmt := atLe b 0x11 1, ofmt := atLe b 0x12 1, w := w,
    m := atLe e 0 4, n := atLe e 4 4, k := atLe e 8 4, tb := bitsOf fl 0 1 == 1, accIn := bitsOf fl 1 1 == 1,
    sq := bitsOf fl 2 1 == 1, a := atLe e 0x10 8, sa := atLe e 0x18 8, b := atLe e 0x20 8, sb := atLe e 0x28 8,
    c := atLe e 0x30 8, lda := atLe b 0x24 4, ldsa := atLe b 0x28 4, ldb := atLe b 0x2C 4, ldsb := atLe b 0x30 4,
    ldc := atLe b 0x34 4 }

/-- Every check of a group table entry (R364, R371, R376, R380, R404). -/
def entryErr (g : Gemm) (e : Bytes) : Option SubErr :=
  let fl := atLe e 0xC 4
  let sub := bitsOf fl 4 2
  let kp := planeDepth g.bfmt
  leastErr [(1, sub == 3, 0),
    (2, mnkBad g.m g.n g.k || kBad g.afmt g.bfmt g.mode g.k false ||
      (sub == 1 && (decide (64 < g.n) || decide (kp / 2 < g.k))) || (sub == 2 && (decide (32 < g.n) || decide (kp / 4 < g.k))), 0),
    alignErr 3 16 [g.a, g.sa, g.b, g.sb, g.c], (6, g.tb && isMx g.bfmt && !g.sq, 0),
    (8, bitsOf fl 3 1 != 0 || bitsOf fl 6 26 != 0 || (!isMx g.afmt && g.sa != 0) || (!isMx g.bfmt && g.sb != 0) ||
      !zeroAt e 0x38 8, 0)]

/-! ### Work -/

/-- OIS events of a descriptor (R353, R702): the running count and the operation's flag. -/
def Dev.mxOis (d : Dev) (q : Desc) (n : Nat) : Dev :=
  if n = 0 then d else (d.bump (Reg.MXA_CTX_SAT q.cl q.ctx) n).markSat q.ctx q.cl q.pc

/-- The saturated elements of a drain (R350, R353). -/
def Dev.mxSat (d : Dev) (q : Desc) (mode n : Nat) : Dev :=
  if mode = 2 then d.mxOis q n else d.bump (Reg.MXA_CTX_SAT q.cl q.ctx + 4) n

/-- A FLOAT or FP32X3 reduction breaches OIS completeness (R703). -/
def Dev.mxBreach (d : Dev) (q : Desc) (mode : Nat) : Dev :=
  if mode = 0 || mode = 3 then d.markBreach q.ctx q.cl q.pc else d

/-- Read the ranges of an operand for the array. -/
def Dev.mxRows (d : Dev) (x : Nat) (rs : List (Nat × Nat)) : Except SubErr (List Bytes) :=
  match d.rows x rs with
  | .ok l => .ok l
  | .error e => .error (e.sub 4 5)

/-- The accumulators of a GEMM with the reads it makes; start values from cont, the held accumulators, in place of ACC_IN
(R365). pl is the resident plane, which takes the place of B. -/
def Dev.gemmSum (d : Dev) (x : Nat) (g : Gemm) (pl : Option Plane) (cont : Option Held) :
    Except SubErr (List (List (AccV × Nat))) := do
  let a ← d.mxRows x g.aRows
  let sa ← d.mxRows x g.aScales
  let b ← match pl with | some p => .ok p.data | none => d.mxRows x g.bRows
  let sb ← match pl with | some p => .ok p.scales | none => d.mxRows x g.bScales
  let c ← if g.accIn && cont.isNone then d.mxRows x g.cRows else .ok []
  let sq := match pl with | some p => p.sq | none => g.sq
  let start := fun m n =>
    match cont with
    | some h => ((h.accs.getD m []).getD n .nan, 0)
    | none => accStart g.mode g.ofmt g.w (g.old c m n)
  .ok (g.accs (g.valA a sa) (fun k n => some (storedB g.bfmt g.tb sq b sb k n)) start)

/-- The ranges a GEMM reads, for the hub cache. -/
def Gemm.reads (g : Gemm) (resident cont : Bool) : List (Nat × Nat) :=
  g.aRows ++ g.aScales ++ (if resident then [] else g.bRows ++ g.bScales) ++ (if g.accIn && !cont then g.cRows else [])

/-- Drain accumulators to memory (R348, R350, R351); the address that cannot be written, if any. -/
def Dev.mxDrain (d : Dev) (q : Desc) (mode ofmt c ldc : Nat) (w : Int) (accs : List (List AccV)) : Dev × Option Nat :=
  let o := drainRows c ldc ofmt w accs
  let r := d.writeRows q.ctx o.1
  (r.1.mxSat q mode o.2, r.2)

/-- An FP64L7 GEMM (R390 to R395): the workspaces and the outputs. -/
def Dev.gemm64 (d : Dev) (q : Desc) (g : Gemm) : Dev × Option SubErr :=
  let reads : Except SubErr (List Bytes × List Bytes × List Bytes) := do
    let a ← d.mxRows q.ctx g.aRows
    let b ← d.mxRows q.ctx g.bRows
    let c ← if g.accIn then d.mxRows q.ctx g.cRows else .ok []
    .ok (a, b, c)
  match reads with
  | .error e => (d, some e)
  | .ok (a, b, c) =>
    let xs := limbsOf ((upFrom 0 g.m).map fun m => (upFrom 0 g.k).map fun k => g.valA a [] m k)
    let ys := limbsOf ((upFrom 0 g.n).map fun n => (upFrom 0 g.k).map fun k => storedB 3 g.tb false b [] k n)
    let d := d.touchRows q.ctx (g.reads false false)
    let wa := limbWork g.sa g.k xs d
    let wb := limbWork g.sb g.k ys wa.2
    let outs := xs.mapIdx fun m x =>
      (g.c + m * g.ldc, packElems 3 (ys.mapIdx fun n y => limbOut x y (g.old c m n)))
    let r := wb.2.writeRows q.ctx (wa.1 ++ wb.1 ++ outs)
    (r.1, r.2.map fun a => ⟨4, a⟩)

/-- A GEMM performed to its output, in any mode, without HOLD. -/
def Dev.gemmOut (d : Dev) (q : Desc) (g : Gemm) (pl : Option Plane) (cont : Option Held) : Dev × Option SubErr :=
  if g.mode = 4 then d.gemm64 q g
  else
    match d.gemmSum q.ctx g pl cont with
    | .error e => (d, some e)
    | .ok accs =>
      let d := (d.touchRows q.ctx (g.reads pl.isSome cont.isSome)).mxBreach q g.mode
      let d := d.mxOis q (if g.mode = 2 then accEvents accs else 0)
      let r := d.mxDrain q g.mode g.ofmt g.c g.ldc g.w (accVals accs)
      (r.1, r.2.map fun a => ⟨4, a⟩)

/-- mx.gemm performed (R359 to R371). -/
def Dev.runGemm (d : Dev) (j : Job) : Dev × Option SubErr :=
  let q := j.desc
  let b := q.bytes
  let g := gemmOf b j.opr j.w
  let k := d.clu q.cl
  let pl := if gemmFlag b 3 then k.plane (gemmFlag b 4).toNat else none
  let cont := if gemmFlag b 6 then k.held else none
  if gemmFlag b 5 then
    match d.gemmSum q.ctx g pl cont with
    | .error e => (d, some e)
    | .ok accs =>
      let d := (d.touchRows q.ctx (g.reads pl.isSome cont.isSome)).mxBreach q g.mode
      let d := d.mxOis q (if g.mode = 2 then accEvents accs else 0)
      let h : Held := { mode := g.mode, w := g.w, m := g.m, n := g.n, accs := accVals accs, pc := q.pc, ea := q.ea }
      (d.modClu q.cl fun k => { k with held := some h }, none)
  else
    let r := d.gemmOut q g pl cont
    (r.1.modClu q.cl fun k => { k with held := none }, r.2)

/-- mx.load performed (R362, R369). -/
def Dev.runLoad (d : Dev) (q : Desc) : Dev × Option SubErr :=
  let b := q.bytes
  let f := atLe b 0x10 1
  let rows := atLe b 0x14 2
  let cols := atLe b 0x16 2
  let sq := bitsOf (atLe b 0x12 1) 0 1 == 1
  let data := strided (atLe b 0x18 8) (atLe b 0x28 4) cols (elemBytes f rows)
  let scales :=
    if isMx f then strided (atLe b 0x20 8) (atLe b 0x2C 4) (if sq then ceilDiv cols 32 else cols) (ceilDiv rows 32) else []
  let reads : Except SubErr (List Bytes × List Bytes) := do
    let x ← d.mxRows q.ctx data
    let s ← d.mxRows q.ctx scales
    .ok (x, s)
  match reads with
  | .error e => (d, some e)
  | .ok (x, s) =>
    let p : Plane := { fmt := f, rows := rows, cols := cols, sq := sq, data := x, scales := s }
    ((d.touchRows q.ctx (data ++ scales)).modClu q.cl fun k => k.setPlane (atLe b 0x11 1) (some p), none)

/-- mx.drain performed: the held accumulators are written and released (R363). -/
def Dev.runDrain (d : Dev) (q : Desc) : Dev × Option SubErr :=
  match (d.clu q.cl).held with
  | none => (d, some ⟨7, 0⟩)
  | some h =>
    let b := q.bytes
    let r := d.mxDrain q h.mode (atLe b 0x10 1) (atLe b 0x18 8) (atLe b 0x20 4) h.w h.accs
    (r.1.modClu q.cl fun k => { k with held := none }, r.2.map fun a => ⟨4, a⟩)

/-- The output ranges of the entries of a walk that translate (R406). -/
def Dev.grpOuts (d : Dev) (q : Desc) (ixs : List Nat) : List (Nat × Nat) :=
  ixs.flatMap fun i =>
    match d.vread q.ctx (atLe q.bytes 0x18 8 + 64 * i) 64 with
    | .ok e =>
      let g := entryGemm q.bytes e 0
      if g.m = 0 || (entryErr g e).isSome then [] else d.outRanges q.ctx g.cRows
    | _ => []

/-- What a walk reads of an entry (R378): its M, and the rest only where that is not 0. -/
def Dev.entryRead (d : Dev) (q : Desc) (i : Nat) : Except SubErr Bytes × Dev :=
  let a := atLe q.bytes 0x18 8 + 64 * i
  match d.mxRows q.ctx [(a, 4)] with
  | .error e => (.error e, d)
  | .ok m =>
    if atLe (m.headD []) 0 4 = 0 then (.ok (m.headD []), d.touchRows q.ctx [(a, 4)])
    else ((d.mxRows q.ctx [(a, 64)]).map fun l => l.headD [], d.touchRows q.ctx [(a, 64)])

/-- The entries of a walk in ascending order (R377 to R379): the state, and the entry and fault it stops at. -/
def Dev.walk (d : Dev) (q : Desc) (w : Int) : List Nat → Dev × Option (Nat × SubErr)
  | [] => (d, none)
  | i :: t =>
    match d.entryRead q i with
    | (.error e, d) => (d, some (i, e))
    | (.ok e, d) =>
      let g := entryGemm q.bytes e w
      if g.m = 0 then d.walk q w t
      else
        match entryErr g e with
        | some f => (d, some (i, f))
        | none =>
          let r := d.gemmOut q g none none
          match r.2 with
          | some f => (r.1, some (i, f))
          | none => r.1.walk q w t

/-- The indices of a walk. -/
def grpIndices (b : Bytes) : List Nat := upFrom (atLe b 0x20 2) (atLe b 0x22 2)

end Sys2Proof.Machine
end

