-- ==== Sys2Proof/Machine/Sparse.lean ====
section
/-!
DEFINITION. mx.gemm.sp (R411 to R456): tile metadata and present positions, coordinate lists, the hash accumulator and its
drains. The path a tile takes decides timing only (R413), so the model has one way of computing it.
-/

namespace Sys2Proof.Machine

/-- The body fields that mx.gemm.sp adds to those of mx.gemm (R414). -/
structure SpBody where
  sform : Nat
  hbank : Nat
  ovfLog2 : Nat
  nnz : Nat
  ovf : Nat
  scatter : Bool
  path : Nat
  deriving DecidableEq, Repr

/-- Read those fields. -/
def spOf (b : Bytes) : SpBody :=
  { sform := atLe b 0x2C 1, hbank := atLe b 0x2D 1, ovfLog2 := atLe b 0x2E 1, nnz := atLe b 0x30 4, ovf := atLe b 0x38 8,
    scatter := gemmFlag b 3, path := bitsOf (atLe b 0x17 1) 4 2 }

/-- A drain form. -/
def SpBody.drain (s : SpBody) : Bool := 2 ≤ s.sform

/-- Form, mode and formats combine as R416 allows. -/
def spLegal (s : SpBody) (g : Gemm) : Bool :=
  match s.sform with
  | 0 =>
    if s.scatter then g.mode == 2 && floatPair g.afmt g.bfmt && !g.accIn && decide (g.ofmt ≤ 0xE)
    else g.mode ≤ 2 && legalMode g.mode g.afmt g.bfmt g.ofmt
  | 1 =>
    s.scatter && g.mode == 2 && decide (g.ofmt ≤ 0xE) && floatPair g.afmt g.bfmt && decide (g.afmt ≤ 5)
  | 2 | 3 =>
    !s.scatter && g.mode == 2 && g.afmt == 0 && g.bfmt == 0 && (g.ofmt == 2 || g.ofmt == 0 || g.ofmt == 0xE)
  | _ => false

/-- Fields of the operand record that a form does not use are not 0 (R415). -/
def spRecordBad (s : SpBody) (g : Gemm) (r : Bytes) : Bool :=
  let noA := g.a != 0 || g.lda != 0
  let noAS := g.sa != 0 || g.ldsa != 0
  let noB := g.b != 0 || g.ldb != 0
  let noBS := g.sb != 0 || g.ldsb != 0
  let noC := g.c != 0 || g.ldc != 0
  (match s.sform with
  | 0 => (!isMx g.afmt && noAS) || g.ldb != 0 || (!isMx g.bfmt && noBS) || (s.scatter && noC)
  | 1 => g.lda != 0 || noAS || noBS || noC
  | 2 => noA || noAS || noB || noBS
  | _ => noA || noAS || noB || noBS || g.ldc != 0) || !zeroAt r 0x3C 4

/-- The accumulator and a descriptor disagree, or a drain finds it closed (R436). -/
def haccBad (h : Option Hacc) (s : SpBody) (g : Gemm) : Bool :=
  match h with
  | none => s.drain
  | some h =>
    (s.scatter || s.drain) && (h.bank != s.hbank || h.ovfLog2 != s.ovfLog2 || h.ovf != s.ovf || h.m != g.m || h.n != g.n ||
      (s.scatter && h.w != g.w))

/-- Every check of an mx.gemm.sp before its work (R404, R405, R414 to R418, R434 to R438, R454). -/
def spErr (k : Cluster) (b : Bytes) (opr : Except RdErr Bytes) (win : Except RdErr Int) : Option SubErr :=
  let r := match opr with | .ok r => r | .error _ => []
  let g := gemmOf b r (match win with | .ok w => w | .error _ => 0)
  let s := spOf b
  let acc := s.scatter || s.drain
  let wsrc := atLe b 0x16 1
  let woff := atLe b 0x28 4
  leastErr ([(1, !spLegal s g || s.path == 3 || winBad g.mode (atLe b 0x14 2) wsrc woff ||
      (s.drain && (atLe b 0x14 2 != 0 || wsrc != 0)) || decide (7 ≤ s.hbank), 0),
    (2, g.m == 0 || decide (2 ^ 24 ≤ g.m) || g.n == 0 || decide (65536 < g.n) ||
      (if s.drain then g.k != 0 else g.k == 0 || decide (1048576 < g.k)) ||
      (s.scatter && decide (0xFFFFFFFF < g.m * g.n)) ||
      (s.ovfLog2 != 0 && (decide (s.ovfLog2 < 12) || decide (26 < s.ovfLog2))) ||
      (s.sform == 1 && (s.nnz == 0 || decide (2 ^ 24 ≤ s.nnz))) ||
      (s.sform == 3 && (s.nnz == 0 || decide (2 ^ 26 < s.nnz))), 0),
    alignErr 3 64 [atLe b 0x24 4, s.ovf], alignErr 3 2 (if wsrc = 2 then [woff] else []),
    alignErr 3 16 [g.a, g.sa, g.b, g.sb, g.c, g.lda, g.ldsa, g.ldb, g.ldsb, g.ldc]] ++
    rdChecks opr ++ rdChecks win ++
    [(6, s.sform == 0 && g.tb && isMx g.bfmt && !g.sq, 0), (7, k.held.isSome, 0),
    (8, bitsOf (atLe b 0x17 1) 6 2 != 0 || !zeroAt b 0x2F 1 || !zeroAt b 0x34 4 || (s.ovfLog2 == 0 && s.ovf != 0) ||
      (!acc && (s.hbank != 0 || s.ovfLog2 != 0)) || (s.sform != 1 && s.sform != 3 && s.nnz != 0) || spRecordBad s g r, 0),
    (0xB, haccBad k.hacc s g, 0)])

/-! ### Tiles (R419 to R423) -/

/-- A tile: its form, present blocks and data. -/
structure SpTile where
  form : Nat
  blocks : Nat
  data : Bytes
  deriving DecidableEq, Repr

/-- Bytes of a tile's data (R421); e is the element size in bits. -/
def tileBytes (form blocks e : Nat) : Nat :=
  match form with
  | 0 => 2048 * e
  | 1 => 1024 * e + 2048
  | 2 => popCount 16 blocks * 128 * e
  | _ => 0

/-- The mask row of an S24 tile (R422). -/
def maskRow (t : SpTile) (e r : Nat) : Nat := atLe t.data (1024 * e + 16 * r) 16

/-- The bits of the element at row r, column c of a tile, or none where it is absent (R421, R422). -/
def SpTile.at_ (t : SpTile) (f r c : Nat) : Option Nat :=
  let e := elemBits f
  match t.form with
  | 0 => some (elemOf f (t.data.drop (r * 16 * e)) c)
  | 1 =>
    let m := maskRow t e r
    if bitsOf m c 1 = 1 then some (elemOf f (t.data.drop (r * 8 * e)) (popCount c m)) else none
  | 2 =>
    let b := r / 32 * 4 + c / 32
    if bitsOf t.blocks b 1 = 1 then
      some (elemOf f (t.data.drop (popCount b t.blocks * 128 * e)) (r % 32 * 32 + c % 32))
    else none
  | _ => none

/-- Every nibble of an S24 mask has two bits (R428). -/
def nibblesOk (t : SpTile) (e : Nat) : Bool :=
  (upFrom 0 128).all fun r => (upFrom 0 32).all fun g => popCount 4 (bitsOf (maskRow t e r) (4 * g) 4) == 2

/-- Every column of every aligned 4 × 4 block of an S24 mask has two present positions (R427). -/
def transposable (t : SpTile) (e : Nat) : Bool :=
  (upFrom 0 32).all fun rb => (upFrom 0 128).all fun c =>
    (upFrom 0 4).foldl (fun v i => v + bitsOf (maskRow t e (4 * rb + i)) c 1) 0 == 2

/-- A tile's metadata breaks R420, R455 or R421's alignment. -/
def tileErr (m : Bytes) : Option SubErr :=
  let form := bitsOf (atLe m 0 8) 0 4
  let blocks := bitsOf (atLe m 0 8) 16 16
  leastErr [alignErr 3 16 [atLe m 8 8],
    (8, decide (3 < form) || bitsOf (atLe m 0 8) 4 12 != 0 || bitsOf (atLe m 0 8) 32 32 != 0 || (form != 2 && blocks != 0) ||
      (form == 3 && atLe m 8 8 != 0), 0)]

/-- Read one tile and check it (R419 to R428, R455). -/
def Dev.readTile (d : Dev) (x : Nat) (g : Gemm) (addr : Nat) : Except SubErr SpTile := do
  let m := (← d.mxRows x [(addr, 16)]).headD []
  match tileErr m with
  | some e => .error e
  | none => .ok ()
  let form := bitsOf (atLe m 0 8) 0 4
  let blocks := bitsOf (atLe m 0 8) 16 16
  let e := elemBits g.bfmt
  let data := (← d.mxRows x [(atLe m 8 8, tileBytes form blocks e)]).headD []
  let t : SpTile := { form := form, blocks := blocks, data := data }
  if form = 1 && (!nibblesOk t e || (g.tb && !transposable t e)) then .error ⟨9, 0⟩ else .ok t

/-- Read tiles in order. -/
def Dev.readTiles (d : Dev) (x : Nat) (g : Gemm) : List Nat → Except SubErr (List SpTile)
  | [] => .ok []
  | a :: t => do
    let h ← d.readTile x g a
    let r ← d.readTiles x g t
    .ok (h :: r)

/-- Tiles along j of the stored B. -/
def Gemm.tj (g : Gemm) : Nat := ceilDiv g.stored.2 128

/-- Metadata addresses of every tile. -/
def Gemm.tileAddrs (g : Gemm) : List Nat := (upFrom 0 (ceilDiv g.stored.1 128 * g.tj)).map fun i => g.b + 16 * i

/-- Address of the scale of stored element (i, j) (R371, R423). -/
def Gemm.scaleAddr (g : Gemm) (i j : Nat) : Nat := g.sb + (if g.sq then i / 32 else i) * g.ldsb + j / 32

/-- The stored element (i, j), absent positions none. -/
def tileBits (g : Gemm) (ts : List SpTile) (i j : Nat) : Option Nat :=
  match ts[i / 128 * g.tj + j / 128]? with
  | some t => t.at_ g.bfmt (i % 128) (j % 128)
  | none => none

/-- Addresses of the scales that present positions need (R423): those of EMPTY tiles and absent blocks are not read. -/
def Gemm.scaleReads (g : Gemm) (ts : List SpTile) : List (Nat × Nat) :=
  if !isMx g.bfmt then []
  else
    (upFrom 0 g.stored.1).flatMap fun i => (upFrom 0 (ceilDiv g.stored.2 32)).filterMap fun jb =>
      match ts[i / 128 * g.tj + jb / 4]? with
      | some t =>
        if t.form = 3 || (t.form = 2 && bitsOf t.blocks (i % 128 / 32 * 4 + jb % 4) 1 = 0) then none
        else some (g.scaleAddr i (32 * jb), 1)
      | none => none

/-- val_b (k, n) of a tiled operand, none where absent (R411). -/
def Dev.tileVal (d : Dev) (x : Nat) (g : Gemm) (ts : List SpTile) (k n : Nat) : Option FVal :=
  let i := if g.tb then k else n
  let j := if g.tb then n else k
  (tileBits g ts i j).map fun b =>
    if isMx g.bfmt then
      mxVal g.bfmt b (match d.vread x (g.scaleAddr i j) 1 with | .ok bs => leNat bs | _ => 0xFF)
    else elemVal g.bfmt b

/-! ### The hash accumulator -/

/-- Keys the bank holds at most (R439). -/
def bankLimit : Nat := 57344
/-- Keys the overflow table holds at most (R442). -/
def ovfLimit (n : Nat) : Nat := if n = 0 then 0 else 7 * 2 ^ n / 8

/-- One addend applied to its key, modulo 2^96 (R439, R440). -/
def Hacc.add (h : Hacc) (key : Nat) (a : Int) : Hacc :=
  let v := (mapFind h.keys key).getD 0
  { h with keys := mapPut h.keys key (some (toSigned 96 (wrapTo 96 (v + a)))) }

/-- One product scattered to a key: the accumulator and the events (R432, R441). -/
def Hacc.scatter (w : Int) (acc : Hacc × Nat) (e : Nat × FVal) : Hacc × Nat :=
  match oisOf e.2 w with
  | none => (acc.1.add e.1 0, acc.2 + 1)
  | some (n, s) => (acc.1.add e.1 n, acc.2 + s.toNat)

/-- Where the overflow table is accessed but does not translate to HBM in one segment that permits reads and writes, the address of
the ADDR fault (R443). -/
def Dev.ovfErr (d : Dev) (x ovfLog2 ovf : Nat) : Option Nat :=
  let n := 16 * 2 ^ ovfLog2
  if ovfLog2 = 0 then none
  else
    match d.translate x .la ovf n with
    | .error r => some (located r.1 r.2)
    | .ok ps =>
      if !(d.segs x).any fun g => decide (g.vbase ≤ ovf) && decide (ovf + n ≤ g.vbase + g.size) then some (located 1 ovf)
      else if ps.all fun p => inHbm p.pa p.len && p.page.isNone then none
      else some (located 4 ovf)

/-- Scatter products into the open accumulator (R439, R442, R443): new keys beyond the bank go to the overflow table. -/
def Dev.scatterAll (d : Dev) (q : Desc) (g : Gemm) (ps : List (Nat × FVal)) : Dev × Option SubErr :=
  match (d.clu q.cl).hacc with
  | none => (d, some ⟨0xB, 0⟩)
  | some h =>
    let r := ps.foldl (Hacc.scatter g.w) (h, 0)
    let n := r.1.keys.length
    let d := (d.modClu q.cl fun k => { k with hacc := some r.1 }).mxOis q r.2
    if n ≤ bankLimit then (d, none)
    else
      match d.ovfErr q.ctx h.ovfLog2 h.ovf with
      | some a => (d, some ⟨4, a⟩)
      | none => if bankLimit + ovfLimit h.ovfLog2 < n then (d, some ⟨0xC, 0⟩) else (d, none)

/-- n empty entries: the key 0xFFFF_FFFF; an empty entry's value bytes are free values. -/
def emptyEntries : Nat → Dev → Bytes × Dev
  | 0, d => ([], d)
  | n + 1, d =>
    let f := d.freshBytes 12
    let r := emptyEntries n f.2
    (List.replicate 4 0xFF ++ f.1 ++ r.1, r.2)

/-- Fill the bank with empty entries (R435, R450, R456). -/
def Dev.fillBank (d : Dev) (c bank : Nat) : Dev :=
  let f := emptyEntries 65536 d
  f.2.write (spadAddr c (bank * 0x100000)) f.1

/-- Fill the overflow table with empty entries; its writes carry no tag (R443, R450). -/
def Dev.fillOvf (d : Dev) (x : Nat) (h : Hacc) : Dev :=
  if h.ovfLog2 = 0 then d
  else
    match d.translate x .w h.ovf (16 * 2 ^ h.ovfLog2) with
    | .ok ps => let f := emptyEntries (2 ^ h.ovfLog2) d; (f.2.writePieces x ps f.1).hcPieces x ps false
    | .error _ => d

/-- The overflow table of an accumulator closed by a teardown holds free values (R456). -/
def Dev.loseOvf (d : Dev) (x : Nat) (h : Hacc) : Dev :=
  if h.ovfLog2 = 0 then d
  else
    match d.translate x .w h.ovf (16 * 2 ^ h.ovfLog2) with
    | .ok ps => let f := d.freshBytes (16 * 2 ^ h.ovfLog2); f.2.writePieces x ps f.1
    | .error _ => d

/-- Close the accumulator after a drain (R450), and count its spilled keys (R458). The fill is an access of the overflow table, which may
be its first. DESIGN CHOICE (log entry 129): where that faults, the outputs stand written and the accumulator stays open (R443). -/
def Dev.closeHacc (d : Dev) (q : Desc) (h : Hacc) : Dev × Option SubErr :=
  match d.ovfErr q.ctx h.ovfLog2 h.ovf with
  | some a => (d, some ⟨4, a⟩)
  | none =>
    let d := d.bump (Reg.MXA_CTX_SPILL q.cl q.ctx) (h.keys.length - bankLimit)
    let d := d.modClu q.cl fun k => { k with hacc := none }
    ((d.fillBank q.cl h.bank).fillOvf q.ctx h, none)

/-! ### The forms -/

/-- The scattered products of a tiled form: every present product with its key (R434, R439). -/
def Gemm.keyed (g : Gemm) (valA : Nat → Nat → FVal) (valB : Nat → Nat → Option FVal) : List (Nat × FVal) :=
  (upFrom 0 g.m).flatMap fun m => (upFrom 0 g.n).flatMap fun n => (upFrom 0 g.k).filterMap fun k =>
    (valB k n).map fun b => (m * g.n + n, (valA m k).mul b)

/-- What TILED reads: A, its scales, the tiles, their scales, and the output under ACC_IN. -/
def Dev.tiledReads (d : Dev) (x : Nat) (g : Gemm) (scatter : Bool) :
    Except SubErr (List Bytes × List Bytes × List SpTile × List Bytes) := do
  let a ← d.mxRows x g.aRows
  let sa ← d.mxRows x g.aScales
  let ts ← d.readTiles x g g.tileAddrs
  let _ ← d.mxRows x (g.scaleReads ts)
  let c ← if g.accIn && !scatter then d.mxRows x g.cRows else .ok []
  .ok (a, sa, ts, c)

/-- The metadata and the data of the tiles, for the hub cache (R518). -/
def Dev.tileRanges (d : Dev) (x : Nat) (g : Gemm) : List (Nat × Nat) :=
  g.tileAddrs.flatMap fun a =>
    match d.vread x a 16 with
    | .ok m => [(a, 16), (atLe m 8 8, tileBytes (bitsOf (atLe m 0 8) 0 4) (bitsOf (atLe m 0 8) 16 16) (elemBits g.bfmt))]
    | _ => []

/-- TILED (R419 to R428). -/
def Dev.runTiled (d : Dev) (q : Desc) (g : Gemm) (scatter : Bool) : Dev × Option SubErr :=
  match d.tiledReads q.ctx g scatter with
  | .error e => (d, some e)
  | .ok (a, sa, ts, c) =>
    let valB := d.tileVal q.ctx g ts
    let reads := g.aRows ++ g.aScales ++ d.tileRanges q.ctx g ++ g.scaleReads ts ++ (if g.accIn && !scatter then g.cRows else [])
    if scatter then (d.touchRows q.ctx reads).scatterAll q g (g.keyed (g.valA a sa) valB)
    else
      let accs := g.accs (g.valA a sa) valB fun m n => accStart g.mode g.ofmt g.w (g.old c m n)
      let d := (d.touchRows q.ctx reads).mxBreach q g.mode
      let d := d.mxOis q (if g.mode = 2 then accEvents accs else 0)
      let r := d.mxDrain q g.mode g.ofmt g.c g.ldc g.w (accVals accs)
      (r.1, r.2.map fun a => ⟨4, a⟩)

/-- A coordinate list entry breaks R433. -/
def coordBad (g : Gemm) (e : Nat) : Bool :=
  decide (g.m ≤ bitsOf e 0 24) || decide (g.k ≤ bitsOf e 24 20) || bitsOf e 60 4 != 0 ||
    (elemBits g.afmt == 8 && bitsOf e 52 8 != 0)

/-- COORD (R430 to R433). -/
def Dev.runCoord (d : Dev) (q : Desc) (g : Gemm) (nnz : Nat) : Dev × Option SubErr :=
  let reads : Except SubErr (List Bytes × List Bytes) := do
    let l ← d.mxRows q.ctx [(g.a, 8 * nnz)]
    let b ← d.mxRows q.ctx g.bRows
    .ok (l, b)
  match reads with
  | .error e => (d, some e)
  | .ok (l, b) =>
    let es := (upFrom 0 nnz).map fun i => atLe (l.headD []) (8 * i) 8
    if es.any (coordBad g) then (d, some ⟨0xA, 0⟩)
    else
      let ps := es.flatMap fun e => (upFrom 0 g.n).map fun n =>
        (bitsOf e 0 24 * g.n + n,
          (elemVal g.afmt (bitsOf e 44 16)).mul (storedB g.bfmt g.tb g.sq b [] (bitsOf e 24 20) n))
      (d.touchRows q.ctx ((g.a, 8 * nnz) :: g.bRows)).scatterAll q g ps

/-- The element a drain writes for a final value v (R447, R448): its bits and its events. -/
def drainElem (g : Gemm) (w v : Int) (old : Option Nat) : Nat × Nat :=
  match old with
  | some b =>
    match accStart 2 g.ofmt w (some b) with
    | (.num s, e) => let o := accOut g.ofmt w (.num (v + s)); (o.1, e + o.2.toNat)
    | (a, e) => ((accOut g.ofmt w a).1, e)
  | none =>
    if g.ofmt = 0xE then
      if v = -((2 ^ 95 : Nat) : Int) then (oisBits (v + 1), 1) else (oisBits v, 0)
    else (((floatFmt g.ofmt).getD fFP32).ofCount v w, 0)

/-- DRAIN_DENSE (R447 to R450). With no key ever scattered, ACC_IN leaves the outputs unchanged (R450). -/
def Dev.runDrainDense (d : Dev) (q : Desc) (g : Gemm) (h : Hacc) : Dev × Option SubErr :=
  match (if g.accIn then d.mxRows q.ctx g.cRows else .ok []) with
  | .error e => (d, some e)
  | .ok c =>
    let elem := fun m n =>
      match h.keys, g.old c m n with
      | [], some b => (b, 0)
      | _, old => drainElem g h.w ((mapFind h.keys (m * g.n + n)).getD 0) old
    let rows := (upFrom 0 g.m).map fun m => (upFrom 0 g.n).map fun n => elem m n
    let d := if g.accIn then d.touchRows q.ctx g.cRows else d
    let d := d.mxOis q (rows.foldl (fun v r => r.foldl (fun u e => u + e.2) v) 0)
    let r := d.writeRows q.ctx (rows.mapIdx fun m r => (g.c + m * g.ldc, packElems g.ofmt (r.map Prod.fst)))
    match r.2 with
    | some a => (r.1, some ⟨4, a⟩)
    | none => r.1.closeHacc q h

/-- DRAIN_LIST (R447 to R450). -/
def Dev.runDrainList (d : Dev) (q : Desc) (g : Gemm) (h : Hacc) (nnz : Nat) : Dev × Option SubErr :=
  if nnz < h.keys.length then (d, some ⟨0xD, 0⟩)
  else
    let es := h.keys.map fun e => (e.1, drainElem { g with accIn := false } h.w e.2 none)
    let d := d.mxOis q (es.foldl (fun v e => v + e.2.2) 0)
    let list := es.flatMap fun e => leBytes 4 e.1 ++ leBytes 12 e.2.1
    let r := d.writeRows q.ctx [(g.c, leBytes 64 h.keys.length), (g.c + 64, list)]
    match r.2 with
    | some a => (r.1, some ⟨4, a⟩)
    | none => r.1.closeHacc q h

/-- Open the accumulator for the first scatter descriptor, its bank filled with empty entries (R435). -/
def Dev.openHacc (d : Dev) (q : Desc) (g : Gemm) (s : SpBody) : Dev :=
  if s.scatter && (d.clu q.cl).hacc.isNone then
    let h : Hacc :=
      { bank := s.hbank, ovfLog2 := s.ovfLog2, ovf := s.ovf, m := g.m, n := g.n, w := g.w, keys := [], pc := q.pc, ea := q.ea }
    (d.fillBank q.cl s.hbank).modClu q.cl fun k => { k with hacc := some h }
  else d

/-- mx.gemm.sp performed. -/
def Dev.runSp (d : Dev) (j : Job) : Dev × Option SubErr :=
  let q := j.desc
  let g := gemmOf q.bytes j.opr j.w
  let s := spOf q.bytes
  match s.sform, (d.clu q.cl).hacc with
  | 0, _ => d.runTiled q g s.scatter
  | 1, _ => d.runCoord q g s.nnz
  | 2, some h => d.runDrainDense q g h
  | _, some h => d.runDrainList q g h s.nnz
  | _, none => (d, some ⟨0xB, 0⟩)

/-- The ranges an mx.gemm.sp may write while it runs (R406). -/
def Dev.spOuts (d : Dev) (q : Desc) (g : Gemm) : List (Nat × Nat) :=
  let s := spOf q.bytes
  if s.scatter then []
  else if s.sform = 3 then d.outRanges q.ctx [(g.c, 64 + 16 * min s.nnz ((d.clu q.cl).hacc.elim 0 fun h => h.keys.length))]
  else d.outRanges q.ctx g.cRows

end Sys2Proof.Machine
end

