-- ==== Sys2Proof/Machine/LifeCycle.lean ====
section
/-!
DEFINITION. The step life cycle (R98 to R111, R728, R729): the start agreement, waking, the step start, the watchdog, draining
and the end of a boundary; clock gating and wake entries (R134 to R137); background windows (R138 to R144).
-/

namespace Sys2Proof.Machine

/-! ### From ARMED to RUNNING -/

/-- The start agreement has given n_start (R109); it completes locally with DEVICES 1 (R680). -/
def Dev.startAgreed (d : Dev) (x : Nat) : Dev :=
  let c := d.ctx x
  let p := c.plan
  let take := fun (e : Dev) (n : Nat) => e.modCtx x fun c => { c with agreed := true, tStart := planT0 p + n * planPeriod p }
  if c.state ≠ .armed || c.agreed then d
  else if planDevices p ≤ 1 then take d c.nReady
  else
    match d.agreed x true with
    | some n => take (d.agreeEnd x true) n
    | none => d

/-- START_AGREEMENT_COMPLETE (R109). -/
def execStartAgreementComplete (x : Nat) (s : State) : Host.Outcome State Fault Refusal := s.run (·.startAgreed x)

/-- A context that is ranked for its partition's slice (R729). -/
def Dev.ranked (d : Dev) (x : Nat) : Bool := (d.ctx x).state == .armed && (d.ctx x).agreed

/-- Contexts of one partition: the whole device in SHARED mode (R728). -/
def Dev.samePart (d : Dev) (x y : Nat) : Bool := planPart (d.ctx x).plan == planPart (d.ctx y).plan

/-- The slice of a context's partition is free (R728). -/
def Dev.sliceFree (d : Dev) (x : Nat) : Bool := !allCtxs.any fun y => d.loaded y && d.samePart x y && (d.ctx y).slice

/-- Context y ranks before context x (R729): earlier T_start, INTERACTIVE, lower number. -/
def Dev.ranksBefore (d : Dev) (y x : Nat) : Bool :=
  let ty := (d.ctx y).tStart
  let tx := (d.ctx x).tStart
  let iy := planInteractive (d.ctx y).plan
  let ix := planInteractive (d.ctx x).plan
  decide (ty < tx) || (ty == tx && ((iy && !ix) || (iy == ix && decide (y < x))))

/-- The time base lets the context wake (R708). -/
def Dev.timeOk (d : Dev) (x : Nat) : Bool := 1 ≤ d.fld Reg.TRS_SYNC 0 2 || planDevices (d.ctx x).plan ≤ 1

/-- The unit assignment of a context takes effect on its groups (R227). -/
def Dev.assignUnits (d : Dev) (x : Nat) : Dev :=
  let p := (d.ctx x).plan
  (upFrom 0 16).foldl
    (fun e g => if bitsOf (planGroups p) g 1 = 1 then e.setFld Reg.DRS_GROUP_UNIT (4 * g) 4 (bitsOf (planUnits p) (4 * g) 4) else e) d

/-- The first-ranked context takes the slice and enters WAKING (R110, R729). -/
def Dev.wake (d : Dev) (x : Nat) : Dev :=
  let c := d.ctx x
  let lead := planWakeLead c.plan
  let now := d.time.toNat
  let first := !allCtxs.any fun y => y != x && d.ranked y && d.samePart x y && d.ranksBefore y x
  if d.ranked x && d.sliceFree x && first && d.timeOk x && decide (c.tStart ≤ now + lead) then
    (d.setCtx x { c with state := .waking, slice := true, tWake := now, tRun := max c.tStart (now + lead), woken := [] }).assignUnits x
  else d

/-- CONTEXT_WAKE (R729). -/
def execContextWake (x : Nat) (s : State) : Host.Outcome State Fault Refusal := s.run fun d => if x < 8 then d.wake x else d

/-- A hub fault register is copied into word k of the fault record of context x and cleared, when it holds a fault of x (R757). -/
def Dev.copyFault (d : Dev) (x k r : Nat) (own : Bool) : Dev :=
  if own && d.bit r 8 then (d.setReg (Reg.CTX_FR x k) (d.reg r)).setReg r 0 else d

/-- CLEAR at a cluster: its fault registers, and those of a Dresser unit that name it, are copied and cleared, and its engines
return to IDLE (R221, R408, R456, R462, R501). -/
def Dev.clearCluster (d : Dev) (x c : Nat) : Dev :=
  if (d.clu c).ctx ≠ x then d
  else
    let k := 0x80 + 6 * c
    let regs := [Reg.SEQ_EXC c, Reg.SEQ_EXC_INFO c, Reg.MXA_FAULT_INFO c, Reg.VEC_FAULT_INFO c]
    let d := (regs.zip (upFrom k 4)).foldl (fun e q => (e.setReg (Reg.CTX_FR x q.2) (e.reg q.1)).setReg q.1 0) d
    let d := d.setReg (Reg.CTX_FR x (k + 4)) (d.clu c).dmaFault
    let d := (upFrom 0 8).foldl
      (fun e u => e.copyFault x (8 + u) (Reg.DRS_U_FAULT u) (e.fld (Reg.DRS_U_FAULT u) 16 7 == c)) d
    let d := match (d.clu c).hacc with | some h => (d.fillBank c h.bank).loseOvf x h | none => d
    d.modClu c fun k =>
      { k with dmaFault := 0, mxFrozen := false, vxFrozen := false, plane0 := none, plane1 := none, held := none, hacc := none,
               cur := .off, act := 0, tiles := [] }

/-- A cluster whose last context is in CLEAR is cleared for it before another context's step starts there (R748, R752, log entry 105). -/
def Dev.clearBefore (d : Dev) (x c : Nat) : Dev :=
  let y := (d.clu c).ctx
  if y ≠ x && (d.ctx y).state = .frozen && (d.ctx y).phase = 4 then d.clearCluster y c else d

/-- A cluster takes the step start (R111, R146, R372, R402, R452, R462, R502). -/
def Dev.startCluster (x : Nat) (d : Dev) (e : ClusterEntry) : Dev :=
  let d := d.clearBefore x e.cl
  let r := d.seqr e.cl x
  let d := d.setSeqr e.cl x { r.setS 1 (d.ctx x).step with pc := e.entry, loops := [] }
  let d := d.modClu e.cl fun k =>
    { k with seq := .running, ctx := x, staged := [], wait := none, waitOk := false, fetch := [], tiles := [], plane0 := none,
             plane1 := none, held := none, hacc := none, cur := .off, act := 0 }
  let zero := [Reg.MXA_WIN e.cl, Reg.VEC_RMODE e.cl, Reg.VEC_WIN e.cl, Reg.VEC_SRKEY e.cl, Reg.VEC_SRIDX e.cl, Reg.VEC_CNT e.cl]
  (zero.foldl (fun e r => e.setReg r 0) d).wakeCluster e.cl

/-- The running values of a context's fingerprint slots become 0 (R717). -/
def Dev.clearSlots (d : Dev) (x : Nat) : Dev :=
  { d with run := (d.ctx x).slots.foldl (fun m s => mapPut m (Reg.FPU_SLOT s.slot) none) d.run }

/-- The registers of a context that latch a count: register, field, key of the running count. -/
def stepCounts (x : Nat) : List (Nat × Nat × Nat) :=
  [Reg.DRS_CTX_DROPS x, Reg.DRS_CTX_NANS x, Reg.DRS_CTX_ZEROSUM x, Reg.COL_CTX_SAT x, Reg.COL_CTX_XSAT x].map (fun r => (r, 0, r)) ++
  (upFrom 0 128).flatMap fun c =>
    [(Reg.MXA_CTX_SAT c x, 0, Reg.MXA_CTX_SAT c x), (Reg.MXA_CTX_SAT c x, 32, Reg.MXA_CTX_SAT c x + 4),
     (Reg.MXA_CTX_SPILL c x, 0, Reg.MXA_CTX_SPILL c x), (Reg.VEC_CTX_SAT c x, 0, Reg.VEC_CTX_SAT c x),
     (Reg.VEC_CTX_CVT c x, 0, Reg.VEC_CTX_CVT c x)]

/-- The running counts of a context become 0: those of a step that froze are latched by no step (R105, R281, R410, R502, R691). -/
def Dev.clearCounts (d : Dev) (x : Nat) : Dev :=
  { d with run := mapKeep (fun k => !(stepCounts x).any fun q => q.2.2 == k) d.run }

/-- The step starts at T_run (R110, R111). -/
def Dev.stepStart (d : Dev) (x : Nat) : Dev :=
  let c := d.ctx x
  if c.state = .waking && decide (c.tRun ≤ d.time.toNat) then
    let late := if c.tStart < c.tRun then satAdd 24 c.late 1 else c.late
    let d := d.setCtx x
      { c with state := .running, late := late, jobDrained := false, flags := 0, unmarked := false, bdone := 0, swapped := false,
               jSkip := false }
    let d := ((d.clearSlots x).clearCounts x).setFld (Reg.TIER_CTX_STATE x) 8 24 0
    let d := { d.setPref x {} with collSeq := mapKeep (fun k => k / 256 != x) d.collSeq }
    (planClusters c.plan).foldl (Dev.startCluster x) d
  else d

/-- STEP_START (R111). -/
def execStepStart (x : Nat) (s : State) : Host.Outcome State Fault Refusal := s.run fun d => if x < 8 then d.stepStart x else d

/-! ### From RUNNING to CLOSING -/

/-- No engine of the device holds work of a context, no update of it waits, and every tracker of it is free (R100). -/
def Dev.drained (d : Dev) (x : Nat) : Bool :=
  let at_ := fun (j : Option Job) => j.any fun j => j.desc.ctx == x
  !d.trks.any (fun e => e.2.kind != 0 && e.2.src != 12 && e.2.ctx == x) && !d.lwrites.any (fun w => w.ctx == x) &&
    !d.descs.any (fun q => q.ctx == x) && !d.clus.any (fun e => at_ e.2.mxNow || at_ e.2.vxNow) &&
    !d.jobs.any (fun j => j.desc.ctx == x) && !d.colls.any (fun o => o.desc.ctx == x) && !d.syncQ.any (fun q => q.ctx == x) &&
    (d.pref x).busy.isEmpty && !d.prefNext x

/-- The context moves to CLOSING; its arrays' current control leaves GAP (R397). -/
def Dev.close (d : Dev) (x : Nat) : Dev :=
  (d.modCtx x fun c => { c with state := .closing, tClose := d.time.toNat }).leaveCurrents x

/-- The local drain joins the job drain agreement, and its completion closes the step (R100, R103, R106). -/
def Dev.drainDone (d : Dev) (x : Nat) : Dev :=
  let c := d.ctx x
  if c.state ≠ .draining then d
  else if c.jobDrained then
    match d.agreed x false with
    | some _ => (d.agreeEnd x false).close x
    | none => d
  else if !d.drained x then d
  else if planDevices c.plan ≤ 1 then d.close x
  else (d.modCtx x fun c => { c with jobDrained := true }).agreeJoin x false 0

/-- DRAIN_COMPLETE (R103). -/
def execDrainComplete (x : Nat) (s : State) : Host.Outcome State Fault Refusal := s.run (·.drainDone x)

/-- The step watchdog (R102, R103): the drain condition wins. -/
def Dev.watchdog (d : Dev) (x : Nat) : Dev :=
  let c := d.ctx x
  let d' := d.drainDone x
  if (c.state = .running || c.state = .draining) && decide (c.tStart + planLimit c.plan * 256 < d.time.toNat) then
    if (d'.ctx x).state = .closing then d' else d.freeze x 8 0 0 0 0 0
  else d

/-- STEP_WATCHDOG (R102). -/
def execStepWatchdog (x : Nat) (s : State) : Host.Outcome State Fault Refusal := s.run fun d => if x < 8 then d.watchdog x else d

/-! ### Gating and wake entries -/

/-- A sequencer that is stalled on a WAIT or has ended its stream (R134). -/
def Cluster.stalled (k : Cluster) : Bool := (k.seq == .waiting && !k.waitOk) || k.seq == .ended

/-- The fast clock of an idle cluster is gated (R134, R400). -/
def Dev.gate (d : Dev) (c : Nat) : Dev :=
  let k := d.clu c
  if k.stalled && d.mxEmpty c && k.cur = .off && k.vxNow.isNone && d.queued c 1 == 0 && d.queued c 2 == 0 then
    d.modClu c fun k => { k with gated := true }
  else d

/-- CLUSTER_GATE (R134). -/
def execClusterGate (c : Nat) (s : State) : Host.Outcome State Fault Refusal := s.run fun d => if c < 128 then d.gate c else d

/-- The PLL of a group. -/
def Dev.pll (d : Dev) (g : Nat) : Pll := mapGet (fun _ => Pll.stopped) d.plls g
/-- Set the PLL of a group. -/
def Dev.setPll (d : Dev) (g : Nat) (p : Pll) : Dev := { d with plls := mapSet (fun _ => Pll.stopped) d.plls g p }

/-- The context has woken for some step of its plan. -/
def Ctx.hasWoken (c : Ctx) : Bool :=
  c.state != .unloaded && c.state != .loaded && !(c.state == .armed && c.step.toNat == planFirst c.plan)

/-- Wake entry i of a context reaches its offset from T_run (R93, R135, R136): f is what it does to its group. -/
def Dev.wakeEntry (d : Dev) (x i action : Nat) (f : Nat → Dev → Dev) : Dev :=
  let c := d.ctx x
  match (planWakes c.plan)[i]? with
  | none => d
  | some e =>
    if !c.hasWoken || e.action ≠ action || c.woken.contains i || decide ((d.time.toNat : Int) < (c.tRun : Int) + e.at_) then d
    else f e.group (d.modCtx x fun c => { c with woken := c.woken ++ [i] })

/-- Every sequencer of a group that is active is stalled or has ended its stream (R135). -/
def Dev.groupStalled (d : Dev) (g : Nat) : Bool := (upFrom (8 * g) 8).all fun c => (d.clu c).stalled || (d.clu c).seq == .idle

/-- The stop of group g waits until every matrix array of the group is in OFF (R401). -/
def Dev.stopWaits (d : Dev) (g : Nat) : Bool := d.groupStalled g && (upFrom (8 * g) 8).any fun c => (d.clu c).cur != .off

/-- WAKE_STOP (R135, R401). -/
def execWakeStop (x i : Nat) (s : State) : Host.Outcome State Fault Refusal :=
  s.run fun d =>
    if ((planWakes (d.ctx x).plan)[i]?).any fun e => d.stopWaits e.group then d
    else d.wakeEntry x i 1 fun g d => if d.groupStalled g then d.setPll g .stopped else d.addFld Reg.PWR_WAKE 0 32 1

/-- WAKE_START (R136). -/
def execWakeStart (x i : Nat) (s : State) : Host.Outcome State Fault Refusal :=
  s.run fun d => d.wakeEntry x i 2 fun g d => if d.pll g = .stopped then d.setPll g .locking else d

/-- GROUP_PLL_LOCKED (R136, R854). -/
def execGroupPllLocked (g : Nat) (s : State) : Host.Outcome State Fault Refusal :=
  s.run fun d => if d.pll g = .locking then d.setPll g .locked else d

/-! ### Background windows (R138 to R144) -/

/-- BACKGROUND_WINDOW_OPEN (R138). -/
def execBackgroundWindowOpen (r n : Nat) (s : State) : Host.Outcome State Fault Refusal :=
  s.run fun d =>
    if n < instances r && d.inWin r n then { d with windows := mapSet (fun _ => false) d.windows (r * 16 + n) true } else d

/-- BACKGROUND_WINDOW_CLOSE (R139). -/
def execBackgroundWindowClose (r n : Nat) (s : State) : Host.Outcome State Fault Refusal :=
  s.run fun d =>
    if n < instances r && !d.inWin r n then { d with windows := mapSet (fun _ => false) d.windows (r * 16 + n) false } else d

end Sys2Proof.Machine
end

