-- ==== Sys2Proof/Machine/Teardown.lean ====
section
/-!
DEFINITION. KILL and teardown (R752 to R758): HOLD, QUIESCE, RELEASE and CLEAR, and the fault record.
-/

namespace Sys2Proof.Machine

/-- KILL of a context (R755). -/
def Dev.kill (d : Dev) (x : Nat) : Dev :=
  if d.freezable x then d.freeze x 9 0 0 0 0 0 else d.logDiscard (Reg.CTX_CTX_CTRL x)

/-- HOLD of a frozen context ends (R752). -/
def Dev.endHold (d : Dev) (x : Nat) : Dev := d.modCtx x fun c => { c with phase := 2 }

/-- A context is in HOLD. -/
def Dev.inHold (d : Dev) (x : Nat) : Bool := (d.ctx x).state == .frozen && (d.ctx x).phase == 1

/-- A write of CTX_CTXx_CTRL (R755, R758). -/
def Dev.wCtxCtrl (d : Dev) (src : Master) (x : Nat) (w : Word) : Dev :=
  let r := Reg.CTX_CTX_CTRL x
  d.guard src r fun d =>
    match bitOf w 0, bitOf w 1 with
    | true, true => d.logDiscard r
    | true, false => d.kill x
    | false, true => if d.inHold x then d.endHold x else d.logDiscard r
    | false, false => d

/-- KILL (R755). -/
def execKill (src : Master) (x : Nat) (w : Word) (s : State) : Host.Outcome State Fault Refusal :=
  s.run fun d => if x < 8 then d.wCtxCtrl src x w else d
/-- TEARDOWN (R755). -/
def execTeardown (src : Master) (x : Nat) (w : Word) (s : State) : Host.Outcome State Fault Refusal :=
  s.run fun d => if x < 8 then d.wCtxCtrl src x w else d
/-- HOLD_EXPIRE (R752). -/
def execHoldExpire (x : Nat) (s : State) : Host.Outcome State Fault Refusal :=
  s.run fun d => if d.inHold x && decide ((d.ctx x).holdEnd ≤ d.time.toNat) then d.endHold x else d

/-- Every tracker of a frozen context is FREE or TIMEOUT (R752), but those of a snapshot, which QUIESCE does not wait for: one still
COPYING ends as RELEASE begins (R785, R786). -/
def Dev.quiesceDone (d : Dev) (x : Nat) : Dev :=
  let busy := d.trks.any fun e => e.2.kind != 0 && e.2.src != 12 && e.2.ctx == x && e.2.state != 4
  if (d.ctx x).state = .frozen && (d.ctx x).phase = 2 && !busy then (d.snapAbort x 4).modCtx x fun c => { c with phase := 3 } else d

/-- QUIESCE_DONE (R752). -/
def execQuiesceDone (x : Nat) (s : State) : Host.Outcome State Fault Refusal := s.run (·.quiesceDone x)

/-- Every resource of the context is released and the slice is free (R752). -/
def Dev.releaseDone (d : Dev) (x : Nat) : Dev :=
  if (d.ctx x).state = .frozen && (d.ctx x).phase = 3 then (d.release x).modCtx x fun c => { c with phase := 4 } else d

/-- RELEASE_DONE (R752). -/
def execReleaseDone (x : Nat) (s : State) : Host.Outcome State Fault Refusal := s.run (·.releaseDone x)

/-! ### CLEAR -/

/-- A byte that CLEAR writes with zero: in a scratchpad range that a segment maps with W, outside the code store. -/
def clearsAt (segs : List Seg) (a : Nat) : Bool :=
  inSpad a 1 && !touchesCode (a % 0x1000000) 1 &&
    segs.any fun g => g.kind == 4 && bitsOf g.perm 1 1 == 1 && decide (g.pbase ≤ a) && decide (a < g.pbase + g.size)

/-- The writable scratchpad ranges of a context become zero, which is what an unlisted byte reads as, and lose their marks. -/
def Dev.clearSpad (d : Dev) (x : Nat) : Dev :=
  let segs := (d.segs x).filter fun g => g.kind == 4
  { d with mem := mapKeep (fun a => !clearsAt segs a) d.mem, poison := mapKeep (fun a => !clearsAt segs a) d.poison }

/-- CLEAR is complete, and the context is UNLOADED (R752, R757, R788). -/
def Dev.clearDone (d : Dev) (x : Nat) : Dev :=
  if (d.ctx x).state ≠ .frozen || (d.ctx x).phase ≠ 4 then d
  else
    let d := d.clearSpad x
    let d := d.copyFault x 16 Reg.CAB_FAULT (d.fld Reg.CAB_FAULT 20 3 == x)
    let d := d.copyFault x 17 Reg.TIER_FAULT (d.fld Reg.TIER_FAULT 24 3 == x)
    let d := d.copyFault x 18 Reg.COL_FAULT (d.fld Reg.COL_FAULT 10 3 == x)
    let d := d.setReg (Reg.CTX_FR x 19) (d.reg (Reg.FAB_CTX_ID x))
    let d := d.copyFault x 20 Reg.CKP_FAULT (d.fld Reg.CKP_FAULT 24 3 == x)
    let d := (planOrder (d.ctx x).plan).foldl (fun e c => e.clearCluster x c) d
    (d.setReg (Reg.CTX_FR x 4) d.time).toUnloaded x

/-- CLEAR_DONE (R752). -/
def execClearDone (x : Nat) (s : State) : Host.Outcome State Fault Refusal := s.run fun d => if x < 8 then d.clearDone x else d

end Sys2Proof.Machine
end

