-- ==== Sys2Proof/Machine/Boundary.lean ====
section
/-!
DEFINITION. The boundary actions of CLOSING (R105): the latch, the swaps, the serving action (R740 to R745), the journal record
(R718 to R720), reinitialisation, and the state that follows (R100, R101).
-/

namespace Sys2Proof.Machine

/-! ### Action 1: the latch -/

/-- A running count. -/
def Dev.runOf (d : Dev) (k : Nat) : Nat := mapGet (fun _ => 0) d.run k
/-- A 32-bit count saturates (R24). -/
def sat32 (n : Nat) : Nat := min n (2 ^ 32 - 1)
/-- Latch a running count into a 32-bit field of a register and clear it. -/
def Dev.latchCount (d : Dev) (r lo key : Nat) : Dev :=
  { d.setFld r lo 32 (sat32 (d.runOf key)) with run := mapPut d.run key none }


/-- Fingerprint slots and counts are latched and the running values cleared (R105, R281, R410, R458, R502, R691, R717). -/
def Dev.latchStep (d : Dev) (x : Nat) : Dev :=
  let d := (d.ctx x).slots.foldl
    (fun e s => e.setReg (Reg.FPU_SLOT s.slot) (BitVec.ofNat 64 (e.runOf (Reg.FPU_SLOT s.slot)))) d
  (stepCounts x).foldl (fun e q => e.latchCount q.1 q.2.1 q.2.2) (d.clearSlots x)

/-! ### Action 2: the swaps -/

/-- The written entries of a context's bias claim become active (R259). -/
def Dev.biasSwap (d : Dev) (x : Nat) : Dev :=
  let lo := d.fld (Reg.DRS_CTX_BIAS x) 0 17
  let n := d.fld (Reg.DRS_CTX_BIAS x) 32 17
  (upFrom lo n).foldl
    (fun e i =>
      if mapGet (fun _ => false) e.biasWritten i then
        { e.setFld (Reg.DRS_BIAS i) 0 32 (e.fld (Reg.DRS_BIAS i) 32 32) with biasWritten := mapPut e.biasWritten i none }
      else e) d

/-- The pending table for the step that closes becomes active and its weight pointer arrays are written (R293, R328, R331). DESIGN CHOICE
(log entry 86): where one array cannot be translated, none of them stands written. -/
def Dev.placeSwap (d : Dev) (x : Nat) : Dev :=
  match mapFind d.placePend x with
  | none => d
  | some (step, t) =>
    if step ≠ (d.ctx x).step.toNat then d
    else
      let d := { d with placePend := mapPut d.placePend x none, placeTab := mapPut d.placeTab x (some t) }
      let d := d.modCtx x fun c => { c with swapped := true }
      let d := (d.setReg (Reg.DRS_CTX_PLACE_ID x) (BitVec.ofNat 64 (atLe t 0 8))).setReg (Reg.DRS_CTX_PLACE_SWAP x) 0
      match Dev.writeResw x (reswCopies (d.ctx x).plan t) d with
      | .ok e => e
      | .error r => d.colFault x 0 0 0x43 (r.2.2 % 2 ^ 32) r.2.1

/-- An entry of the sequence table (R740): index, STATE, PRIO, QSEQ, PROMPT, BUDGET, DONE_IN, GEN, SLOT. -/
structure SeqEnt where
  ix : Nat
  state : Nat
  prio : Nat
  qseq : Nat
  prompt : Nat
  budget : Nat
  doneIn : Nat
  gen : Nat
  slot : Nat
  deriving DecidableEq, Repr

/-- Entry i of a table in bytes. -/
def seqEnt (t : Bytes) (i : Nat) : SeqEnt :=
  let o := 32 * i
  { ix := i, state := atLe t (o + 4) 1, prio := atLe t (o + 5) 1, qseq := atLe t (o + 8) 4, prompt := atLe t (o + 0xC) 4,
    budget := atLe t (o + 0x10) 4, doneIn := atLe t (o + 0x14) 4, gen := atLe t (o + 0x18) 4, slot := atLe t (o + 0x1C) 4 }

/-- invalid(e) of R743. -/
def SeqEnt.invalid (e : SeqEnt) : Bool := e.prompt = 0 || e.budget = 0 || 1048576 < e.prompt

/-- One entry after the retire loop, and whether it counts in BAD (R743). slot reads the batch entry of a slot. -/
def SeqEnt.retire (slot : Nat → Bytes) (e : SeqEnt) : SeqEnt × Bool :=
  let e1 :=
    if e.state = 2 && e.slot ≠ 0xFFFFFFFF then
      let b := slot e.slot
      let done := (e.doneIn + atLe b 0xC 4) % 2 ^ 32
      let e' := if atLe b 2 1 % 2 = 1 then { e with doneIn := done, gen := if done = e.prompt then (e.gen + 1) % 2 ^ 32 else e.gen }
        else { e with gen := (e.gen + 1) % 2 ^ 32 }
      if atLe b 3 1 ≠ 0 || e'.budget ≤ e'.gen then { e' with state := 3 } else e'
    else e
  let e2 := if e1.state = 4 then { e1 with state := 5 } else e1
  let bad := decide (5 < e2.state) || (e2.state == 1 && e2.invalid)
  ({ e2 with state := if bad then 5 else e2.state, slot := 0xFFFFFFFF }, bad)

/-- The batch being built (R743): the table, TOKENS, the active count and the slots placed. -/
structure Batch where
  ents : List SeqEnt
  tok : Nat := 0
  act : Nat := 0
  slots : List (Nat × Nat × Nat) := []
  deriving DecidableEq, Repr

/-- Tokens that a sequence would take (R743). -/
def SeqEnt.want (e : SeqEnt) (chunk : Nat) : Nat := if e.doneIn < e.prompt then min (e.prompt - e.doneIn) chunk else 1

/-- place(i) of R743. -/
def Batch.place (tokenMax chunk : Nat) (b : Batch) (e : SeqEnt) : Batch :=
  let n := e.want chunk
  if b.tok + n ≤ tokenMax then
    { b with tok := b.tok + n, slots := b.slots ++ [(e.ix, b.tok, n)],
             ents := b.ents.map fun (q : SeqEnt) => if q.ix = e.ix then { q with slot := b.slots.length } else q }
  else b

/-- e comes before f in order of (prio, qseq, i). -/
def SeqEnt.before (e f : SeqEnt) : Bool :=
  decide (e.prio < f.prio) || (e.prio == f.prio && (decide (e.qseq < f.qseq) || (e.qseq == f.qseq && decide (e.ix < f.ix))))

/-- Insert in order. -/
def seqInsert (e : SeqEnt) : List SeqEnt → List SeqEnt
  | [] => [e]
  | f :: t => if e.before f then e :: f :: t else f :: seqInsert e t

/-- The admission loop of R743. -/
def Batch.takeIn (slotMax tokenMax chunk : Nat) : List SeqEnt → Batch → Batch
  | [], b => b
  | e :: t, b =>
    if b.act = slotMax || tokenMax < b.tok + min e.prompt chunk then b
    else
      let b := { b with act := b.act + 1, ents := b.ents.map fun (q : SeqEnt) => if q.ix = e.ix then { q with state := 2 } else q }
      Batch.takeIn slotMax tokenMax chunk t (b.place tokenMax chunk e)

/-- The batch list entry of a placed slot (R742). -/
def batchEntry (e : SeqEnt) (tok n : Nat) : Bytes :=
  let pre := decide (e.doneIn < e.prompt)
  let head : Bytes := [BitVec.ofNat 8 pre.toNat, 0]
  leBytes 2 e.ix ++ head ++ leBytes 4 (if pre then e.doneIn else (e.prompt + e.gen + 2 ^ 32 - 1) % 2 ^ 32) ++ leBytes 4 tok ++ leBytes 4 n

/-- The bytes of the batch list (R742). -/
def Batch.bytes (b : Batch) (step : Nat) : Bytes :=
  leBytes 8 step ++ leBytes 4 b.slots.length ++ leBytes 4 b.tok ++ List.replicate 48 (0 : Byte) ++
    b.slots.flatMap fun s =>
      match b.ents.find? fun e => e.ix == s.1 with
      | none => []
      | some e => batchEntry e s.2.1 s.2.2

/-- The serving action of a boundary (R743 to R745): retire, take in, write each changed entry and the batch list, untagged. -/
def Dev.serve (d : Dev) (x : Nat) : Dev :=
  let p := (d.ctx x).plan
  if !planInteractive p then d
  else
    let f := secAt p 13
    let seqt := f 0x10 8
    let batch := f 0x18 8
    let max_ := f 0x20 4
    let chunk := f 0x2C 4
    let r := d.softRead seqt (32 * max_)
    let d := r.2
    let snap := (upFrom 0 max_).map (seqEnt r.1)
    let ret := snap.map (SeqEnt.retire fun j => d.read (batch + 64 + 16 * j) 16)
    let es := ret.map Prod.fst
    let active := es.filter fun e => e.state == 2
    let queued := (es.filter fun e => e.state == 1).foldl (fun l e => seqInsert e l) []
    let b0 : Batch := { ents := es, act := active.length }
    let b := Batch.takeIn (f 0x28 4) (f 0x24 4) chunk queued (active.foldl (Batch.place (f 0x24 4) chunk) b0)
    let d := (snap.zip b.ents).foldl
      (fun v q =>
        if q.1 = q.2 then v
        else
          let a := seqt + 32 * q.2.ix
          (v.hubWrite (a + 4) [BitVec.ofNat 8 q.2.state]).hubWrite (a + 0x14) (leBytes 4 q.2.doneIn ++ leBytes 4 q.2.gen ++ leBytes 4 q.2.slot)) d
    let d := d.hubWrite batch (b.bytes ((d.ctx x).step.toNat + 1))
    let s := Reg.CTX_CTX_SERVE x
    ((d.setFld s 0 17 b.act).setFld s 24 21 b.tok).addFld s 48 16 (ret.filter Prod.snd).length

/-! ### Action 3: the journal record -/

/-- The count entries of a plan: COUNTS, EXPERTS, LAYER (R712). -/
def planCounts (p : Bytes) : List (Nat × Nat × Nat) :=
  match planFind p 7 with
  | none => []
  | some s => (countEntries p s).map fun o => (atLe p o 8, atLe p (o + 8) 4, atLe p (o + 12) 2)

/-- The runs of a count vector, as LOAD translated them (R713). -/
def Dev.countRuns (d : Dev) (x : Nat) (q : Nat × Nat × Nat) : List (Nat × Nat × Nat) :=
  (segRuns (planStacks (d.ctx x).plan) (d.segs x) q.1 (16 * q.2.1)).getD []

/-- Bytes of the record of a step (R718), its sums and areas. -/
def recordLen (p : Bytes) (slots : Nat) : Nat :=
  ceilDiv (0x200 + 16 * slots + (planCounts p).foldl (fun v q => v + 16 + 16 * q.2.1) 0) 64 * 64

/-- A sum of 32-bit counts over all clusters saturates (R718). -/
def Dev.sumCounts (d : Dev) (r : Nat → Nat) (lo : Nat) : Nat := sat32 ((upFrom 0 128).foldl (fun v c => v + d.fld (r c) lo 32) 0)

/-- Insert a slot number in ascending order. -/
def numInsert (n : Nat) : List Nat → List Nat
  | [] => [n]
  | m :: t => if n ≤ m then n :: m :: t else m :: numInsert n t

/-- The journal record of a step of context x (R718). -/
def Dev.journalRecord (d : Dev) (x : Nat) : Bytes :=
  let c := d.ctx x
  let p := c.plan
  let slots := c.slots.foldl (fun l s => numInsert s.slot l) []
  let cs := planCounts p
  let n := recordLen p slots.length
  let nseed := match planFind p 5 with | some s => s.count | none => 0
  let u4 := leBytes 4
  let head := fun crc =>
    u4 0x4C4E524A ++ leBytes 2 1 ++ [BitVec.ofNat 8 x, BitVec.ofNat 8 (c.gap.toNat + 2 * c.swapped.toNat)] ++ u4 n ++ u4 crc ++
      leBytes 8 c.step.toNat ++ leBytes 2 (planJob p) ++ leBytes 2 d.node ++ u4 (planDevices p) ++
      leBytes 8 (d.reg (Reg.DRS_CTX_PLACE_ID x)).toNat ++ leBytes 8 c.tStart ++ leBytes 8 c.tClose ++ leBytes 2 slots.length ++
      leBytes 2 cs.length ++ [BitVec.ofNat 8 nseed, BitVec.ofNat 8 (decide (c.tStart < c.tRun)).toNat, 0, 0]
  let counts := [d.fld (Reg.DRS_CTX_DROPS x) 0 32, d.fld (Reg.DRS_CTX_NANS x) 0 32, d.fld (Reg.DRS_CTX_ZEROSUM x) 0 32,
    d.sumCounts (Reg.MXA_CTX_SAT · x) 0, d.sumCounts (Reg.MXA_CTX_SAT · x) 32, d.sumCounts (Reg.MXA_CTX_SPILL · x) 0,
    d.sumCounts (Reg.VEC_CTX_SAT · x) 0, d.sumCounts (Reg.VEC_CTX_CVT · x) 0, d.fld (Reg.COL_CTX_SAT x) 0 32,
    d.fld (Reg.COL_CTX_XSAT x) 0 32, c.unmarked.toNat]
  let body := (upFrom 0 16).flatMap (fun i => leBytes 8 (planSeed p i)) ++ counts.flatMap u4 ++ List.replicate 20 (0 : Byte) ++
    leBytes 256 c.flags ++
    slots.flatMap (fun i => leBytes 8 i ++ leBytes 8 (d.reg (Reg.FPU_SLOT i)).toNat) ++
    cs.flatMap fun q => leBytes 4 q.2.2 ++ u4 q.2.1 ++ leBytes 8 0 ++ (d.countRuns x q).flatMap fun r => d.read r.1 r.2.1
  let rec0 := head 0 ++ body
  let pad := List.replicate (n - rec0.length) (0 : Byte)
  head (crc32c (rec0 ++ pad)) ++ body ++ pad

/-- The ring of a context has room for its record (R719, R720). -/
def Dev.ringRoom (d : Dev) (x : Nat) : Bool :=
  let c := d.ctx x
  let size := d.fld (Reg.FPU_CTX_JSIZE x) 0 40
  size != 0 && decide ((d.reg (Reg.FPU_CTX_JTAIL x)).toNat + recordLen c.plan c.slots.length ≤ (d.reg (Reg.FPU_CTX_JHEAD x)).toNat + size)

/-- Write a record into the ring; it may wrap (R719). -/
def Dev.ringWrite (d : Dev) (x : Nat) (bs : Bytes) : Dev :=
  let base := d.fld (Reg.FPU_CTX_JBASE x) 0 48
  let size := d.fld (Reg.FPU_CTX_JSIZE x) 0 40
  let tail := (d.reg (Reg.FPU_CTX_JTAIL x)).toNat
  let o := tail % size
  let k := size - o
  let d := (d.hubWrite (base + o) (bs.take k)).hubWrite base (bs.drop k)
  (d.setReg (Reg.FPU_CTX_JTAIL x) (BitVec.ofNat 64 (tail + bs.length))).modCtx x fun c => { c with gap := false }

/-- The record is discarded (R720). -/
def Dev.dropRecord (d : Dev) (x : Nat) : Dev :=
  (d.addFld (Reg.FPU_CTX_JCFG x) 32 32 1).modCtx x fun c => { c with gap := true, jSkip := true }

/-- The wait for ring space is over: WAIT µs have passed (R720). -/
def Dev.waitOver (d : Dev) (x : Nat) : Bool := decide ((d.ctx x).tWait + d.fld (Reg.FPU_CTX_JCFG x) 0 16 * 1600 ≤ d.time.toNat)

/-! ### The boundary -/

/-- Actions 1 and 2 up to the swap of section 0x0008. -/
def Dev.boundaryHead (d : Dev) (x : Nat) : Dev :=
  if (d.ctx x).bdone = 0 then ((d.latchStep x).biasSwap x).modCtx x fun c => { c with bdone := 1 } else d

/-- A STAGE or CANCEL of the context is being performed (R328). -/
def Dev.placing (d : Dev) (x : Nat) : Bool := d.placeCmd.any fun c => c.ctx == x

/-- The swap of section 0x0009 and the serving action; a frozen context performs no further action (R750). -/
def Dev.boundarySwaps (d : Dev) (x : Nat) : Dev :=
  if (d.ctx x).bdone ≠ 1 || d.placing x then d
  else
    let d := d.placeSwap x
    if (d.ctx x).state ≠ .closing then d
    else (d.serve x).modCtx x fun c => { c with bdone := 2, tWait := d.time.toNat }

/-- The journal action: whether the boundary goes on, and the block after it (R718 to R720). -/
def Dev.boundaryJournal (d : Dev) (x : Nat) : Bool × Dev :=
  let c := d.ctx x
  if c.bdone ≠ 2 then (false, d)
  else if !planJournal c.plan || c.jSkip then (true, d)
  else if (planCounts c.plan).any fun q => (d.countRuns x q).any fun r => d.poisoned r.1 r.2.1 then (false, d.freeze x 0x0B 21 0 0 0 0)
  else if d.ringRoom x then (true, d.ringWrite x (d.journalRecord x))
  else if d.fld (Reg.FPU_CTX_JCFG x) 0 16 = 0 then (true, d.dropRecord x)
  else (false, d)

/-- COUNT back to INIT, OVF and FIRED cleared, on the objects with REINIT (R105). -/
def Dev.reinit (d : Dev) (x : Nat) : Dev :=
  let f := fun (o : SyncObj) =>
    if o.owned && o.ctx == x && o.reinit then { o with count := BitVec.ofNat 32 o.init, ovf := false, fired := false } else o
  { d with objs := mapVals (fun _ => {}) f d.objs }

/-- Tier ages at a boundary (R554). -/
def Dev.ageEnts (d : Dev) (x : Nat) : Dev :=
  let f := fun (e : TierEnt) => if e.ctx ≠ x then e else if e.touched then { e with age := 0, touched := false } else { e with age := min 65535 (e.age + 1) }
  { d with tierEnts := d.tierEnts.map f }

/-- The step number, the snapshot point and the state that follows (R100, R101, R105, R779). -/
def Dev.boundaryEnd (d : Dev) (x : Nat) : Dev :=
  let c := d.ctx x
  let p := c.plan
  let closed := c.step.toNat
  let last := planCount p ≠ 0 && closed = (planFirst p + planCount p - 1) % 2 ^ 64
  let stop := !last && d.reg (Reg.BUR_PLAN_STOP x) == c.step
  let d := ((d.reinit x).ageEnts x).modCtx x fun c => { c with step := c.step + 1, bdone := 0 }
  let d :=
    let now := some d.time.toNat
    if last then (d.modCtx x fun c => { c with state := .done, slice := false, ended := now }).ctxEvent x
    else if stop then (d.modCtx x fun c => { c with state := .stopped, slice := false, ended := now }).ctxEvent x
    else d.arm x
  d.snapPoint x closed stop

/-- The boundary actions run as far as they can; the last of them ends the step (R105). -/
def Dev.boundary (d : Dev) (x : Nat) : Dev :=
  if (d.ctx x).state ≠ .closing then d
  else
    let r := ((d.boundaryHead x).boundarySwaps x).boundaryJournal x
    if r.1 then r.2.boundaryEnd x else r.2

/-- BOUNDARY_COMPLETE (R105, R902). -/
def execBoundaryComplete (x : Nat) (s : State) : Host.Outcome State Fault Refusal := s.run fun d => if x < 8 then d.boundary x else d

/-- JOURNAL_WAIT_TIMEOUT (R720). -/
def execJournalWaitTimeout (x : Nat) (s : State) : Host.Outcome State Fault Refusal :=
  s.run fun d =>
    let c := d.ctx x
    if x < 8 && c.state = .closing && c.bdone = 2 && planJournal c.plan && !c.jSkip && !d.ringRoom x && d.waitOver x then d.dropRecord x else d

end Sys2Proof.Machine
end

