-- ==== Sys2Proof/Machine/Trestle.lean ====
section
/-!
DEFINITION. The time base (R705 to R708, R725) and the writes of the journal ring's registers (R721, R726).
-/

namespace Sys2Proof.Machine

/-! ### The time base -/

/-- TRS_SYNC.STATE: 0 UNSYNCED, 1 LOCKED, 2 HOLDOVER. -/
def Dev.syncState (d : Dev) : Nat := d.fld Reg.TRS_SYNC 0 2
/-- Write TRS_SYNC.STATE; the grandmaster is always LOCKED (R707). -/
def Dev.setSync (d : Dev) (st : Nat) : Dev := d.setFld Reg.TRS_SYNC 0 2 (if d.bit Reg.TRS_CFG 0 then 1 else st)

/-- The device becomes UNSYNCED (R61, R707). -/
def Dev.unsync (d : Dev) : Dev := { d with trs := {} }.setSync 0

/-- A write to TRS_CFG (R725). -/
def Dev.wTrsCfg (d : Dev) (w : Word) : Dev :=
  if fieldOf w 8 24 < 4096 then d.logDiscard Reg.TRS_CFG
  else
    let d := d.plainWrite Reg.TRS_CFG w
    if d.bit Reg.TRS_CFG 0 then d.setSync 1 else d

/-- TRS_CFG_WRITE (R725). -/
def execTrsCfgWrite (src : Master) (w : Word) (s : State) : Host.Outcome State Fault Refusal :=
  s.run (·.guard src Reg.TRS_CFG (·.wTrsCfg w))

/-- A TIME packet on a port, with the Trestle stamps it carries: one of a request, three of a reply (log entry 40). -/
def Dev.sendTime (d : Dev) (n : Nat) (stamps : List Nat) : Dev :=
  let (f, d) := d.fresh
  let pay := stamps.flatMap (leBytes 8)
  let pay := pay ++ List.replicate (pay.length % 16) (0 : Byte)
  let h : Hdr := { ty := 0x1A, vc := 7, dst := fieldOf f 0 16, src := d.node, pkey := 0xFFFF, len := pay.length / 16 }
  { d with rtr := d.rtr ++ [{ hdr := h, pay := pay, at_ := d.time.toNat, outp := some n }] }

/-- An exchange begins every INTERVAL, toward the parent on UPPORT (R705). -/
def Dev.timeBegin (d : Dev) : Dev :=
  let now := d.time.toNat
  let due := match d.trs.last with | none => true | some t => decide (t + d.trs.intv ≤ now)
  if !d.hubLocked || d.bit Reg.TRS_CFG 0 || d.trs.sent.isSome || !due then d
  else
    let n := d.fld Reg.TRS_CFG 1 5
    let d := { d with trs := { d.trs with sent := some now, intv := d.fld Reg.TRS_CFG 8 24, port := n, last := some now } }
    if d.portState n = 2 || d.portState n = 4 then d.sendTime n [now] else d

/-- TRESTLE_EXCHANGE (R705). -/
def execTrestleExchange (s : State) : Host.Outcome State Fault Refusal := s.run (·.timeBegin)

/-- A number saturated to w bits of two's complement. -/
def satSigned (w : Nat) (v : Int) : Int :=
  let m : Int := ((2 ^ (w - 1) : Nat) : Int)
  max (-m) (min (m - 1) v)

/-- A context of the device is in WAKING, RUNNING, DRAINING or CLOSING (R706). -/
def Dev.stepping (d : Dev) : Bool := allCtxs.any fun x =>
  match (d.ctx x).state with
  | .waking | .running | .draining | .closing => true
  | _ => false

/-- Apply an offset: step once, forward, or slew (R706). -/
def Dev.applyOffset (d : Dev) (off : Int) : Dev :=
  if d.syncState = 0 && !d.stepping && !d.trs.stepped && decide (0 < off) then
    { d with time := d.time + BitVec.ofInt 64 off, trs := { d.trs with stepped := true, slew := 0 } }
  else { d with trs := { d.trs with slew := off } }

/-- The state after an exchange with offset off (R707). -/
def Dev.judge (d : Dev) (off : Int) : Dev :=
  let good := if off.natAbs ≤ 8 then d.trs.good + 1 else 0
  let d := { d with trs := { d.trs with good := good, sent := none } }
  if 8 ≤ good then d.setSync 1
  else if 64 < off.natAbs && d.syncState = 1 then d.setSync 2
  else d

/-- A reply from the parent (R705): the offset d, truncated toward zero. -/
def Dev.timeReply (d : Dev) (t1 t2 t3 t4 : Nat) : Dev :=
  let off : Int := Int.tdiv (((t2 : Int) - t1) - ((t4 : Int) - t3)) 2
  let d := (d.setFld Reg.TRS_SYNC 8 24 (wrapTo 24 (satSigned 24 off))).setFld Reg.TRS_SYNC 32 16 0
  (d.applyOffset off).judge off

/-- A TIME packet (R705): a request is answered on the port it came by; a reply ends the exchange it answers. -/
def Dev.timeGot (d : Dev) (q : Packet) : Dev :=
  let now := d.time.toNat
  let p := arrive q now
  if p.hdr.ty ≠ 0x1A then d
  else
    d.portCheck p fun d => d.takeUp p fun d p =>
      if p.bad || q.vc ≠ 7 || p.hdr.vc ≠ 7 then d
      else if p.hdr.len = 1 then d.sendTime q.port [atLe p.pay 0 8, now, now]
      else if d.trs.sent = some (atLe p.pay 0 8) && d.trs.port = q.port then
        d.timeReply (atLe p.pay 0 8) (atLe p.pay 8 8) (atLe p.pay 16 8) now
      else d

/-- TIME (R705 to R707). -/
def execTime (p : Packet) (s : State) : Host.Outcome State Fault Refusal := s.run (·.timeGot p)

/-- An exchange without a reply within INTERVAL is missed (R705, R707). -/
def Dev.timeMissed (d : Dev) : Dev :=
  match d.trs.sent with
  | none => d
  | some t =>
    if t + d.trs.intv ≤ d.time.toNat then
      let d := { d with trs := { d.trs with sent := none, good := 0 } }.addFld Reg.TRS_SYNC 32 16 1
      if d.syncState = 1 && 16 ≤ d.fld Reg.TRS_SYNC 32 16 then d.setSync 2 else d
    else d

/-- TIME_EXCHANGE_MISSED (R707). -/
def execTimeExchangeMissed (s : State) : Host.Outcome State Fault Refusal := s.run (·.timeMissed)

/-! ### The journal ring -/

/-- A host write of JHEAD (R721). -/
def Dev.wJhead (d : Dev) (x : Nat) (w : Word) : Dev :=
  let off := Reg.FPU_CTX_JHEAD x
  if w.toNat < (d.reg off).toNat || (d.reg (Reg.FPU_CTX_JTAIL x)).toNat < w.toNat then d.logDiscard off else d.setReg off w

/-- JHEAD_WRITE (R721). -/
def execJheadWrite (src : Master) (x : Nat) (w : Word) (s : State) : Host.Outcome State Fault Refusal :=
  s.run fun d => if x < 8 then d.guard src (Reg.FPU_CTX_JHEAD x) (·.wJhead x w) else d

/-- The staging pools and Cabinet pools of the device (R526, R547). -/
def Dev.poolRanges (d : Dev) : List (Nat × Nat) :=
  (upFrom 0 2).map (fun t => (d.poolBase t, d.poolFrames t * 65536)) ++
    allCtxs.flatMap fun x => (upFrom 0 (d.cabPools x)).map fun p =>
      (d.fld (Reg.CAB_CTX_P_BASE x p) 0 48, d.fld (Reg.CAB_CTX_P_STATE x p) 32 15 * d.cabSize x p)

/-- A write to JBASE, or to JSIZE, of a context (R726). -/
def Dev.wRing (d : Dev) (x : Nat) (size : Bool) (w : Word) : Dev :=
  let off := if size then Reg.FPU_CTX_JSIZE x else Reg.FPU_CTX_JBASE x
  let base := if size then d.fld (Reg.FPU_CTX_JBASE x) 0 48 else fieldOf w 0 48
  let n := if size then fieldOf w 0 40 else d.fld (Reg.FPU_CTX_JSIZE x) 0 40
  if (d.ctx x).state.active || base % 64 != 0 || n % 64 != 0 || (n != 0 && !inHbm base n) ||
      d.poolRanges.any (fun r => overlap base n r.1 r.2) then d.logDiscard off
  else
    let d := (d.plainWrite off w).setFld (Reg.FPU_CTX_JCFG x) 32 32 0
    (d.setReg (Reg.FPU_CTX_JHEAD x) 0).setReg (Reg.FPU_CTX_JTAIL x) 0

/-- JOURNAL_RING_WRITE (R726): size selects FPU_CTXx_JSIZE. -/
def execJournalRingWrite (src : Master) (x : Nat) (size : Bool) (w : Word) (s : State) : Host.Outcome State Fault Refusal :=
  s.run fun d =>
    if x < 8 then d.guard src (if size then Reg.FPU_CTX_JSIZE x else Reg.FPU_CTX_JBASE x) (·.wRing x size w) else d

end Sys2Proof.Machine
end

