-- ==== Sys2Proof/Machine/HostIf.lean ====
section
/-!
DEFINITION. The host interface (R793 to R802, R827): the BARs of the PF and the VFs, the binding of a VF, and the resets of domain
24. HIF_VFn_CFG lies in domain 21, so no reset here touches it.
-/

namespace Sys2Proof.Machine

/-- A read of a register by a master (R22, R896): its value, and the device after the read's side effects. -/
def Dev.csrRead (d : Dev) (src : Master) (off : Nat) : Word × Dev :=
  match d.refusal src off false with
  | some c => (0, d.logRefusal c off)
  | none => (d.readReg off, if off = Reg.AON_POWER then d.setFld off 16 16 0 else d)


/-- Record a host access to an address that it may not reach (R796, R798, R799; log entry 41). -/
def Dev.logHost (d : Dev) (addr : Nat) : Dev := d.log 1 5 0xFF none 0 addr

/-- Bytes that a host access covers: those of a write, or the n of a read. -/
def accessLen (wr : Option Bytes) (n : Nat) : Nat :=
  match wr with
  | some bs => bs.length
  | none => n

/-! ### PF BAR2 -/

/-- A device physical range that PF BAR2 reaches: HBM, or the populated capacity tier outside MAP_BYTES, while its domain is on. -/
def Dev.pfReaches (d : Dev) (a n : Nat) : Bool := (inHbm a n && d.domOn 21) || (d.inCap a n && d.domOn 22)

/-- The device physical address of an offset of PF BAR2 (R796). -/
def Dev.pfAt (d : Dev) (off : Nat) : Nat := d.fld Reg.HIF_PF_WIN 36 12 * 2 ^ 36 + off

/-- A host access of PF BAR2 at an offset: a read of n bytes, or a write of bytes (R796). Bytes of poisoned units read as free
values. -/
def Dev.pfBar2 (d : Dev) (off n : Nat) (wr : Option Bytes) : Dev :=
  let a := d.pfAt off
  if !d.hostOn || 64 * 2 ^ 30 < off + accessLen wr n then d
  else
    match wr with
    | some bs => if d.pfReaches a bs.length then d.hubWrite a bs else d.logHost a
    | none =>
      if d.pfReaches a n then
        let r := d.softRead a n
        (r.2.hcTouch 0 a n false).emit (.bar 0 (some r.1))
      else (d.logHost a).emit (.bar 0 none)

/-- PF_BAR2_ACCESS (R796). -/
def execPfBar2Access (off n : Nat) (wr : Option Bytes) (s : State) : Host.Outcome State Fault Refusal := s.run (·.pfBar2 off n wr)

/-! ### The BARs of a VF -/

/-- The context that VF n acts for (R797): bound, and not UNLOADED. -/
def Dev.vfCtx (d : Dev) (n : Nat) : Option Nat :=
  let x := d.fld (Reg.HIF_VF_CFG n) 0 3
  if d.domOn 21 && d.bit (Reg.HIF_VF_CFG n) 3 && d.loaded x then some x else none

/-- The register of context x at an offset of the context view (R798). -/
def vfReg (x off : Nat) : Option Nat :=
  match off with
  | 0x00 => some (Reg.TRS_CTX_STATE x)
  | 0x08 => some (Reg.TRS_CTX_STEP x)
  | 0x10 => some (Reg.CTX_CTX_STATUS x)
  | 0x18 => some (Reg.CKP_CTX_STATUS x)
  | 0x20 => some (Reg.FPU_CTX_JHEAD x)
  | 0x28 => some (Reg.FPU_CTX_JTAIL x)
  | 0x30 => some (Reg.CTX_CTX_CTRL x)
  | _ => if 0x1000 ≤ off && off < 0x3000 && off % 8 = 0 then some (Reg.CTX_FR x ((off - 0x1000) / 8)) else none

/-- A host read of the context view (R797, R798). -/
def Dev.vfRead (d : Dev) (n off : Nat) : Dev :=
  let answer := fun (e : Dev) (w : Word) => e.emit (.bar n (some (leBytes 8 w.toNat)))
  match d.vfCtx n with
  | none => answer d 0
  | some x =>
    match vfReg x off with
    | none => answer (d.logHost off) 0
    | some r => let v := d.csrRead .host r; answer v.2 v.1

/-- A host write of the context view (R797, R798). -/
def Dev.vfWrite (d : Dev) (n off : Nat) (w : Word) : Dev :=
  match d.vfCtx n with
  | none => d
  | some x =>
    if off = 0x20 then d.guard .host (Reg.FPU_CTX_JHEAD x) (·.wJhead x w)
    else if off = 0x30 then d.wCtxCtrl .host x w
    else if (vfReg x off).isSome then d
    else d.logHost off

/-- VF_BAR0_ACCESS (R798): wr is none for a read. -/
def execVfBar0Access (n off : Nat) (wr : Option Word) (s : State) : Host.Outcome State Fault Refusal :=
  s.run fun d =>
    if n = 0 || 8 < n || 0x10000 ≤ off || !d.hostOn then d
    else
      match wr with
      | none => d.vfRead n off
      | some w => d.vfWrite n off w

/-- The virtual address of an offset of a VF's context window (R799). -/
def Dev.vfAt (d : Dev) (n off : Nat) : Nat := d.fld (Reg.HIF_VF_CFG n) 34 14 * 2 ^ 34 + off

/-- A host access of the context window: translated under R736, performed for no context (R796, R799). -/
def Dev.vfBar2 (d : Dev) (n off len : Nat) (wr : Option Bytes) : Dev :=
  let va := d.vfAt n off
  match d.vfCtx n, wr with
  | none, some _ => d
  | none, none => d.emit (.bar n none)
  | some x, some bs =>
    match d.translate x .w va bs.length with
    | .error _ => d.logHost va
    | .ok ps => (d.writePieces x ps bs).hcPieces x ps false
  | some x, none =>
    match d.translate x .r va len with
    | .error _ => (d.logHost va).emit (.bar n none)
    | .ok ps =>
      let d := d.hcPieces x ps true
      if d.piecesPoisoned ps then
        let f := d.freshBytes len
        f.2.emit (.bar n (some f.1))
      else d.emit (.bar n (some (d.readPieces ps)))

/-- VF_BAR2_ACCESS (R799): a read of len bytes, or a write. -/
def execVfBar2Access (n off len : Nat) (wr : Option Bytes) (s : State) : Host.Outcome State Fault Refusal :=
  s.run fun d =>
    if n = 0 || 8 < n || 2 ^ 34 < off + accessLen wr len || !d.hostOn then d
    else d.vfBar2 n off len wr

/-- A write of HIF_VFn_CFG (R827). -/
def Dev.wVfCfg (d : Dev) (n : Nat) (w : Word) : Dev :=
  let r := Reg.HIF_VF_CFG n
  let busy := fun x => (d.ctx x).state.active
  if (d.bit r 3 && busy (d.fld r 0 3)) || busy (fieldOf w 0 3) then d.logDiscard r else d.plainWrite r w

/-- VF_CFG_WRITE (R827). -/
def execVfCfgWrite (src : Master) (n : Nat) (w : Word) (s : State) : Host.Outcome State Fault Refusal :=
  s.run fun d => if 1 ≤ n && n ≤ 8 then d.guard src (Reg.HIF_VF_CFG n) (·.wVfCfg n w) else d

/-! ### Resets and the link -/

/-- Domain 24 is reset: its registers take their reset values, and the MSI-X state of every function (R801). -/
def Dev.hifReset (d : Dev) : Dev :=
  { d with csr := mapKeep (fun off => regDomain off != 24) d.csr, msixMask := [], msixPend := [] }

/-- The MSI-X state of a VF is reset (R801): the binding and the bound context are unchanged. -/
def Dev.vfFlr (d : Dev) (n : Nat) : Dev :=
  { d with msixMask := mapKeep (fun k => k / 16 != n) d.msixMask, msixPend := mapKeep (fun k => k / 16 != n) d.msixPend }

/-- VF_FLR (R801). -/
def execVfFlr (n : Nat) (s : State) : Host.Outcome State Fault Refusal := s.run fun d => if 1 ≤ n && n ≤ 8 then d.vfFlr n else d
/-- PF_FLR (R801). -/
def execPfFlr (s : State) : Host.Outcome State Fault Refusal := s.run (·.hifReset)
/-- HOT_RESET (R801). -/
def execHotReset (s : State) : Host.Outcome State Fault Refusal := s.run (·.hifReset)
/-- HOST_LINK_DOWN (R801). -/
def execHostLinkDown (s : State) : Host.Outcome State Fault Refusal := s.run (·.hifReset)

/-- HIF_LINK after training (R793): speed 1 to 7 and 1, 2, 4, 8 or 16 lanes; another outcome cannot arise. -/
def Dev.linkUp (d : Dev) (speed width : Nat) (flit : Bool) : Dev :=
  if d.hostOn && 1 ≤ speed && speed ≤ 7 && [1, 2, 4, 8, 16].contains width then
    ((d.setFld Reg.HIF_LINK 0 3 speed).setFld Reg.HIF_LINK 8 5 width).setBit Reg.HIF_LINK 13 flit
  else d

/-- HOST_LINK_UP (R793). -/
def execHostLinkUp (speed width : Nat) (flit : Bool) (s : State) : Host.Outcome State Fault Refusal := s.run (·.linkUp speed width flit)

end Sys2Proof.Machine
end

