-- ==== Sys2Proof/Machine/Manage.lean ====
section
/-!
DEFINITION. The management responder (R818 to R822, R840, R841, R844), the identity memory (R823 to R825) and I3C bus recovery
(R826). All of it lies in domain 27 and answers in every reset but power-on (R801, R830).
-/

namespace Sys2Proof.Machine

/-! ### Responses -/

/-- The path of a response: that of its request, or SGMII in place of a FAILED I3C bus (R822, R826). -/
def Dev.answerPath (d : Dev) (path : Nat) : Nat := if path = 0 && d.i3cFailed then 1 else path

/-- Answer a request of the management responder. -/
def Dev.answer (d : Dev) (path kind code : Nat) (bs : Bytes) : Dev := d.emit (.mgmt (d.answerPath path) kind code bs)

/-- Answer a request whose response a standard outside the spec lays out: free bytes, of a free number (log entry 43). -/
def Dev.answerFree (d : Dev) (path kind : Nat) : Dev :=
  let f := d.fresh
  let b := f.2.freshBytes (f.1.toNat % 4096)
  b.2.answer path kind 0 b.1

/-- A request on one of the three paths: 0 I3C, 1 SGMII, 2 DOE (R822). -/
def onPath (path : Nat) (f : Dev → Dev) (d : Dev) : Dev := if path < 3 then f d else d

/-- MCTP_CONTROL (R820). -/
def execMctpControl (path : Nat) (s : State) : Host.Outcome State Fault Refusal := s.run (onPath path (·.answerFree path 0))
/-- PLDM_MONITORING (R820). -/
def execPldmMonitoring (path : Nat) (s : State) : Host.Outcome State Fault Refusal := s.run (onPath path (·.answerFree path 1))
/-- GET_VERSION (R821): versions 1.2 and 1.3. -/
def execGetVersion (path : Nat) (s : State) : Host.Outcome State Fault Refusal :=
  s.run (onPath path (·.answer path 5 0 [0x12, 0x13]))
/-- GET_CAPABILITIES (R821). -/
def execGetCapabilities (path : Nat) (s : State) : Host.Outcome State Fault Refusal := s.run (onPath path (·.answerFree path 6))
/-- NEGOTIATE_ALGORITHMS (R821): ECDSA P-384 and SHA-384, as DSP0274 spells the choice. -/
def execNegotiateAlgorithms (path : Nat) (s : State) : Host.Outcome State Fault Refusal := s.run (onPath path (·.answerFree path 7))
/-- GET_DIGESTS (R821): the digest of certificate slot 0, a SHA-384 over the chain of R844. -/
def execGetDigests (path : Nat) (s : State) : Host.Outcome State Fault Refusal :=
  s.run (onPath path fun d => let b := d.freshBytes 48; b.2.answer path 8 0 b.1)
/-- GET_CERTIFICATE (R844): n bytes of the chain. -/
def execGetCertificate (path n : Nat) (s : State) : Host.Outcome State Fault Refusal :=
  s.run (onPath path fun d => let b := d.freshBytes (n % 65536); b.2.answer path 9 0 b.1)
/-- CHALLENGE (R821): the answer is signed; a signature is 96 bytes. -/
def execChallenge (path : Nat) (s : State) : Host.Outcome State Fault Refusal :=
  s.run (onPath path fun d => let b := d.freshBytes 96; b.2.answer path 10 0 b.1)

/-- The DMTF value type of MRm (R841). -/
def mrType (m : Nat) : Nat :=
  match m with
  | 0 => 0 | 1 => 1 | 2 => 3 | 3 => 1 | 4 => 2 | 5 => 3 | 6 => 1 | _ => 3

/-- The measurement block of MRm: its index m + 1, its value type, and its value (R841; the framing is log entry 43). -/
def Dev.mrBlock (d : Dev) (m : Nat) : Bytes := [BitVec.ofNat 8 (m + 1), BitVec.ofNat 8 (mrType m)] ++ d.mr m

/-- The measurement blocks that a request for an index names: one, or all for 0xFF. -/
def measured (ix : Nat) : List Nat := if ix = 0xFF then upFrom 0 8 else if 1 ≤ ix && ix ≤ 8 then [ix - 1] else []

/-- GET_MEASUREMENTS (R841, R843): the blocks, and a signature of 96 free bytes. -/
def execGetMeasurements (path ix : Nat) (s : State) : Host.Outcome State Fault Refusal :=
  s.run (onPath path fun d =>
    let b := d.freshBytes 96
    b.2.answer path 11 0 ((measured ix).flatMap d.mrBlock ++ b.1))

/-! ### Firmware update (R840) -/

/-- REQUEST_UPDATE (R822, R840): refused for the booted slot, and with ALREADY_IN_UPDATE_MODE while an update is in progress. -/
def Dev.requestUpdate (d : Dev) (path slot : Nat) : Dev :=
  if d.aon.upd.isSome then d.answer path 2 2 []
  else if d.boot.slot = some slot then d.answer path 2 1 []
  else { d with aon := { d.aon with upd := some (slot, false) } }.answer path 2 0 []

/-- REQUEST_UPDATE (R840). -/
def execRequestUpdate (path slot : Nat) (s : State) : Host.Outcome State Fault Refusal :=
  s.run (onPath path fun d => if slot < 2 then d.requestUpdate path slot else d)

/-- Write bytes of a non-volatile memory that reads 0 where nothing is listed. -/
def nvPut (m : SMap Byte) (a : Nat) (bs : Bytes) : SMap Byte :=
  ((upFrom a bs.length).zip bs).foldl (fun m e => mapSet (fun _ => (0 : Byte)) m e.1 e.2) m

/-- Bytes of such a memory. -/
def nvGet (m : SMap Byte) (a n : Nat) : Bytes := (upFrom a n).map (mapGet (fun _ => (0 : Byte)) m)

/-- Update data reach the slot of the update in progress; the slot is invalid until the last byte is written (R840). -/
def Dev.storeWrite (d : Dev) (off : Nat) (data : Bytes) (last : Bool) : Dev :=
  match d.aon.upd with
  | none => d
  | some (slot, done) =>
    if done || d.boot.slot = some slot || 2 ^ 24 < off + data.length then d
    else
      let others := d.nv.writing.filter fun k => k != slot
      let nv : Nv := { d.nv with fw := nvPut d.nv.fw (slot * 2 ^ 24 + off) data, writing := if last then others else slot :: others }
      { d with nv := nv, aon := { d.aon with upd := some (slot, last) } }

/-- FIRMWARE_STORE_WRITE (R840). -/
def execFirmwareStoreWrite (off : Nat) (data : Bytes) (last : Bool) (s : State) : Host.Outcome State Fault Refusal :=
  s.run (·.storeWrite off data last)

/-- The update ends, and the other slot is booted once at the next boot; MR7 takes the activation record (R840, R841). -/
def Dev.activate (d : Dev) (path : Nat) (record : Bytes) : Dev :=
  match d.aon.upd with
  | some (_, true) =>
    let d := { d with aon := { d.aon with upd := none } }.setBit Reg.AON_FW_CTRL 1 true
    let d := if d.domOn 26 then d.mrExtend 7 (sha384 record) else d
    d.answer path 4 0 []
  | _ => d.answer path 4 1 []

/-- ACTIVATE_FIRMWARE (R840). -/
def execActivateFirmware (path : Nat) (record : Bytes) (s : State) : Host.Outcome State Fault Refusal :=
  s.run (onPath path (·.activate path record))

/-! ### Identity memory (R823 to R825) -/

/-- A writer may write a block (R823): by 0 the board controller, 1 the Bureau, 2 the host. -/
def idmWritable (by_ blk : Nat) : Bool :=
  if blk < 64 then false
  else if blk < 128 then by_ != 1
  else if blk < 192 then by_ == 1
  else decide (blk < 1024) && by_ != 1

/-- The 64 bytes of a block. -/
def Dev.idmBlock (d : Dev) (blk : Nat) : Bytes := nvGet d.nv.idm (64 * blk) 64

/-- STATUS of MGT_IDM_CMD: 0 OK, 1 BUSY, 2 PROTECTED, 3 RUNNING. -/
def Dev.idmStatus (d : Dev) (st : Nat) : Dev := d.setFld Reg.MGT_IDM_CMD 16 2 st

/-- Answer an access that is performed, to its message or to MGT_IDM_CMD. -/
def Dev.idmAnswer (d : Dev) (q : IdmAcc) : Dev :=
  let bs := if q.data.isSome then [] else d.idmBlock q.block
  match q.path with
  | some p => d.answer p 12 0 bs
  | none =>
    let d := if q.data.isSome then d
      else (upFrom 0 8).foldl (fun e k => e.setReg (Reg.MGT_IDM_DATA k) (BitVec.ofNat 64 (atLe bs (8 * k) 8))) d
    d.idmStatus 0

/-- Perform the reads at the head of the queue: the write that follows them runs. -/
def Dev.idmDrain (d : Dev) : Dev :=
  let reads := d.aon.idmQ.takeWhile fun q => q.data.isNone
  let d := reads.foldl Dev.idmAnswer d
  { d with aon := { d.aon with idmQ := d.aon.idmQ.drop reads.length } }

/-- An access joins the queue. -/
def Dev.idmJoin (d : Dev) (q : IdmAcc) : Dev := { d with aon := { d.aon with idmQ := d.aon.idmQ ++ [q] } }.idmDrain

/-- An access of the board controller waits or runs (R825). -/
def Dev.idmBoard (d : Dev) : Bool := d.aon.idmQ.any fun q => q.by_ == 0

/-- The identity memory message of a board controller (R820, R825): a read, or a write of 64 bytes. -/
def Dev.idmMessage (d : Dev) (path blk : Nat) (wr : Option Bytes) : Dev :=
  match wr with
  | some bs =>
    if !idmWritable 0 blk then d.answer path 12 1 []
    else d.idmJoin { by_ := 0, path := some path, block := blk, data := some ((bs ++ List.replicate 64 (0 : Byte)).take 64) }
  | none => d.idmJoin { by_ := 0, path := some path, block := blk % 1024, data := none }

/-- IDENTITY_MEMORY_MSG (R820, R825). -/
def execIdentityMemoryMsg (path blk : Nat) (wr : Option Bytes) (s : State) : Host.Outcome State Fault Refusal :=
  s.run (onPath path (·.idmMessage path blk wr))

/-- Who a master's command of MGT_IDM_CMD acts for (R825). -/
def idmWho (src : Master) : Nat := match src with | .mgmt => 0 | .host => 2 | _ => 1

/-- A write of MGT_IDM_CMD (R825). A command while another of the register runs is discarded (log entry 44). -/
def Dev.wIdmCmd (d : Dev) (src : Master) (w : Word) : Dev :=
  let r := Reg.MGT_IDM_CMD
  if !bitOf w 13 then d.plainWrite r w
  else if d.fld r 16 2 = 3 then d.logDiscard r
  else
    let d := d.plainWrite r w
    let who := idmWho src
    let blk := fieldOf w 0 10
    if who = 2 && d.idmBoard then (d.idmStatus 1).log 0xB 2 3 none 0 0
    else if bitOf w 12 then
      if !idmWritable who blk then d.idmStatus 2
      else
        let bs := (upFrom 0 8).flatMap fun k => leBytes 8 (d.reg (Reg.MGT_IDM_DATA k)).toNat
        (d.idmStatus 3).idmJoin { by_ := who, path := none, block := blk, data := some bs }
    else (d.idmStatus 3).idmJoin { by_ := who, path := none, block := blk, data := none }

/-- IDM_READ (R825). -/
def execIdmRead (src : Master) (w : Word) (s : State) : Host.Outcome State Fault Refusal :=
  s.run (·.guard src Reg.MGT_IDM_CMD (·.wIdmCmd src ((w ||| 0x2000) &&& ~~~ 0x1000)))
/-- IDM_WRITE (R825). -/
def execIdmWrite (src : Master) (w : Word) (s : State) : Host.Outcome State Fault Refusal :=
  s.run (·.guard src Reg.MGT_IDM_CMD (·.wIdmCmd src (w ||| 0x3000)))

/-- The write that runs is complete, and the accesses behind it go on (R825). -/
def Dev.idmDone (d : Dev) : Dev :=
  match d.aon.idmQ with
  | q :: t =>
    match q.data with
    | some bs =>
      let d := { d with nv := { d.nv with idm := nvPut d.nv.idm (64 * q.block) bs }, aon := { d.aon with idmQ := t } }
      (d.idmAnswer q).idmDrain
    | none => d
  | [] => d

/-- IDM_WRITE_COMPLETE (R825). -/
def execIdmWriteComplete (s : State) : Host.Outcome State Fault Refusal := s.run (·.idmDone)

/-! ### The I3C bus (R818, R826) -/

/-- ENTDAA gives the target its dynamic address (R818); a FAILED bus carries nothing. -/
def execEntdaa (addr : Nat) (s : State) : Host.Outcome State Fault Refusal :=
  s.run fun d => if d.i3cFailed then d else d.setFld Reg.MGT_I3C_STATUS 4 7 addr

/-- A recovery attempt starts (R826). -/
def execI3cStuckDetect (s : State) : Host.Outcome State Fault Refusal :=
  s.run fun d => if d.fld Reg.MGT_I3C_STATUS 0 2 ≤ 1 then (d.setFld Reg.MGT_I3C_STATUS 0 2 2).emit .i3cRecover else d

/-- A recovery attempt ends; high: both lines are high (R826). -/
def Dev.i3cEnd (d : Dev) (high : Bool) : Dev :=
  let r := Reg.MGT_I3C_STATUS
  if d.fld r 0 2 ≠ 2 then d
  else if high then (d.setFld r 0 2 0).setFld r 2 2 0
  else
    let n := d.fld r 2 2 + 1
    let d := d.setFld r 2 2 (min n 3)
    if 3 ≤ n then (d.setFld r 0 2 3).log 0xB 1 3 none 0 0 else d.setFld r 0 2 0

/-- I3C_RECOVERY_END (R826). -/
def execI3cRecoveryEnd (high : Bool) (s : State) : Host.Outcome State Fault Refusal := s.run (·.i3cEnd high)

/-- A write of MGT_I3C_CTRL: REARM clears FAILED when both lines are high (R826). -/
def Dev.wI3cCtrl (d : Dev) (w : Word) (high : Bool) : Dev :=
  let r := Reg.MGT_I3C_STATUS
  if !bitOf w 0 then d
  else if high then (if d.i3cFailed then (d.setFld r 0 2 0).setFld r 2 2 0 else d)
  else d.logDiscard Reg.MGT_I3C_CTRL

/-- REARM (R826): high says whether both lines are high. -/
def execRearm (src : Master) (w : Word) (high : Bool) (s : State) : Host.Outcome State Fault Refusal :=
  s.run (·.guard src Reg.MGT_I3C_CTRL (·.wI3cCtrl (w ||| 1) high))

end Sys2Proof.Machine
end

