-- ==== Sys2Proof/Machine/Domain.lean ====
section
/-!
DEFINITION. Power domains (R58 to R64, R747, R848, R849, R895): which a context uses, what a domain holds and loses when it is
powered off, and the parts that the Bureau declares failed (R770 to R773).
-/

namespace Sys2Proof.Machine

/-! ### Which contexts use a domain -/

/-- A collective group's members or a placement table's ranks lie in a bench other than the device's own (R848). -/
def Dev.benchesOut (d : Dev) (x : Nat) : Bool :=
  let far := fun n => benchOf n != benchOf d.node
  let t := (mapFind d.placeTab x).getD []
  (match d.collGroup x 0 with | some g => g.2.any far | none => false) ||
    (!t.isEmpty && (upFrom 0 (plRanks t)).any fun r => far (plNode t r))

/-- A network target or ingest region names a context (R848). -/
def Dev.netNames (d : Dev) (x : Nat) : Bool :=
  (upFrom 0 16).any fun i => netFor (d.tgt i) x || netFor (d.ing i) x

/-- Context x, if it is loaded, uses domain n (R848). -/
def Dev.uses (d : Dev) (x n : Nat) : Bool :=
  let p := (d.ctx x).plan
  d.loaded x &&
    (if n < 16 then (planClusters p).any fun e => e.cl / 8 == n
    else if n < 18 then (planClusters p).any fun e => e.cl / 64 == n - 16
    else if n < 20 then decide (1 < planDevices p)
    else match n with
      | 20 => (planFind p 8).isSome
      | 22 => (planFind p 11).isSome || (upFrom 0 64).any fun k => d.bit (Reg.CHEST_NS_INFO k) 2 && d.fld (Reg.CHEST_NS_INFO k) 3 3 == x
      | 23 => d.netNames x
      | 25 => d.benchesOut x
      | _ => n == 21 || n == 24 || n == 26 || n == 27)

/-- Some loaded context uses a domain. -/
def Dev.inUse (d : Dev) (n : Nat) : Bool := allCtxs.any fun x => d.uses x n

/-- The prerequisite of a domain (R848). -/
def prereq (n : Nat) : Option Nat :=
  if n < 16 then some (16 + n / 8) else if n = 18 || n = 19 || n = 20 || n = 22 || n = 23 then some 21 else none

/-- The domains whose prerequisite a domain is. -/
def dependents (n : Nat) : List Nat := (upFrom 0 27).filter fun k => prereq k == some n

/-- The contexts that use a domain freeze before the always-on controller powers it off or resets it (R747). -/
def Dev.freezeUsers (d : Dev) (n : Nat) : Dev :=
  allCtxs.foldl (fun e x => if d.uses x n && (e.ctx x).state.active then e.freeze x 0xB n 0 0 0 0 else e) d

/-! ### Physical slots (R29 to R33) -/

/-- The position that the spare of a pair replaces, by the spare map in force (R34). -/
def Dev.spareOf (d : Dev) (pair : Nat) : Option Nat :=
  let r := Reg.BUR_SPARE_MAP (pair / 4)
  if d.bit r (8 * (pair % 4) + 4) then some (d.fld r (8 * (pair % 4)) 4) else none

/-- The physical slot that serves logical cluster c: its regular slot, 0 to 127, or the spare of its pair, 128 + pair (R32). -/
def Dev.slotOf (d : Dev) (c : Nat) : Nat := if d.spareOf (c / 16) = some (c % 16) then 128 + c / 16 else c

/-- Physical slot k. -/
def Dev.physSlot (d : Dev) (k : Nat) : PhysSlot := mapGet (fun _ => {}) d.slots k

/-- The slots that serve a group's clusters are powered and clocked with it, or neither; every other slot is unpowered, its clock
stopped (R32, R33). -/
def Dev.slotsTo (d : Dev) (g : Nat) (on : Bool) : Dev :=
  let one := fun (m : SMap PhysSlot) c => mapSet (fun _ => {}) m (d.slotOf c) { power := on, clock := on }
  { d with slots := (upFrom (8 * g) 8).foldl one d.slots }

/-! ### What a domain holds -/

/-- The registers of a domain take their reset values; BUR_DEV_ID and the other registers of domain 27 stay (R62, R895). -/
def Dev.regsOff (d : Dev) (n : Nat) : Dev :=
  { d with
    csr := mapKeep (fun off => regDomain off != n) d.csr
    run := mapKeep (fun off => regDomain off != n) d.run }

/-- Memory from lo to below hi holds nothing written, and no mark. -/
def Dev.memOff (d : Dev) (lo hi : Nat) : Dev :=
  let out := fun a => !(decide (lo ≤ a) && decide (a < hi))
  { d with mem := mapKeep out d.mem, poison := mapKeep out d.poison }

/-- A cluster group loses its clusters, scratchpads and PLL, and the work of its engines. -/
def Dev.groupOff (d : Dev) (g : Nat) : Dev :=
  let mine := fun c => c / 8 == g
  let d := { d.slotsTo g false with
    clus := mapKeep (fun c => !mine c) d.clus
    seqs := mapKeep (fun k => !mine (k / 8)) d.seqs
    plls := mapPut d.plls g none
    descs := d.descs.filter fun q => !(mine q.cl && decide (kindQueue q.kind ≤ 2)) }
  d.memOff (0x200000000000 + g * 8 * 0x1000000) (0x200000000000 + (g + 1) * 8 * 0x1000000)

/-- A router half goes off with its ports (R58, R62): they go DOWN, the packets in its input regions are lost, and so are the
combining entries at its outputs and the multicast entries of packets that came in by it (log entry 108). -/
def Dev.portsOff (d : Dev) (ps : List Nat) : Dev :=
  let d := ps.foldl Dev.portDown d
  let mine := fun (p : Option Nat) => p.any fun n => ps.contains n
  { d with
    rtr := d.rtr.filter (fun p => !mine p.port)
    combine := d.combine.filter (fun e => !ps.contains e.2.port)
    mcast := d.mcast.filter (fun e => !mine e.port) }

/-- An engine of the hub loses the descriptors of its queue. -/
def Dev.queueOff (d : Dev) (lo hi : Nat) : Dev :=
  let mine := fun (q : Desc) => decide (lo ≤ kindQueue q.kind) && decide (kindQueue q.kind ≤ hi)
  { d with jobs := d.jobs.filter fun j => !mine j.desc, descs := d.descs.filter fun q => !mine q }

/-- The state of domain n that is no register is lost (R58, R62). -/
def Dev.unitOff (d : Dev) (n : Nat) : Dev :=
  if n < 16 then d.groupOff n
  else match n with
    | 18 => d.portsOff (upFrom 0 8 ++ upFrom 16 8)
    | 19 => d.portsOff (upFrom 8 8 ++ upFrom 24 8)
    | 20 => { d.queueOff 4 4 with biasWritten := [], placeTab := [], placePend := [] }
    | 21 =>
      let leave := fun (e : Dev) x => (e.release x).setReg (Reg.TIER_CTX_STATE x) 0
      let d := (((allCtxs.filter d.loaded).foldl leave d).queueOff 3 3).memOff 0 0x6000000000

      let idle := fun (k : Cluster) => { k with seq := .idle, staged := [], wait := none, waitOk := false, fetch := [] }
      { d with
        clus := mapVals (fun _ => {}) idle d.clus
        ctxs := [], objs := [], syncQ := [], trks := [], trkGen := [], lwrites := [], cabRec := [], cache := [], colls := []
        collSeq := [], staged := [], parked := [], cabPend := [], mcast := d.mcast.filter (fun e => e.port.isSome)
        disc := none, swingNow := none, swingMsg := none }

    | 22 =>
      { (d.queueOff 5 5).memOff 0x100000000000 0x200000000000 with tierEnts := [], prefetch := [], nsCmd := none }
    | 23 =>
      let d := (d.snaps.flatMap fun e => e.2.early).foldl (fun e p => e.ckpBack p.2) ((d.queueOff 6 6).dropMsgs fun _ => true)
      { d with qps := [], netPause := [], netStage := [], snaps := [], restore := none, netWait := [] }
    | 24 => { d with msixMask := [], msixPend := [] }
    | 25 => (upFrom 16 16).foldl Dev.portDown d
    | 26 =>
      { d with planCmd := none, placeCmd := none, boot := { d.boot with slot := none }, aon := { d.aon with ues := [] } }
    | _ => d

/-- Power a domain off: it holds no state (R62). -/
def Dev.domOff (d : Dev) (n : Nat) : Dev :=
  if 27 ≤ n then d
  else
    let d := ((d.unitOff n).regsOff n).setBit Reg.PWR_DOMAIN_STATUS n false
    { d with boot := { d.boot with rising := d.boot.rising.erase n } }

/-- A domain begins to rise (R849); after a thermal shutdown none does until a cold reset (R856). -/
def Dev.rise (d : Dev) (n : Nat) : Dev :=
  if d.domOn n || d.boot.rising.contains n || d.bit Reg.AON_THERM 16 then d else { d with boot := { d.boot with rising := d.boot.rising ++ [n] } }

/-- A port of a domain that has come on trains while it may (R592, R895). -/
def Dev.trainPorts (d : Dev) : Dev :=
  (upFrom 0 32).foldl (fun e n => if e.portState n = 0 && e.portEnabled n then e.setPort n 1 else e) d

/-- The configuration that the Bureau set at boot in a domain's registers is written again (R895). -/
def Dev.reconfigure (d : Dev) (n : Nat) : Dev :=
  (d.boot.cfg.filter fun e => regDomain e.1 == n).foldl (fun e c => e.plainWrite c.1 c.2) d

/-- What the software-writable fields of the registers hold as power-up ends: the configuration of R895. -/
def Dev.keepConfig (d : Dev) : Dev :=
  let of := fun (e : Nat × Word) => (regAt e.1).map fun r => (e.1, e.2 &&& BitVec.ofNat 64 r.rw)
  { d with boot := { d.boot with cfg := (d.csr.filterMap of).filter fun e => decide (regDomain e.1 < 26) } }

/-- A domain is usable. FAB_NODE is written as domain 21 comes on (R824), the Bureau's boot configuration is written again (R895), and
the PLL of a group has locked. -/
def Dev.domUp (d : Dev) (n : Nat) : Dev :=
  let d := { d with boot := { d.boot with rising := d.boot.rising.erase n } }.setBit Reg.PWR_DOMAIN_STATUS n true
  let d := d.reconfigure n
  if n < 16 then (d.slotsTo n true).setPll n .locked
  else if n = 21 then d.setFld Reg.FAB_NODE 0 16 (leNat (nvGet d.nv.idm 4096 2))
  else if n = 18 || n = 19 || n = 25 then d.trainPorts
  else d

/-! ### Parts that fail (R770 to R773) -/

/-- The pair of a cluster, 4d + p, and its position in it (R29, R31). -/
def pairOf (c : Nat) : Nat × Nat := (c / 16, c % 16)

/-- The row of an HBM address in its channel: 1 KiB (log entry 45). -/
def hbmRow (a : Nat) : Nat := hbmOffset a / 1024

/-- The part that an uncorrectable error names, and what has to differ for a second to count: a word of a cluster's SRAM, or a row
of an HBM channel (R770). -/
def ueKey (a : Nat) : (Nat × Nat) × Nat :=
  if 0x200000000000 ≤ a then ((0, (a - 0x200000000000) / 0x1000000), a / 8)
  else ((1, (hbmChannel a).1 * 32 + (hbmChannel a).2), hbmRow a)

/-- 24 hours in hub cycles. -/
def day : Nat := 24 * 3600 * 1600000000

/-- The parts with two uncorrectable errors at two distinct words or rows within 24 hours, not declared since the cold reset: a part
that its spare serves can fail again (R34, R771). -/
def Dev.failing (d : Dev) : List (Nat × Nat) :=
  let us := d.aon.ues
  (us.filter fun e => us.any fun f =>
      (ueKey e.2).1 == (ueKey f.2).1 && (ueKey e.2).2 != (ueKey f.2).2 && decide (e.1 ≤ f.1) && decide (f.1 ≤ e.1 + day)).foldl
    (fun l e => let k := (ueKey e.2).1; if d.boot.declared.contains k || l.contains k then l else l ++ [k]) []

/-- The class of a part and whether its spare is in use: a group pair or a stack (R771). -/
def Dev.exhausted (d : Dev) (k : Nat × Nat) : Bool :=
  if k.1 = 0 then d.bit Reg.AON_RAS_STATUS (k.2 / 16) else d.bit Reg.AON_RAS_STATUS (8 + k.2 / 32)

/-- The class of a part. -/
def classOf (k : Nat × Nat) : Nat × Nat := (k.1, if k.1 = 0 then k.2 / 16 else k.2 / 32)

/-- The repair record takes a part; its layout in blocks 128 to 191 is not given, so those bytes are free (log entry 45). -/
def Dev.record (d : Dev) (ks : List (Nat × Nat)) : Dev :=
  if ks.isEmpty then d
  else
    let f := d.freshBytes 4096
    { f.2 with nv := { f.2.nv with repair := f.2.nv.repair ++ ks, idm := nvPut f.2.nv.idm 8192 f.1 } }

/-- The Bureau declares parts failed on its evidence (R770, R771): a further failure in an exhausted class fences the device, and so
do two declared at once (R773). -/
def Dev.declare (d : Dev) : Dev :=
  let ks := d.failing
  if ks.isEmpty || !d.domOn 26 || d.boot.slot.isNone then d
  else
    let twice := ks.any fun k => decide (1 < (ks.filter fun j => classOf j == classOf k).length)
    let worn := ks.any d.exhausted
    let d := d.record ks
    let d := { d with boot := { d.boot with declared := d.boot.declared ++ ks } }
    if twice || worn then d.fence else d

/-- One hub cycle with no command waiting: Trestle time counts, and the Bureau weighs its evidence (log entries 2 and 45). -/
def Dev.idle (d : Dev) : Dev := d.tick.declare

end Sys2Proof.Machine
end

