-- ==== Sys2Proof/Machine/Cycle.lean ====
section
/-!
DEFINITION. One hub cycle in which no command runs: what the block does in it by itself.
-/

namespace Sys2Proof.Machine

/-- One hub cycle with no command waiting (log entry 2): Trestle time counts and the Bureau weighs its evidence, and the Cabinet requests,
inbound writes and snapshot messages that wait for a buffer or a tracker ask again (R532 to R534), and the Nonex ports send what
waits (R593). -/
def Dev.cycle (d : Dev) : Dev := d.idle.cabCycle.ingestAgain.snapsGo.linkCycle

end Sys2Proof.Machine
end

