-- ==== Sys2Proof/Machine/Place.lean ====
section
/-!
DEFINITION. Placement commands (R323 to R329): STAGE and CANCEL, their checks, and the step of a swap.
-/

namespace Sys2Proof.Machine

/-- The private copy that the Bureau takes of a staged table (R325), where ADDR and SIZE let it (check 0x04 of R326). -/
def Dev.tableCopy (d : Dev) (addr : Nat) : Option Bytes × Dev :=
  if addr % 64 ≠ 0 || !inHbm addr 64 then (none, d)
  else
    let h := d.softRead addr 64
    let n := atLe h.1 8 4
    if n < 64 || n % 64 ≠ 0 || 64 * 2 ^ 20 < n || !inHbm addr n then (none, h.2)
    else
      let r := h.2.softRead (addr + 64) (n - 64)
      (some (h.1 ++ r.1), r.2)

/-- A write of BUR_PLACE_CTRL (R324 to R327, R833). -/
def Dev.wPlaceCtrl (d : Dev) (src : Master) (w : Word) : Dev :=
  let r := Reg.BUR_PLACE_CTRL
  d.guard src r fun d =>
    if !d.bit Reg.BUR_STATUS 0 || d.bit Reg.BUR_PLACE_STATUS 19 then d.logDiscard r
    else
      let d := d.plainWrite r w
      let kind := fieldOf w 56 2
      if kind = 0 then d
      else
        let x := fieldOf w 48 3
        let t := if kind = 1 then d.tableCopy (fieldOf w 0 48) else (none, d)
        let step := (d.reg Reg.BUR_PLACE_SWAP).toNat
        let c : PlaceCmd :=
          { kind := kind, ctx := x, addr := fieldOf w 0 48, step := step, late := decide (step ≤ (d.ctx x).step.toNat), table := t.1 }
        { t.2.setBit Reg.BUR_PLACE_STATUS 19 true with placeCmd := some c }

/-- STAGE (R326). -/
def execStage (src : Master) (w : Word) (s : State) : Host.Outcome State Fault Refusal := s.run (·.wPlaceCtrl src w)
/-- CANCEL (R326). -/
def execCancel (src : Master) (w : Word) (s : State) : Host.Outcome State Fault Refusal := s.run (·.wPlaceCtrl src w)

/-- Check 0x05: the shape of a staged table differs from the active one (R326). -/
def shapeBad (t a : Bytes) : Bool :=
  plRanks t != plRanks a || plSelf t != plSelf a || plLayers t != plLayers a ||
    (upFrom 0 (plRanks a)).any (fun r => plNode t r != plNode a r) ||
    (upFrom 0 (plLayers a)).any fun l => plE t l != plE a l || plGs t l != plGs a l

/-- The first check that a placement command fails, with DETAIL; 0 when it is performed (R326). -/
def Dev.placeCheck (d : Dev) (c : PlaceCmd) : Nat × Nat :=
  let k := d.ctx c.ctx
  let pend := (mapFind d.placePend c.ctx).isSome
  if c.kind = 3 then (1, 0)
  else if k.state = .unloaded || k.state = .frozen || (planFind k.plan 9).isNone then (2, 0)
  else if pend = (c.kind == 1) then (3, 0)
  else if c.kind = 2 then (if c.late then 7 else 0, 0)
  else
    match c.table with
    | none => (4, 0)
    | some t =>
      if crc32c (zeroedAt t 0xC 4) ≠ atLe t 0xC 4 then (4, 0)
      else if shapeBad t (d.placement c.ctx) then (5, 0)
      else
        match leastOf (badTable t (planDevices k.plan) d.node t.length) with
        | some o => (6, o)
        | none => (if c.late then 7 else 0, 0)

/-- A placement command completes (R326 to R328, R841). -/
def Dev.placeDone (d : Dev) : Dev :=
  match d.placeCmd with
  | none => d
  | some c =>
    let r := d.placeCheck c
    let x := c.ctx
    let d :=
      if r.1 ≠ 0 then d
      else
        match c.kind, c.table with
        | 1, some t =>
          ({ d with placePend := mapPut d.placePend x (some (c.step, t)) }.setReg (Reg.DRS_CTX_PLACE_SWAP x)
            (BitVec.ofNat 64 (c.step % 2 ^ 63 + 2 ^ 63))).mrExtend 7 (sha384 t)
        | _, _ => { d with placePend := mapPut d.placePend x none }.setReg (Reg.DRS_CTX_PLACE_SWAP x) 0
    { d.setReg Reg.BUR_PLACE_STATUS (BitVec.ofNat 64 (r.1 % 256 + x % 8 * 2 ^ 16 + r.2 % 2 ^ 32 * 2 ^ 32)) with placeCmd := none }.ctxEvent x

/-- PLACE_CMD_COMPLETE (R326, R802). -/
def execPlaceCmdComplete (s : State) : Host.Outcome State Fault Refusal := s.run Dev.placeDone

/-- A write of BUR_PLACE_SWAP (R324). -/
def Dev.wPlaceSwap (d : Dev) (src : Master) (w : Word) : Dev :=
  let r := Reg.BUR_PLACE_SWAP
  d.guard src r fun d => if d.bit Reg.BUR_PLACE_STATUS 19 then d.logDiscard r else d.plainWrite r w

/-- PLACE_SWAP_WRITE (R324). -/
def execPlaceSwapWrite (src : Master) (w : Word) (s : State) : Host.Outcome State Fault Refusal := s.run (·.wPlaceSwap src w)

end Sys2Proof.Machine
end

