-- ==== Sys2Proof/Machine/Boot.lean ====
section
/-!
DEFINITION. Resets and the power-up sequence (R828 to R840, R846), in the events of the table of R832: each event does what the
table and the rules it cites state, and starts the domains that the next event waits for.
-/

namespace Sys2Proof.Machine

/-- Write a stage of the power-up sequence. -/
def Dev.setStage (d : Dev) (n : Nat) : Dev := { d with boot := { d.boot with stage := n } }

/-- PHASE of BUR_STATUS (R832). -/
def Dev.setPhase (d : Dev) (n : Nat) : Dev := d.setFld Reg.BUR_STATUS 8 8 n

/-- Domains 0 to 26 are powered off. -/
def Dev.allOff (d : Dev) : Dev := (upFrom 0 27).foldl Dev.domOff d

/-! ### Resets -/

/-- Power-on reset (R828): every register at its reset value; the package keeps its non-volatile memories, the Chest's flash, the
fuses and the fields kept in the firmware store. -/
def Dev.powerOn (d : Dev) : Dev :=
  let fw := d.reg Reg.AON_FW_CTRL
  ({ nv := d.nv, chest := { d.chest with since := 0 }, out := d.out, freeCtr := d.freeCtr } : Dev).setReg Reg.AON_FW_CTRL fw

/-- PWR_GOOD_RISE (R828): PERST# is asserted until PERST_DEASSERT. -/
def execPwrGoodRise (s : State) : Host.Outcome State Fault Refusal := s.run fun d => if d.boot.pwrGood then d else d.powerOn

/-- The flash writes that are in progress: those of the CWRITE commands. -/
def Dev.inFlight (d : Dev) : List (Nat × Nat) :=
  (d.descs.filter fun q => q.kind == 0x38 && tierOp q.bytes == 6).map fun q => (q.cl, q.ea)

/-- PWR_GOOD_FALL (R881): no flash program or erase is issued any more, and those in progress finish. -/
def execPwrGoodFall (s : State) : Host.Outcome State Fault Refusal :=
  s.run fun d =>
    if d.boot.pwrGood then { d with boot := { d.boot with pwrGood := false, flight := d.inFlight } } else d

/-- A sensor reads a temperature or more, in degrees Celsius. -/
def Dev.anyAt (d : Dev) (t : Int) : Bool :=
  (upFrom 0 34).any fun k => decide (t * 16 ≤ toSigned 16 (d.fld (Reg.AON_TEMP (k / 4)) (16 * (k % 4)) 16))

/-- A cold reset (R828, R829, R831): domains 0 to 26 lose their state, and domain 27 the state that R829 lists. HIF of VFs and the
booted slot go with them; the sequence starts again when PERST# is high. -/
def Dev.coldReset (d : Dev) : Dev :=
  let d := d.allOff
  let d := (upFrom 0 8).foldl (fun e m => (upFrom 0 6).foldl (fun g k => g.setReg (Reg.AON_MR_W m k) 0) e) d
  let d := ((d.setReg Reg.AON_ECC_CE 0).setReg Reg.AON_ECC_UE 0).setReg Reg.PWR_WAKE 0
  let d := (d.setReg (Reg.BUR_SPARE_MAP 0) 0).setReg (Reg.BUR_SPARE_MAP 1) 0
  let d := ((d.setFld Reg.AON_RAS_STATUS 16 4 0).setFld Reg.AON_RAS_STATUS 24 32 0).setBit Reg.AON_THERM 16 false
  let d := if d.i3cFailed then (d.setFld Reg.MGT_I3C_STATUS 0 2 0).setFld Reg.MGT_I3C_STATUS 2 2 0 else d
  let d := ((d.setBit Reg.PWR_DOMAIN_STATUS 28 false).setBit Reg.AON_OP_STATUS 16 false).unsync
  { d with
    boot := { d.boot with
      stage := if d.boot.perst then 0 else 1, slot := none, restart := false, coldWait := false, rising := [], cfg := [], declared := [] }
    slots := []
    aon := { d.aon with op := none, thermtrip := false }
    windows := [] }

/-- A cold reset is requested: it waits while a sensor reads 85 degrees or more (R856). -/
def Dev.coldRequest (d : Dev) : Dev :=
  if d.anyAt 85 then { d with boot := { d.boot with coldWait := true } } else d.coldReset

/-- PERST_ASSERT (R830). -/
def execPerstAssert (s : State) : Host.Outcome State Fault Refusal :=
  s.run fun d => if d.boot.perst then d else ({ d with boot := { d.boot with perst := true } } : Dev).coldRequest

/-- PERST_DEASSERT (R832): the sequence starts, unless a cold reset waits. -/
def execPerstDeassert (s : State) : Host.Outcome State Fault Refusal :=
  s.run fun d =>
    if !d.boot.perst || !d.boot.pwrGood then d
    else
      let d := { d with boot := { d.boot with perst := false } }
      if d.boot.coldWait then d else d.setStage 1

/-- A Bureau restart (R846): the contexts freeze, and domain 26 is reset; slot selection follows. -/
def Dev.bureauRestart (d : Dev) : Dev :=
  let d := allCtxs.foldl (fun e x => if (e.ctx x).state.active then e.freeze x 0xB 26 0 0 0 0 else e) d
  let n := satAdd 16 (d.fld Reg.BUR_STATUS 16 16) 1
  let d := ((d.unitOff 26).regsOff 26).setFld Reg.BUR_STATUS 16 16 n
  ({ d with boot := { d.boot with slot := none, restart := true } } : Dev).log 0xA 5 0xFF none 0 (d.fld Reg.AON_FW_CTRL 0 1)

/-! ### The sequence up to the Bureau -/

/-- HUB_PLL_LOCK (R832): domains 16, 17, 24 and 26 are powered. -/
def execHubPllLock (s : State) : Host.Outcome State Fault Refusal :=
  s.run fun d =>
    if d.boot.stage = 1 && d.boot.pwrGood then ([16, 17, 24, 26].foldl Dev.domUp { d with hubLocked := true }).setStage 2 else d

/-- The spare map of die half d: for each pair in which a cluster failed, its position (R31, R35). -/
def spareMap (failed : List Nat) (die : Nat) : Nat :=
  (upFrom 0 4).foldl
    (fun v p =>
      match failed.find? fun c => c / 16 == 4 * die + p with
      | some c => v + (c % 16 + 16) * 256 ^ p
      | none => v) 0

/-- Self test is complete (R832, R834): bad names the physical slots that fail, 0 to 127 the regular slots of the clusters and
128 + 4d + p the spare of a pair. A pair fences the device when it lost two regular slots, or one and its spare. -/
def Dev.bistDone (d : Dev) (bad : List Nat) : Dev :=
  if d.boot.stage ≠ 2 then d
  else
    let old := (d.nv.repair.filter fun k => k.1 == 0).map Prod.snd
    let new := (upFrom 0 128).filter fun c => bad.contains c && !old.contains c
    let failed := (old ++ new).filter fun c => decide (c < 128)
    let d := d.record (new.map fun c => (0, c))
    let d := (upFrom 0 2).foldl (fun e k => e.setReg (Reg.BUR_SPARE_MAP k) (BitVec.ofNat 64 (spareMap failed k))) d
    let lost := fun pr => (failed.filter fun c => c / 16 == pr).length
    let d := (upFrom 0 8).foldl
      (fun e pr => if 0 < lost pr then e.rasSet pr else e.setBit Reg.AON_RAS_STATUS pr false) d
    let dead := (upFrom 0 8).any fun pr => decide (1 < lost pr) || (decide (0 < lost pr) && bad.contains (128 + pr))
    (if dead then d.fence else d).setStage 3

/-- CLUSTER_BIST_DONE (R832). -/
def execClusterBistDone (bad : List Nat) (s : State) : Host.Outcome State Fault Refusal := s.run (·.bistDone bad)

/-! ### Firmware slots (R835 to R837) -/

/-- Bytes of a slot. -/
def Dev.slotBytes (d : Dev) (slot off n : Nat) : Bytes := nvGet d.nv.fw (slot * 2 ^ 24 + off) n

/-- The fused SVN. -/
def Dev.svnFused (d : Dev) : Nat := d.fld Reg.AON_FW_CTRL 32 7

/-- A slot is valid (R836, R840). -/
def Dev.slotValid (d : Dev) (slot : Nat) : Bool :=
  let h := d.slotBytes slot 0 4096
  let len := atLe h 8 4
  let key := (h.drop 0x50).take 97
  !d.nv.writing.contains slot && atLe h 0 4 == 0x57464E43 && decide (atLe h 7 1 < 2) && zeroAt h 0x11 15 && zeroAt h 0xB1 15 &&
    zeroAt h 0x120 3808 && decide (1 ≤ len) && decide (len ≤ 16773120) && sha384 key == d.nv.rootHash &&
    ecdsaOk key ((h.drop 0xC0).take 96) (sha384 (h.take 0xC0)) && decide (d.svnFused ≤ atLe h 0xC 1) && decide (atLe h 0xC 1 ≤ 63) &&
    sha384 (d.slotBytes slot 0x1000 len) == (h.drop 0x20).take 48

/-- Fields of AON_FW_CTRL. -/
def Dev.fwActive (d : Dev) : Nat := d.fld Reg.AON_FW_CTRL 0 1

/-- The choice of a slot (R837), none where neither is valid; each slot found invalid is logged, and so is a fallback. -/
def Dev.chooseSlot (d : Dev) : Option Nat × Dev :=
  let r := Reg.AON_FW_CTRL
  let a := d.fwActive
  let b := 1 - a
  let bad := fun (e : Dev) k => e.log 0xA 1 0xFF none 0 k
  let trial := d.bit r 1
  let va := d.slotValid a
  let vb := d.slotValid b
  let d := d.setBit r 1 false
  if trial && vb then (some b, d.setBit r 2 true)
  else
    let d := if trial then bad d b else d
    if va then (some a, d)
    else
      let d := bad d a
      if vb then (some b, ((d.setFld r 0 1 b).setBit r 3 true).log 0xA 2 0xFF none 0 b)
      else (none, if trial then d else bad d b)

/-- The digest of the boot ROM, which the spec does not give (log entry 5). -/
def romDigest : Bytes := (upFrom 0 48).map Config.romByte

/-- MR0 to MR2 at a boot of a slot (R841). -/
def Dev.measureBoot (d : Dev) (slot : Nat) : Dev :=
  let h := d.slotBytes slot 0 0xC0
  let svn := BitVec.ofNat 8 d.svnFused
  let d := (d.mrExtend 0 romDigest).mrExtend 0 (sha384 (d.nv.rootHash ++ [svn, d.nv.lifecycle]))
  let d := d.mrExtend 1 ((h.drop 0x20).take 48)
  let flag := fun i => BitVec.ofNat 8 (d.bit Reg.AON_FW_CTRL i).toNat
  (d.mrExtend 2 (sha384 h)).mrExtend 2 (sha384 [BitVec.ofNat 8 slot, flag 2, flag 3, svn])

/-- BUR_FW_STATUS of a booted slot. -/
def Dev.showSlot (d : Dev) (slot : Nat) : Dev :=
  let h := d.slotBytes slot 0 0x20
  let f := Reg.AON_FW_CTRL
  d.setReg Reg.BUR_FW_STATUS
    (BitVec.ofNat 64 (slot + (d.bit f 2).toNat * 2 + (d.bit f 3).toNat * 4 + atLe h 4 3 * 2 ^ 8 + atLe h 0xD 2 * 2 ^ 32 + atLe h 0xF 2 * 2 ^ 48))

/-- The restarted Bureau ends HOLD of every frozen context and unloads every LOADED, STOPPED or DONE one (R846). -/
def Dev.restartClean (d : Dev) : Dev :=
  allCtxs.foldl
    (fun e x =>
      match (e.ctx x).state with
      | .frozen => if e.inHold x then e.endHold x else e
      | .loaded | .stopped | .done => e.unloadRun x
      | _ => e) d

/-- The boot ROM has selected a slot, verified and measured it, and releases the Bureau (R832, R837, R841, R846). -/
def Dev.slotSelect (d : Dev) : Dev :=
  if !d.domOn 26 || !(d.boot.stage = 3 || (d.boot.restart && d.boot.slot.isNone)) then d
  else
    let c := d.chooseSlot
    let d := c.2
    match c.1 with
    | none => (d.allOff).setStage 9
    | some k =>
      let d := (d.measureBoot k).showSlot k
      let d := { d with boot := { d.boot with slot := some k, released := d.time.toNat } }
      if d.boot.restart then (d.setPhase 1).restartClean.restartEnd
      else ((d.mrExtend 4 (sha384 (nvGet d.nv.idm 4096 8192))).setPhase 1).setStage 4

/-- FIRMWARE_SLOT_SELECT (R837). -/
def execFirmwareSlotSelect (s : State) : Host.Outcome State Fault Refusal := s.run (·.slotSelect)

/-! ### The sequence after the Bureau -/

/-- The Bureau loads training microcode that the spec does not give: MR3 is free from then on (R841; log entry 5). -/
def Dev.measureMicro (d : Dev) : Dev :=
  let f := d.freshBytes 48
  (upFrom 0 6).foldl (fun e k => e.setReg (Reg.AON_MR_W 3 k) (BitVec.ofNat 64 (atLe f.1 (8 * k) 8))) f.2

/-- The command that switched a domain on is complete. -/
def Dev.endRise (d : Dev) (n : Nat) : Dev :=
  if d.bit Reg.PWR_DOMAIN_STATUS 28 && d.fld Reg.PWR_DOMAIN_STATUS 40 5 == n then d.setBit Reg.PWR_DOMAIN_STATUS 28 false else d

/-- The stacks take their spares in the power-up sequence, and a stack that lost two channels fences the device (R771, R832). -/
def Dev.stackSpares (d : Dev) (lost : Nat → Nat) (bad : List Nat) : Dev :=
  let d := (upFrom 0 8).foldl
    (fun e s => if 0 < lost s then e.rasSet (8 + s) else e.setBit Reg.AON_RAS_STATUS (8 + s) false) d
  let dead := (upFrom 0 8).any fun s => decide (1 < lost s) || (decide (0 < lost s) && bad.contains (32 * s + 31))
  let d := ((if dead then d.fence else d).setPhase 2).setStage 5
  (upFrom 0 16 ++ [20]).foldl Dev.rise d

/-- HBM is trained (R832, R834), in the power-up sequence or as domain 21 comes on again (R849): bad names physical channels
32s + i, channel 31 of a stack its spare. A channel that fails later is declared failed, for the next cold reset (R770, R771). -/
def Dev.hbmDone (d : Dev) (bad : List Nat) : Dev :=
  let boot := d.boot.stage = 4
  if !(boot || d.boot.rising.contains 21) then d
  else
    let old := (d.nv.repair.filter fun k => k.1 == 1).map Prod.snd
    let new := (upFrom 0 256).filter fun c => bad.contains c && !old.contains c && c % 32 != 31
    let lost := fun s => ((old ++ new).filter fun c => c / 32 == s).length
    let d := (((d.domUp 21).measureMicro.record (new.map fun c => (1, c))).endRise 21)
    if boot then d.stackSpares lost bad
    else if new.any (fun c => d.exhausted (1, c) || decide (1 < (new.filter fun e => e / 32 == c / 32).length)) then d.fence
    else d

/-- HBM_TRAINING_DONE (R832). -/
def execHbmTrainingDone (bad : List Nat) (s : State) : Host.Outcome State Fault Refusal := s.run (·.hbmDone bad)

/-- The flash that a Chest finds on its channels (R817): dies per channel, blocks per die, units per block, ENDURANCE_K, and the
mask of the channels that carry no flash or whose dies report another parameter page. -/
def Dev.chestStart (d : Dev) (dies bpd upb endur wrong : Nat) : Dev :=
  let raw := 32 * dies * bpd * upb * 65536
  if leNat (nvGet d.nv.idm 4099 1) ≠ 1 then d
  else if wrong ≠ 0 || raw < 8000000000000 || 64000000000000 < raw || d.capSize = 0 then d.log 0xC 2 12 none 0 (wrong % 2 ^ 32)
  else
    let same := d.chest.dies = dies && d.chest.bpd = bpd && d.chest.upb = upb
    let c := if same then d.chest else ({ dies := dies, bpd := bpd, upb := upb } : Chest)
    let c := { c with usable := if c.usable = 0 then c.computeU else c.usable }
    let d := (({ d with chest := c } : Dev).setFld Reg.CHEST_CFG 16 16 endur).setFld Reg.CHEST_STATUS 0 3 1
    d.setFld Reg.TIER_CAP_CFG 40 8 d.chest.mapGib

/-- Capacity training is complete (R542, R543, R832), in the power-up sequence or as domain 22 comes on again (R849): bad is the
mask of the channels that fail. -/
def Dev.capDone (d : Dev) (bad dies bpd upb endur wrong : Nat) : Dev :=
  let boot := d.boot.stage = 6
  if !(boot || d.boot.rising.contains 22) then d
  else
    let code := leNat (nvGet d.nv.idm 4098 1)
    let old := (d.nv.repair.filter fun k => k.1 == 2).map Prod.snd
    let new := (upFrom 0 32).filter fun k => bitsOf bad k 1 == 1 && !old.contains k
    let failed := bad % 2 ^ 32 ≠ 0
    let ok := 1 ≤ code && code ≤ 4
    let d := ((d.domUp 22).endRise 22).record (new.map fun k => (2, k))
    let d := (d.setBit Reg.TIER_CAP_CFG 3 failed).setFld Reg.TIER_CAP_CFG 8 32 bad
    let d := if failed || !old.isEmpty then d.rasSet 17 else d
    let d := if failed || !ok then d.log 0xC 1 12 none 0 (bad % 2 ^ 32) else d
    let d := if ok && !failed && old.isEmpty then d.setFld Reg.TIER_CAP_CFG 0 3 code else d
    let d := d.chestStart dies bpd upb endur wrong
    if boot then [18, 19, 23, 25].foldl Dev.rise ((d.setPhase 4).setStage 7) else d

/-- CAPACITY_TRAINING_DONE (R542, R817, R832). -/
def execCapacityTrainingDone (bad dies bpd upb endur wrong : Nat) (s : State) : Host.Outcome State Fault Refusal :=
  s.run (·.capDone bad dies bpd upb endur wrong)

/-- The sequence goes on once every domain of a stage is on: the groups are released, or power-up is complete (R832). -/
def Dev.stageUp (d : Dev) : Dev :=
  if d.boot.stage = 5 && (upFrom 0 16 ++ [20]).all d.domOn then (d.setPhase 3).setStage 6
  else if d.boot.stage = 7 && [18, 19, 23, 25].all d.domOn then
    let d := d.keepConfig.setStage 8
    if d.boot.restart then d else d.setReady

  else d

/-- Domain 26 comes on again after the power-up sequence released the Bureau: the boot ROM selects a slot, and the Bureau then
begins as after a restart (R846; log entry 94). -/
def Dev.bureauUp (d : Dev) (n : Nat) : Dev :=
  if n = 26 && 4 ≤ d.boot.stage && d.boot.stage ≤ 8 then { d with boot := { d.boot with slot := none, restart := true } } else d

/-- A domain that rises is usable (R849): the command that switched it on is complete. Domains 21 and 22 are usable once they
have trained. -/
def Dev.usable (d : Dev) (n : Nat) : Dev :=
  if !d.boot.rising.contains n || n = 21 || n = 22 then d else (((d.domUp n).endRise n).stageUp).bureauUp n

/-- DOMAIN_USABLE (R849). -/
def execDomainUsable (n : Nat) (s : State) : Host.Outcome State Fault Refusal := s.run (·.usable n)

/-! ### Confirmation (R838, R839) -/

/-- CONFIRM written by the Bureau: the booted slot is ACTIVE, and its SVN may raise the fused one. -/
def Dev.confirm (d : Dev) : Dev :=
  let r := Reg.AON_FW_CTRL
  match d.boot.slot with
  | none => d
  | some k =>
    let d := ((d.setFld r 0 1 k).setBit r 2 false).setBit r 3 false
    let h := d.slotBytes k 0 0x10
    if atLe h 7 1 % 2 = 1 && d.svnFused < atLe h 0xC 1 then (d.setFld r 32 7 (atLe h 0xC 1)).log 0xA 4 0xFF none 0 k else d

/-- A write of AON_FW_CTRL: CONFIRM only by the Bureau, CONFIRM_S from 10 to 3,600. -/
def Dev.wFwCtrl (d : Dev) (src : Master) (w : Word) : Dev :=
  let r := Reg.AON_FW_CTRL
  let sec := fieldOf w 16 16
  if (bitOf w 4 && src ≠ .bureau) || sec < 10 || 3600 < sec then d.logDiscard r
  else
    let d := d.setFld r 16 16 sec
    if bitOf w 4 then d.confirm else d

/-- CONFIRM (R838). -/
def execConfirm (src : Master) (w : Word) (s : State) : Host.Outcome State Fault Refusal :=
  s.run (·.guard src Reg.AON_FW_CTRL (·.wFwCtrl src (w ||| 0x10)))

/-- CONFIRM_TIMEOUT (R838): CONFIRM_S seconds since the Bureau was released. -/
def execConfirmTimeout (s : State) : Host.Outcome State Fault Refusal :=
  s.run fun d =>
    let r := Reg.AON_FW_CTRL
    if d.bit r 2 && d.boot.slot.isSome && decide (d.boot.released + d.fld r 16 16 * 1600000000 ≤ d.time.toNat) then
      ((d.setBit r 2 false).log 0xA 3 0xFF none 0 (d.boot.slot.getD 0)).bureauRestart
    else d

/-- An uncorrectable error of on-chip SRAM, counted and logged (R760, R864). -/
def Dev.countSram (d : Dev) (block detail : Nat) : Dev := (d.addFld Reg.AON_ECC_UE 0 16 1).log 3 0 block none 0 detail

/-- The context whose bias claim holds an entry (R237). -/
def Dev.biasOwner (d : Dev) (i : Nat) : Option Nat :=
  firstIn (fun x => d.loaded x && decide (d.fld (Reg.DRS_CTX_BIAS x) 0 17 ≤ i) &&
    decide (i < d.fld (Reg.DRS_CTX_BIAS x) 0 17 + d.fld (Reg.DRS_CTX_BIAS x) 32 17)) allCtxs

/-- An uncorrectable error in a memory without a poison unit (R763 to R765; log entry 37). An entry with no owner takes its reset
value. The word of a cluster stands in the evidence of R770 beyond the cluster's scratchpad addresses. -/
def Dev.sramError (d : Dev) (w : SramWord) : Dev :=
  match w with
  | .bureau => if d.domOn 26 then (d.countSram 0 0).bureauRestart else d
  | .cluster c n =>
    if 128 ≤ c || 1048576 ≤ n || !d.domOn (c / 8) then d
    else (((d.countSram 0xFF c).keepUe (spadAddr c (0x800000 + 8 * n))).freeze (d.clu c).ctx 0xB (c / 8) 0 0 0 0).declare
  | .cacheLine l =>
    if !d.domOn 21 then d
    else
      let s := l % 98304
      let e := d.countSram 0xFF l
      { e with cache := mapSet (fun _ => []) e.cache s ((mapGet (fun _ => []) e.cache s).filter fun k => k.line != l) }
  | .syncObj i =>
    if 65536 ≤ i || !d.domOn 21 then d
    else if (d.obj i).owned then (d.countSram 0xFF i).freeze (d.obj i).ctx 0xB 21 0 0 0 0
    else (d.countSram 0xFF i).setObj i {}
  | .tracker k =>
    if 262144 ≤ k || !d.domOn 21 then d
    else if (d.trk k).state ≠ 0 then (d.countSram 0xFF k).freeze (d.trk k).ctx 0xB 21 0 0 0 0
    else (d.countSram 0xFF k).setTrk k {}
  | .cabinet x p i =>
    if 8 ≤ x || 8 ≤ p || 16384 ≤ i || !d.domOn 21 then d
    else if d.loaded x && decide (i < d.fld (Reg.CAB_CTX_P_STATE x p) 32 15) then (d.countSram 0xFF i).freeze x 0xB 21 0 0 0 0
    else { d.countSram 0xFF i with cabRec := mapPut d.cabRec ((x * 8 + p) * 16384 + i) none }
  | .bias i =>
    if 65536 ≤ i || !d.domOn 20 then d
    else
      match d.biasOwner i with
      | some x => (d.countSram 0xFF i).freeze x 0xB 20 0 0 0 0
      | none => { (d.countSram 0xFF i).setReg (Reg.DRS_BIAS i) 0 with biasWritten := mapPut d.biasWritten i none }

/-- BUREAU_SRAM_UNCORRECTABLE (R765), with the memories that R763 to R765 name beside it. -/
def execBureauSramUncorrectable (w : SramWord) (s : State) : Host.Outcome State Fault Refusal := s.run (·.sramError w)

end Sys2Proof.Machine
end

