-- ==== Sys2Proof/Machine/Power.lean ====
section
/-!
DEFINITION. Power commands (R847 to R850), the operations of the always-on controller (R858 to R861), the fast clock and
temperature (R853 to R856, R866), PLL loss (R61, R747, R864), measurement requests (R842), telemetry (R867) and scrubbing
(R767 to R770).
-/

namespace Sys2Proof.Machine

/-! ### PWR_DOMAIN_CTRL -/

/-- Off or reset of domain n would take something that a context or the Chest still needs: IN_USE (R848). -/
def Dev.domHeld (d : Dev) (n : Nat) : Bool :=
  d.inUse n ||
    (if n < 16 then allCtxs.any fun x => (d.ctx x).images.any fun e => e.cl / 8 == n
    else match n with
      | 21 => allCtxs.any d.loaded
      | 22 => !d.chest.ns.isEmpty
      | 23 => !d.snaps.isEmpty || d.restore.isSome
      | _ => false)

/-- The status code of a command on domain n, checked in ascending order (R847, R848); off, on and reset are its bits. -/
def Dev.domCode (d : Dev) (n : Nat) (off on reset : Bool) : Nat :=
  if n = 24 || n = 26 || 27 ≤ n || 1 < off.toNat + on.toNat + reset.toNat then 8
  else if (off || reset) && d.domHeld n then 9
  else if (off || reset) && (dependents n).any d.domOn then 0xA
  else if on && (prereq n).any (fun k => !d.domOn k) then 0xB
  else if (on && d.bit Reg.AON_THERM 16) then 0xB
  else if d.aon.op.any (fun o => 4 ≤ o.op && o.op ≤ 6 && o.arg == n) || d.boot.rising.contains n then 0xC
  else 0

/-- A write of PWR_DOMAIN_CTRL (R848 to R850). A command that is refused is logged; one on a domain that is already as it asks
changes nothing. -/
def Dev.wDomain (d : Dev) (w : Word) : Dev :=
  let r := Reg.PWR_DOMAIN_CTRL
  let s := Reg.PWR_DOMAIN_STATUS
  if d.bit s 28 then d.logDiscard r
  else
    let d := d.plainWrite r w
    let n := fieldOf w 0 5
    let off := bitOf w 8
    let on := bitOf w 9
    let reset := bitOf w 10
    if !off && !on && !reset then d
    else
      let code := d.domCode n off on reset
      let d := (d.setFld s 32 8 code).setFld s 40 5 n
      if code ≠ 0 then d.log 8 code 2 none n w.toNat
      else if off then d.domOff n
      else if on then (if d.domOn n then d else (d.rise n).setBit s 28 true)
      else if d.domOn n then ((d.domOff n).rise n).setBit s 28 true
      else d

/-- PWR_DOMAIN_OFF (R848). -/
def execPwrDomainOff (src : Master) (w : Word) (s : State) : Host.Outcome State Fault Refusal :=
  s.run (·.guard src Reg.PWR_DOMAIN_CTRL (·.wDomain (w ||| 0x100)))
/-- PWR_DOMAIN_ON (R848). -/
def execPwrDomainOn (src : Master) (w : Word) (s : State) : Host.Outcome State Fault Refusal :=
  s.run (·.guard src Reg.PWR_DOMAIN_CTRL (·.wDomain (w ||| 0x200)))
/-- PWR_DOMAIN_RESET (R848). -/
def execPwrDomainReset (src : Master) (w : Word) (s : State) : Host.Outcome State Fault Refusal :=
  s.run (·.guard src Reg.PWR_DOMAIN_CTRL (·.wDomain (w ||| 0x400)))

/-! ### The always-on controller's operations -/

/-- Reset one domain by the always-on controller: its users freeze, it goes off and rises; domain 26 is a Bureau restart while it
is on (R747, R846, R858). -/
def Dev.aonReset (d : Dev) (n : Nat) : Dev :=
  if n = 26 && d.domOn 26 then d.bureauRestart else ((d.freezeUsers n).domOff n).rise n

/-- Power a domain off, with every domain whose prerequisite it is (R858). -/
def Dev.aonOff (d : Dev) (n : Nat) : Dev :=
  (dependents n ++ [n]).foldl (fun e k => (e.freezeUsers k).domOff k) d

/-- Power domains 0 to 26 off for the temperature (R856): TRIPPED, THERMTRIP_N, the log and the alert. -/
def Dev.thermalOff (d : Dev) : Dev :=
  let d := { d.allOff with aon := { d.aon with thermtrip := true } }.setBit Reg.AON_THERM 16 true
  ((d.setStage 0).log 7 2 1 none 0 (d.fld Reg.AON_THERM 32 16)).alert 3

/-- The quote record but its signature (R845). -/
def Dev.quoteHead (d : Dev) : Bytes :=
  leBytes 4 0x54514E43 ++ leBytes 2 1 ++ leBytes 2 d.node ++ nvGet d.nv.idm 0 8 ++ (upFrom 0 8).flatMap d.mr ++
    (upFrom 0 4).flatMap fun k => leBytes 8 (d.reg (Reg.AON_NONCE k)).toNat

/-- QUOTE writes the record, its signature free (R845; log entry 46). -/
def Dev.quote (d : Dev) : Dev :=
  let f := d.freshBytes 96
  let bs := d.quoteHead ++ f.1
  (upFrom 0 66).foldl (fun e k => e.setReg (Reg.AON_QUOTE_W k) (BitVec.ofNat 64 (atLe bs (8 * k) 8))) f.2

/-- What an operation does, and its code (R858). -/
def Dev.aonRun (d : Dev) (op arg : Nat) : Nat × Dev :=
  match op with
  | 1 =>
    if 8 ≤ arg then (8, d)
    else if (d.ctx arg).state.active then (0, (d.freeze arg 0xA 0 0 0 0 0).endHold arg)
    else (0, if d.inHold arg then d.endHold arg else d)
  | 2 => if 32 ≤ arg then (8, d) else (0, { d with linkOff := mapSet (fun _ => false) d.linkOff arg true }.portDown arg)
  | 3 =>
    if 32 ≤ arg then (8, d) else (0, { d with linkOff := mapSet (fun _ => false) d.linkOff arg false }.trainPorts)
  | 4 => if 27 ≤ arg then (8, d) else (0, d.aonReset arg)
  | 5 => if 27 ≤ arg then (8, d) else (0, d.aonOff arg)
  | 6 =>
    if 27 ≤ arg then (8, d)
    else if (prereq arg).any (fun k => !d.domOn k) || d.bit Reg.AON_THERM 16 then (0xB, d)
    else (0, d.rise arg)
  | 7 => (0, d.quote)
  | 8 => (0, d.thermalOff)
  | 9 => (0, d)
  | _ => (8, d)

/-- A write of AON_OP (R858 to R860). The effects happen at once, and AON_OP_COMPLETE ends the operation; a cold reset ends it
itself. -/
def Dev.wAonOp (d : Dev) (src : Master) (w : Word) : Dev :=
  let s := Reg.AON_OP_STATUS
  if src = .host then d.logRefusal 4 Reg.AON_OP
  else if d.bit s 16 then d.logDiscard Reg.AON_OP
  else
    let op := fieldOf w 0 8
    let arg := fieldOf w 16 32
    let d := ((d.setFld s 0 8 op).setFld s 8 8 0).setBit s 16 true
    let d := if op = 1 then d.setBit s 17 false else d
    let r := d.aonRun op arg
    let d := { r.2 with aon := { r.2.aon with op := some { op := op, arg := arg, code := r.1, since := d.time.toNat } } }
    if op = 9 then d.coldRequest else d

/-- The word of an operation on an argument. -/
def aonWord (op : Nat) (arg : Nat) : Word := BitVec.ofNat 64 (op + arg % 2 ^ 32 * 65536)

/-- An operation written to AON_OP by a master (R858). -/
def Dev.aonOp (d : Dev) (src : Master) (op arg : Nat) : Dev := d.guard src Reg.AON_OP (·.wAonOp src (aonWord op arg))

/-- AON_TEARDOWN (R755, R858). -/
def execAonTeardown (src : Master) (arg : Nat) (s : State) : Host.Outcome State Fault Refusal := s.run (·.aonOp src 1 arg)
/-- LINK_DISABLE (R858). -/
def execLinkDisable (src : Master) (arg : Nat) (s : State) : Host.Outcome State Fault Refusal := s.run (·.aonOp src 2 arg)
/-- LINK_ENABLE (R858). -/
def execLinkEnable (src : Master) (arg : Nat) (s : State) : Host.Outcome State Fault Refusal := s.run (·.aonOp src 3 arg)
/-- DOMAIN_RESET (R858). -/
def execDomainReset (src : Master) (arg : Nat) (s : State) : Host.Outcome State Fault Refusal := s.run (·.aonOp src 4 arg)
/-- DOMAIN_OFF (R858). -/
def execDomainOff (src : Master) (arg : Nat) (s : State) : Host.Outcome State Fault Refusal := s.run (·.aonOp src 5 arg)
/-- DOMAIN_ON (R858). -/
def execDomainOn (src : Master) (arg : Nat) (s : State) : Host.Outcome State Fault Refusal := s.run (·.aonOp src 6 arg)
/-- QUOTE (R845, R858). -/
def execQuote (src : Master) (s : State) : Host.Outcome State Fault Refusal := s.run (·.aonOp src 7 0)
/-- COLD_RESET (R828, R858). -/
def execColdReset (src : Master) (s : State) : Host.Outcome State Fault Refusal := s.run (·.aonOp src 9 0)

/-- THERMAL_SHUTDOWN written to AON_OP (R856, R858). -/
def execThermalShutdown (src : Master) (s : State) : Host.Outcome State Fault Refusal := s.run (·.aonOp src 8 0)

/-- An operation has reached its end: a TEARDOWN when its context is UNLOADED, a reset or a power-on when the domain is on. -/
def Dev.aonEnded (d : Dev) (o : AonOp) : Bool :=
  if o.code ≠ 0 then true
  else if o.op = 1 then !d.loaded o.arg
  else if o.op = 4 || o.op = 6 then !d.boot.rising.contains o.arg && !(o.arg == 26 && d.boot.restart)
  else true

/-- AON_OP_COMPLETE (R860): the status of the operation. -/
def execAonOpComplete (s : State) : Host.Outcome State Fault Refusal :=
  s.run fun d =>
    match d.aon.op with
    | none => d
    | some o =>
      if d.aonEnded o then
        ({ d with aon := { d.aon with op := none } }.setFld Reg.AON_OP_STATUS 8 8 o.code).setBit Reg.AON_OP_STATUS 16 false
      else d

/-- A TEARDOWN has not reached UNLOADED within 100 ms (R861): every domain the context uses is reset. Domain 21 holds the
context, so it is UNLOADED with that reset. -/
def Dev.escalate (d : Dev) : Dev :=
  match d.aon.op with
  | none => d
  | some o =>
    if o.op ≠ 1 || !d.loaded o.arg || d.time.toNat < o.since + 160000000 then d
    else
      let ns := (upFrom 0 27).filter (d.uses o.arg)
      let d := ns.foldl Dev.freezeUsers d
      (ns.foldl Dev.aonReset d).setBit Reg.AON_OP_STATUS 17 true

/-- TEARDOWN_ESCALATE (R861). -/
def execTeardownEscalate (s : State) : Host.Outcome State Fault Refusal := s.run Dev.escalate

/-! ### Measurement requests -/

/-- A write of AON_MR_EXTC (R842): the Bureau alone extends, and only MR3 to MR7. -/
def Dev.wMrExtend (d : Dev) (src : Master) (w : Word) : Dev :=
  let r := Reg.AON_MR_EXTC
  let m := fieldOf w 0 3
  if src ≠ .bureau then d.logDiscard r
  else if !bitOf w 3 then d.plainWrite r w
  else if m < 3 then d.logDiscard r
  else (d.plainWrite r w).mrExtend m ((upFrom 0 6).flatMap fun k => leBytes 8 (d.reg (Reg.AON_MR_EXT k)).toNat)

/-- MR_EXTEND (R842). -/
def execMrExtend (src : Master) (w : Word) (s : State) : Host.Outcome State Fault Refusal :=
  s.run (·.guard src Reg.AON_MR_EXTC (·.wMrExtend src (w ||| 8)))

/-! ### The fast clock (R853 to R855) -/

/-- A clock limit of R853 between 600 and 1200 MHz. -/
def clampClk (f : Nat) : Nat := min 1200 (max 600 f)

/-- f becomes n MHz (R854); why says which limit holds: 1 power, 2 temperature, 4 PWRBRK_N (log entry 47). -/
def Dev.setClk (d : Dev) (n why : Nat) : Dev :=
  ((d.setFld Reg.PWR_CLK 16 11 n).setFld Reg.PWR_CLK 27 3 why).setFld Reg.AON_POWER 32 11 n

/-- PWRBRK_N is asserted. -/
def Dev.braked (d : Dev) : Bool := d.bit Reg.PWR_CLK 29

/-- One pass of the loop (R853); throttling is logged as it begins (R864). -/
def Dev.clockTick (d : Dev) : Dev :=
  let t := toSigned 16 (d.fld Reg.AON_THERM 32 16)
  let lim : Int := d.fld Reg.AON_THERM 0 8
  let p := d.fld Reg.AON_POWER 0 16
  let cap := d.fld Reg.PWR_CAP 0 12
  let hot := decide (lim * 16 ≤ t)
  let cool := decide (t < (lim - 5) * 16)
  let fT := clampClk (if hot then d.aon.fT - 50 else if cool then d.aon.fT + 50 else d.aon.fT)
  let fP := clampClk (if cap < p then d.aon.fP - 50 else if p + 50 < cap then d.aon.fP + 50 else d.aon.fP)
  let fmax := d.fld Reg.PWR_CLK 0 11
  let f := if d.braked then 600 else min fmax (min fT fP)
  let why := if d.braked then 4 else (if fP = f && f < fmax then 1 else 0) + (if fT = f && f < fmax then 2 else 0)
  let d := if hot && !d.aon.hot then (d.log 7 1 1 none (d.fld Reg.AON_THERM 24 6) (d.fld Reg.AON_THERM 32 16)).alert 3 else d
  let d := { d with aon := { d.aon with fT := fT, fP := fP, hot := if hot then true else if cool then false else d.aon.hot } }
  d.setClk f why

/-- CLOCK_CONTROL_TICK (R853). -/
def execClockControlTick (s : State) : Host.Outcome State Fault Refusal := s.run (·.clockTick)

/-- PWRBRK_ASSERT (R855). -/
def execPwrbrkAssert (s : State) : Host.Outcome State Fault Refusal := s.run (·.setClk 600 4)

/-- PWRBRK_RELEASE (R855): the loop resumes from 600 MHz. -/
def execPwrbrkRelease (s : State) : Host.Outcome State Fault Refusal :=
  s.run fun d => if d.braked then ({ d with aon := { d.aon with fT := 600, fP := 600 } } : Dev).setClk 600 0 else d

/-! ### Sensors (R856, R866) -/

/-- The hottest of 34 readings, s16 in sixteenths of a degree: its sensor and value. -/
def hottest (ts : List Nat) : Nat × Nat :=
  (upFrom 0 34).foldl (fun m k => if toSigned 16 m.2 < toSigned 16 (ts.getD k 0) then (k, ts.getD k 0) else m) (0, ts.getD 0 0)

/-- A sample of the 34 temperatures and of the power, averaged over 1 ms (R866): four samples in a row at 105 degrees or more
shut the package down (R856), and a cold reset that waits is performed once every sensor is below 85. -/
def Dev.sample (d : Dev) (ts : List Nat) (power : Nat) : Dev :=
  let d := (upFrom 0 9).foldl
    (fun e k => e.setReg (Reg.AON_TEMP k)
      (BitVec.ofNat 64 ((upFrom 0 4).foldl (fun v j => v + (if 4 * k + j < 34 then ts.getD (4 * k + j) 0 % 65536 else 0) * 65536 ^ j) 0))) d
  let h := hottest ts
  let d := (d.setFld Reg.AON_THERM 24 6 h.1).setFld Reg.AON_THERM 32 16 h.2
  let d := (d.setFld Reg.AON_POWER 0 16 power).setFld Reg.AON_POWER 16 16 (max (power % 65536) (d.fld Reg.AON_POWER 16 16))
  let hots := (upFrom 0 34).foldl
    (fun m k => mapSet (fun _ => 0) m k (if 1680 ≤ toSigned 16 (ts.getD k 0) then mapGet (fun _ => 0) d.aon.hots k + 1 else 0)) d.aon.hots
  let d := { d with aon := { d.aon with hots := hots } }
  let d := if hots.any (fun e => 4 ≤ e.2) && !d.bit Reg.AON_THERM 16 then d.thermalOff else d
  if d.boot.coldWait && !d.anyAt 85 then d.coldReset else d

/-- SENSOR_SAMPLE (R866). -/
def execSensorSample (ts : List Nat) (power : Nat) (s : State) : Host.Outcome State Fault Refusal := s.run (·.sample ts power)

/-! ### PLLs -/

/-- The hub PLL loses lock (R61, R707, R747). -/
def execHubPllLockLoss (s : State) : Host.Outcome State Fault Refusal :=
  s.run fun d =>
    if !d.hubLocked then d
    else
      let d := ({ d with hubLocked := false } : Dev).log 6 1 0xFF none 0 0
      (allCtxs.foldl (fun e x => if (e.ctx x).state.active then e.freeze x 0xB 0xFF 0 0 0 0 else e) d).unsync

/-- HUB_PLL_RELOCK (R61): the counter resumes, and the time base is UNSYNCED. -/
def execHubPllRelock (s : State) : Host.Outcome State Fault Refusal :=
  s.run fun d => if d.hubLocked || d.boot.stage < 2 then d else ({ d with hubLocked := true } : Dev).unsync

/-- GROUP_PLL_LOCK_LOSS (R864): the PLL of a group locks again. -/
def execGroupPllLockLoss (g : Nat) (s : State) : Host.Outcome State Fault Refusal :=
  s.run fun d => if g < 16 && d.pll g = .locked then (d.setPll g .locking).log 6 2 0xFF none g 0 else d

/-! ### Telemetry (R867) -/

/-- The payload of a telemetry packet. -/
def Dev.teleBody (d : Dev) : Bytes :=
  let w := fun r => leBytes 8 (d.reg r).toNat
  leBytes 2 d.node ++ [0, 0] ++ leBytes 4 (d.fld Reg.AON_LOG_STATUS 0 32) ++ leBytes 8 d.time.toNat ++ w Reg.AON_POWER ++
    w Reg.AON_RAS_STATUS ++ w Reg.AON_ECC_CE ++ w Reg.AON_ECC_UE ++ (upFrom 0 9).flatMap (fun k => w (Reg.AON_TEMP k)) ++ leBytes 8 0

/-- TELEMETRY_SEND (R867): every TPERIOD ms. -/
def execTelemetrySend (s : State) : Host.Outcome State Fault Refusal :=
  s.run fun d =>
    let ms := d.fld Reg.BUR_FM 32 16
    if ms = 0 || d.boot.slot.isNone || d.time.toNat < d.aon.telLast + ms * 1600000 then d
    else
      ({ d with aon := { d.aon with telLast := d.time.toNat } } : Dev).inject
        { ty := 0x1B, vc := 7, dst := d.fld Reg.BUR_FM 16 16, src := d.node, pkey := 0xFFFF, len := 8 } d.teleBody false

/-! ### Scrubbing (R767 to R770) -/

/-- The resource and instance of a background window that covers an address: 0 a stack, 1 a capacity controller, 3 SRAM (R95). -/
def scrubWindow (a : Nat) : Nat × Nat :=
  if isHbm a then (0, (hbmChannel a).1) else if a < 0x200000000000 then (1, (capPlace a).1) else (3, 0)

/-- A scrub read of the unit at an address, inside its window: a correction is written back, and an uncorrectable unit is marked
(R768, R769); the Bureau weighs the evidence (R770). -/
def Dev.scrub (d : Dev) (a : Nat) (e : Ecc) : Dev :=
  let w := scrubWindow a
  if !(inHbm a 1 || d.inCap a 1 || inSpad a 1) || !d.windowOpen w.1 w.2 then d
  else (d.eccEvent e (eccLane a) (a / poisonUnit a * poisonUnit a)).declare

/-- A scrub read of a Chest unit: a codeword that fails marks the unit, and a correction of more than half the code's strength
relocates its block (R767). -/
def Dev.scrubFlash (d : Dev) (loc : Nat) (e : Ecc) (weak : Bool) : Dev :=
  match mapFind d.chest.units loc with
  | none => d
  | some u =>
    if !d.chestBg then d
    else
      let d := d.countRead (loc / 512)
      match e with
      | .uncorrectable =>
        (({ d with chest := { d.chest with units := mapPut d.chest.units loc (some { u with bad := true }) } } : Dev).addFld
          Reg.AON_ECC_UE 48 16 1).log 3 3 12 none 0 loc
      | .corrected =>
        let d := (d.addFld Reg.AON_ECC_CE 48 16 1).log 2 3 12 none 0 loc
        if weak then d.moveAndErase (loc / 512) false else d
      | .clean => d

/-- SCRUB_READ (R767): of device memory, or with flash set of a Chest unit by its location. -/
def execScrubRead (flash : Bool) (a : Nat) (e : Ecc) (weak : Bool) (s : State) : Host.Outcome State Fault Refusal :=
  s.run fun d => if flash then d.scrubFlash a e weak else d.scrub a e

end Sys2Proof.Machine
end

