-- ==== Sys2Proof/Machine/Access.lean ====
section
/-!
DEFINITION. Register accesses as a whole (R19 to R22, R45, R99, R203 to R207, R222, R851, R852, R896): which rule a write of each
register follows, and the accesses of the host, the Bureau and the management ports.
-/

namespace Sys2Proof.Machine

/-- The index of an offset in an array of registers. -/
def regIx (off base count stride : Nat) : Option Nat :=
  if base ≤ off && off < base + count * stride && (off - base) % stride = 0 then some ((off - base) / stride) else none

/-- A write whose value lies outside the stated range is discarded (ch. 17). -/
def Dev.ranged (d : Dev) (off : Nat) (w : Word) (ok : Bool) : Dev := if ok then d.plainWrite off w else d.logDiscard off

/-- BUR_ registers. -/
def Dev.wBur (d : Dev) (src : Master) (off : Nat) (w : Word) : Dev :=
  if off = Reg.BUR_PLAN_CTRL then d.wPlanCtrl src w
  else if off = Reg.BUR_PLACE_CTRL then d.wPlaceCtrl src w
  else if off = Reg.BUR_PLACE_SWAP then d.wPlaceSwap src w
  else match regIx off (Reg.BUR_PLAN_STOP 0) 8 8 with
    | some x => d.wPlanStop src x w
    | none => d.plainWrite off w

/-- AON_ registers; AON_MR_EXTk takes writes of the Bureau alone (R842). -/
def Dev.wAon (d : Dev) (src : Master) (off : Nat) (w : Word) : Dev :=
  if off = Reg.AON_OP then d.wAonOp src w
  else if off = Reg.AON_FW_CTRL then d.wFwCtrl src w
  else if off = Reg.AON_THERM then d.ranged off w (70 ≤ fieldOf w 0 8 && fieldOf w 0 8 ≤ 100)
  else if off = Reg.AON_SCRUB_CFG then d.ranged off w (1 ≤ fieldOf w 0 8 && fieldOf w 0 8 ≤ 168)
  else if off = Reg.AON_MR_EXTC then d.wMrExtend src w
  else match regIx off (Reg.AON_MR_EXT 0) 6 8 with
    | some _ => if src = .bureau then d.setReg off w else d.logDiscard off
    | none => d.plainWrite off w

/-- PWR_ registers. -/
def Dev.wPwr (d : Dev) (off : Nat) (w : Word) : Dev :=
  if off = Reg.PWR_DOMAIN_CTRL then d.wDomain w
  else if off = Reg.PWR_CLK then
    d.ranged off w (600 ≤ fieldOf w 0 11 && fieldOf w 0 11 ≤ 1200 && fieldOf w 0 11 % 50 = 0)
  else if off = Reg.PWR_CAP then d.ranged off w (600 ≤ fieldOf w 0 12 && fieldOf w 0 12 ≤ 2400)
  else d.plainWrite off w

/-- MGT_ registers. Whether both I3C lines are high at a REARM that comes without a row of its own is a free value. -/
def Dev.wMgt (d : Dev) (src : Master) (off : Nat) (w : Word) : Dev :=
  if off = Reg.MGT_IDM_CMD then d.wIdmCmd src w
  else if off = Reg.MGT_I3C_CTRL then
    let f := d.fresh
    f.2.wI3cCtrl w (bitOf f.1 0)
  else d.plainWrite off w

/-- FAB_ registers. -/
def Dev.wFab (d : Dev) (off : Nat) (w : Word) : Dev :=
  if off < Reg.FAB_SWING then d.wFabConfig off w
  else if off = Reg.FAB_SWING then d.wSwing w
  else if off = Reg.FAB_DISC_CTRL then d.wDisc w
  else match regIx off (Reg.FAB_PKEY 0) 16 8, regIx off (Reg.FAB_CTX_ID 0) 8 8, regIx off (Reg.FAB_P_CFG 0) 32 0x40 with
    | some k, _, _ => d.wPkey k w
    | _, some x, _ => d.wCtxId x w
    | _, _, some n => d.wPortCfg n w
    | _, _, _ => d.plainWrite off w

/-- TIER_ and CHEST_ registers. -/
def Dev.wTier (d : Dev) (src : Master) (off : Nat) (w : Word) : Dev :=
  if off = Reg.CHEST_CFG then d.wChestCfg src w
  else if off = Reg.CHEST_NS_CMD then d.wNsCmd src w
  else match regIx off (Reg.TIER_POOL_CFG 0) 2 8 with
    | some t => d.wTierPool src t w
    | none => d.plainWrite off w

/-- FPU_ registers. -/
def Dev.wFpu (d : Dev) (off : Nat) (w : Word) : Dev :=
  match regIx off (Reg.FPU_CTX_JBASE 0) 8 0x40, regIx off (Reg.FPU_CTX_JSIZE 0) 8 0x40, regIx off (Reg.FPU_CTX_JHEAD 0) 8 0x40 with
  | some x, _, _ => d.wRing x false w
  | _, some x, _ => d.wRing x true w
  | _, _, some x => d.wJhead x w
  | _, _, _ => d.plainWrite off w

/-- The sequencer registers of a context may be reached (R222). -/
def Dev.seqOpen (d : Dev) (c : Nat) : Bool :=
  match (d.ctx (d.fld (Reg.SEQ_CFG c) 0 3)).state with
  | .loaded | .stopped | .done | .frozen => true
  | _ => false

/-- SEQ_SREGk, SEQ_AREGk and SEQ_PREGS, at an offset of a cluster's block. -/
def seqCopy (rel : Nat) : Bool := decide (0x100 ≤ rel) && decide (rel ≤ 0x280)

/-- Write a register of the copy that SEQ_CFG names; p0 stays true (R147). -/
def Dev.seqWrite (d : Dev) (c rel : Nat) (w : Word) : Dev :=
  let x := d.fld (Reg.SEQ_CFG c) 0 3
  let r := d.seqr c x
  if rel < 0x200 then d.setSeqr c x (r.setS ((rel - 0x100) / 8) w)
  else if rel < 0x280 then d.setSeqr c x (r.setA ((rel - 0x200) / 8) (w.setWidth 48))
  else d.setSeqr c x ((upFrom 1 7).foldl (fun r i => r.setP i (bitOf w i)) r)

/-- The registers of a cluster (R207, R222, R409, R457, R511). -/
def Dev.wCluster (d : Dev) (src : Master) (off : Nat) (w : Word) : Dev :=
  let c := (off - 0x1000000) / 0x20000
  let rel := (off - 0x1000000) % 0x20000
  let d := d.wakeCluster c
  if seqCopy rel then (if d.seqOpen c then d.seqWrite c rel w else d.logDiscard off)
  else if rel = 0x400 then d.spmClear src c w
  else if rel < 0x8000 then d.plainWrite off w
  else if d.anyActive then d.logDiscard off
  else if rel = 0x8018 then
    d.ranged off w (8 ≤ fieldOf w 8 5 && fieldOf w 8 5 ≤ 16 && 8 ≤ fieldOf w 16 8 && 16 ≤ fieldOf w 32 16)
  else if rel = 0x8030 then d.ranged off w (fieldOf w 0 15 ≤ 16384)
  else d.plainWrite off w

/-- A write that passes the common checks, by the rule of its register. Sync objects are read-only, and a write to them is logged
(R125). -/
def Dev.ruleWrite (d : Dev) (src : Master) (off : Nat) (w : Word) : Dev :=
  if 0x10000000 ≤ off then (if off = Reg.CAB_HC_INV then d.hcInv w else d.plainWrite off w)
  else if 0x2000000 ≤ off then (if off < 0x2100000 then d.logDiscard off else d)
  else if 0x1000000 ≤ off then d.wCluster src off w
  else match off / 0x100000 with
    | 0 => d.wBur src off w
    | 1 => d.wAon src off w
    | 2 => d.wPwr off w
    | 3 => d.wMgt src off w
    | 4 => match regIx off (Reg.HIF_VF_CFG 1) 8 8 with | some i => d.wVfCfg (i + 1) w | none => d.plainWrite off w
    | 5 => if Reg.NET_TGT_W 0 0 ≤ off then d.wNetWord src off w else d.plainWrite off w
    | 6 => if off = Reg.TRS_CFG then d.wTrsCfg w else d.plainWrite off w
    | 7 => match regIx off (Reg.CTX_CTX_CTRL 0) 8 0x40 with | some x => d.wCtxCtrl src x w | none => d.plainWrite off w
    | 8 => d.wFab off w
    | 12 => d.wTier src off w
    | 13 => d.wTier src off w
    | 14 => d.wFpu off w
    | 15 => if off = Reg.CKP_RESTORE_CTRL then d.wRestore src w else d.plainWrite off w
    | _ => d.plainWrite off w

/-- One whole register is written by a master. -/
def Dev.regWrite (d : Dev) (src : Master) (off : Nat) (w : Word) : Dev := d.guard src off (·.ruleWrite src off w)

/-- One whole register is read by a master: its value and the device after the read (R21, R22, R134, R222). -/
def Dev.regRead (d : Dev) (src : Master) (off : Nat) : Word × Dev :=
  match d.refusal src off false with
  | some c => (0, d.logRefusal c off)
  | none =>
    if 0x1000000 ≤ off && off < 0x2000000 then
      let c := (off - 0x1000000) / 0x20000
      let d := d.wakeCluster c
      if seqCopy ((off - 0x1000000) % 0x20000) && !d.seqOpen c then (0, d.logDiscard off) else (d.readReg off, d)
    else d.csrRead src off

/-! ### The host and the Bureau -/

/-- Write whole registers, one after another in ascending address (R20). -/
def Dev.regWrites (src : Master) : List Nat → Bytes → Dev → Dev
  | [], _, d => d
  | off :: t, bs, d => Dev.regWrites src t (bs.drop 8) (d.regWrite src off (BitVec.ofNat 64 (atLe bs 0 8)))

/-- A narrow write is discarded whole, with the first refusal of a register it touches, else as narrow (R20, R896). -/
def Dev.narrowWrite (d : Dev) (src : Master) (off : Nat) (regs : List Nat) : Dev :=
  match regs.findSome? fun r => (d.refusal src r true).map fun c => (c, r) with
  | some c => d.logRefusal c.1 c.2
  | none => d.logRefusal 1 off

/-- The registers that n bytes at an offset touch, in ascending address. -/
def regsOf (off n : Nat) : List Nat := (upFrom (off / 8) ((off + n - 1) / 8 + 1 - off / 8)).map (8 * ·)

/-- A range lies in what a master's accesses can name: the 256 MiB of CSR space, which PF BAR0 maps (R72), and for the Bureau the
16 MiB of the hub cache control region beyond it (R67, R522). -/
def canName (src : Master) (off n : Nat) : Bool :=
  decide (0 < n) && decide (off + n ≤ if src = .bureau then 0x11000000 else 0x10000000)

/-- A write of bytes to CSR space (R20). -/
def Dev.csrWrite (d : Dev) (src : Master) (off : Nat) (data : Bytes) : Dev :=
  let n := data.length
  if !canName src off n then d
  else if off % 8 ≠ 0 || n % 8 ≠ 0 then d.narrowWrite src off (regsOf off n)
  else Dev.regWrites src (regsOf off n) data d

/-- Whole registers are read one after another: their bytes in address order, and the device after the reads (R21). -/
def Dev.regReads (src : Master) : List Nat → Dev → Bytes × Dev
  | [], d => ([], d)
  | off :: t, d =>
    let r := d.regRead src off
    let rest := Dev.regReads src t r.2
    (leBytes 8 r.1.toNat ++ rest.1, rest.2)

/-- A read of n bytes at any offset: one whole read of each register it touches, in ascending address, of which the addressed bytes go
to the master (R21). -/
def Dev.csrReadOut (d : Dev) (src : Master) (off n : Nat) : Dev :=
  if !canName src off n || (src == .host && !d.hostOn) then d
  else
    let r := Dev.regReads src (regsOf off n) d
    r.2.emit (.data src ((r.1.drop (off % 8)).take n))

/-- CSR_WRITE (R20). -/
def execCsrWrite (src : Master) (off : Nat) (data : Bytes) (s : State) : Host.Outcome State Fault Refusal :=
  s.run (·.csrWrite src off data)

/-- A register's value goes to the master that reads it. -/
def Dev.readOut (d : Dev) (src : Master) (off : Nat) : Dev :=
  let r := d.regRead src off
  r.2.emit (.data src (leBytes 8 r.1.toNat))

/-- AON_POWER_READ (R22): PEAK is read and cleared, whichever bytes of AON_POWER the read returns (R21). The row is the table's one
read of CSR space, and its operands name any range of it (log entry 107). -/
def execAonPowerRead (r : CsrRead) (s : State) : Host.Outcome State Fault Refusal := s.run (·.csrReadOut r.src r.off r.n)

/-- SEQ_REG_ACCESS (R222): of SEQ_SREGk, SEQ_AREGk or SEQ_PREGS; wr is none for a read. -/
def execSeqRegAccess (src : Master) (off : Nat) (wr : Option Word) (s : State) : Host.Outcome State Fault Refusal :=
  s.run fun d =>
    if 0x1000000 ≤ off && off < 0x2000000 && off % 8 = 0 && seqCopy ((off - 0x1000000) % 0x20000) then
      match wr with
      | none => d.readOut src off
      | some w => d.regWrite src off w
    else d

/-! ### Management ports (R847, R852) -/

/-- The status code of an access that the common checks refuse (R847, R896). -/
def mgmtCode (c : Nat) : Nat := if c = 5 then 3 else if c = 4 then 2 else 1

/-- Perform the access that a request body asks for: the response body, and the device after it (R852). A COMMAND other than
read and write is not performed, and its status is a free value (log entry 48). -/
def Dev.mgmtAccess (d : Dev) (body : Bytes) : Bytes × Dev :=
  let cmd := atLe body 0 1
  let off := atLe body 4 4
  let resp := fun (code : Nat) (data : Nat) =>
    [BitVec.ofNat 8 cmd, BitVec.ofNat 8 code] ++ leBytes 2 (atLe body 2 2) ++ leBytes 4 off ++ leBytes 8 data
  let data := atLe body 8 8
  if cmd ≠ 1 && cmd ≠ 2 then
    let f := d.fresh
    (resp (fieldOf f.1 0 8) data, f.2)
  else if off % 8 ≠ 0 || 0x10000000 ≤ off then (resp 3 (if cmd = 1 then 0 else data), d.logRefusal 5 off)
  else
    let code := match d.refusal .mgmt off (cmd == 2) with | some c => mgmtCode c | none => 0
    if cmd = 1 then
      let r := d.regRead .mgmt off
      (resp code r.1.toNat, r.2)
    else (resp code data, d.regWrite .mgmt off (BitVec.ofNat 64 data))

/-- MGMT_PORT_CSR (R852): a request body on a management path, answered on it. -/
def execMgmtPortCsr (path : Nat) (body : Bytes) (s : State) : Host.Outcome State Fault Refusal :=
  s.run (onPath path fun d =>
    let r := d.mgmtAccess body
    r.2.answer path 13 0 r.1)

end Sys2Proof.Machine
end

