-- ==== Sys2Proof/Machine/Array.lean ====
section
/-!
DEFINITION. The matrix array's queue (R185, R187, R358, R361, R372), its supply-current control (R396 to R402), and the commands
MX_DESC_START, MX_DESC_COMPLETE, MXA_RAMP_TICK and MXA_GAP_EXPIRE.
-/

namespace Sys2Proof.Machine

/-- A descriptor queued for the array of cluster c. -/
def mxOf (c : Nat) (q : Desc) : Bool := q.cl == c && kindQueue q.kind == 0

/-- The checks of a descriptor, and the record and window it reads at its start (R361, R405). -/
def Dev.mxCheck (d : Dev) (q : Desc) : Option SubErr × Bytes × Int :=
  let b := q.bytes
  let k := d.clu q.cl
  let wsrc := atLe b 0x16 1
  let opr := d.engLocal q.ctx q.cl (atLe b 0x24 4) 64
  let r := match opr with | .ok r => r | .error _ => []
  let win := d.window q (atLe b 0x14 2) wsrc (atLe b (if q.kind = 2 then 0x38 else 0x28) 4)
  let s := spOf b
  let w := match win with | .ok w => w | .error _ => 0
  match q.kind with
  | 1 => (gemmErr k b opr win, r, w)
  | 2 => (grpErr k.held b win, [], w)
  | 3 => (spErr k b opr win, r, if s.drain then (k.hacc.elim 0 Hacc.w) else w)
  | 4 => (loadErr b, [], 0)
  | _ => (drainErr k.held b, [], 0)

/-- The ranges a descriptor's outputs and workspaces take (R395, R406). -/
def Dev.mxOuts (d : Dev) (q : Desc) (r : Bytes) (w : Int) : List (Nat × Nat) :=
  let g := gemmOf q.bytes r w
  match q.kind with
  | 1 =>
    (if gemmFlag q.bytes 5 then [] else d.outRanges q.ctx g.cRows) ++
      (if g.mode = 4 then
        d.outRanges q.ctx [(g.sa, 64 * ceilDiv (4 * g.m) 64 + 7 * g.m * g.k), (g.sb, 64 * ceilDiv (4 * g.n) 64 + 7 * g.n * g.k)]
      else [])
  | 2 => d.grpOuts q (grpIndices q.bytes)
  | 3 => d.spOuts q g
  | 4 => []
  | _ =>
    match (d.clu q.cl).held with
    | some h => d.outRanges q.ctx (strided (atLe q.bytes 0x18 8) (atLe q.bytes 0x20 4) h.m (elemBytes (atLe q.bytes 0x10 1) h.n))
    | none => []

/-- A descriptor uses both planes as working storage (R372, R374, R418). -/
def takesPlanes (q : Desc) : Bool :=
  match q.kind with
  | 1 => !gemmFlag q.bytes 3 || atLe q.bytes 0x13 1 == 4
  | 2 => true
  | 3 => atLe q.bytes 0x2C 1 ≤ 1
  | _ => false

/-- The array begins its next queued descriptor (R361, R405). -/
def Dev.mxStart (d : Dev) (c : Nat) : Dev :=
  let k := d.clu c
  if k.mxFrozen || k.mxNow.isSome then d
  else
    match d.descs.find? (mxOf c) with
    | none => d
    | some q =>
      let d := { d with descs := d.descs.eraseP (mxOf c) }
      let chk := d.mxCheck q
      match chk.1 with
      | some e => d.mxFault q e.sub e.addr none
      | none =>
        let job : Job := { desc := q, opr := chk.2.1, w := chk.2.2, outs := d.mxOuts q chk.2.1 chk.2.2 }
        let d := d.modClu c fun k =>
          if takesPlanes q then { k with mxNow := some job, plane0 := none, plane1 := none } else { k with mxNow := some job }
        if q.kind = 3 then d.openHacc q (gemmOf q.bytes chk.2.1 chk.2.2) (spOf q.bytes) else d

/-- A descriptor has MAC cycles, which wait for full activity (R398). -/
def macDesc (q : Desc) : Bool := q.kind ≤ 2 || (q.kind == 3 && atLe q.bytes 0x2C 1 ≤ 1)

/-- Current control when the array has completed a descriptor (R397): with none left, ACTIVE becomes GAP at LEVEL, which a context
that is neither RUNNING nor DRAINING leaves at once. -/
def Dev.currDone (d : Dev) (c : Nat) : Dev :=
  if d.bit (Reg.MXA_CURR c) 0 && d.mxEmpty c then
    let level := d.fld (Reg.MXA_CURR c) 8 5
    let s := (d.ctx (d.clu c).ctx).state
    let to_ : CurState := if s = .running || s = .draining then .gap else .rampDown
    d.modClu c fun k => if k.cur = .active then { k with cur := to_, act := level } else k
  else d

/-- The work of a descriptor: the state, and its fault with the group table entry. -/
def Dev.mxWork (d : Dev) (j : Job) : Dev × Option (Option Nat × SubErr) :=
  let q := j.desc
  match q.kind with
  | 1 => let r := d.runGemm j; (r.1, r.2.map fun e => (none, e))
  | 2 => let r := d.walk q j.w (grpIndices q.bytes); (r.1, r.2.map fun e => (some e.1, e.2))
  | 3 => let r := d.runSp j; (r.1, r.2.map fun e => (none, e))
  | 4 => let r := d.runLoad q; (r.1, r.2.map fun e => (none, e))
  | _ => let r := d.runDrain q; (r.1, r.2.map fun e => (none, e))

/-- At a fault in a walk, the outputs still open are those of the entries not completed (R379, R406). -/
def Dev.walkOpen (d : Dev) (q : Desc) (entry : Option Nat) : Dev :=
  match entry with
  | none => d
  | some i =>
    let rest := (grpIndices q.bytes).filter fun k => decide (i ≤ k)
    d.modClu q.cl fun k => { k with mxNow := k.mxNow.map fun j => { j with outs := d.grpOuts q rest } }

/-- The array finishes its descriptor (R358, R404 to R407). -/
def Dev.mxComplete (d : Dev) (c : Nat) : Dev :=
  let k := d.clu c
  match k.mxNow with
  | none => d
  | some j =>
    let q := j.desc
    if d.bit (Reg.MXA_CURR c) 0 && k.cur = .rampUp && macDesc q then d
    else
      let r := d.mxWork j
      match r.2 with
      | some (entry, e) => (r.1.walkOpen q entry).mxFault q e.sub e.addr entry
      | none =>
        let d := r.1.modClu c fun k => { k with mxNow := none }
        (d.descDone q 1).currDone c

/-- One activity step of a ramp (R397). -/
def Dev.rampTick (d : Dev) (c : Nat) : Dev :=
  let k := d.clu c
  match k.cur with
  | .rampUp => if 15 ≤ k.act then (d.setClu c { k with act := 16, cur := .active }).currDone c else d.setClu c { k with act := k.act + 1 }
  | .rampDown => d.setClu c (if k.act ≤ 1 then { k with act := 0, cur := .off } else { k with act := k.act - 1 })
  | _ => d

/-- GAP_LIMIT fast cycles of GAP have elapsed (R397). -/
def Dev.gapExpire (d : Dev) (c : Nat) : Dev := d.modClu c Cluster.leaveGap

/-- MX_DESC_START (R361). -/
def execMxDescStart (c : Nat) (s : State) : Host.Outcome State Fault Refusal := s.run (·.mxStart c)
/-- The ranges that the work in a cluster's engine may write. -/
def workOuts (j : Option Job) : List (Nat × Nat) := j.elim [] Job.outs

/-- MX_DESC_COMPLETE (R358); lost are the scratchpad words it loses (R510). -/
def execMxDescComplete (c : Done) (s : State) : Host.Outcome State Fault Refusal :=
  s.run fun d =>
    let e := d.mxComplete c.n
    e.endLosing d (e.clu c.n).mxNow.isSome 2 c.n (workOuts (d.clu c.n).mxNow) c.lost
/-- MXA_RAMP_TICK (R397). -/
def execMxaRampTick (c : Nat) (s : State) : Host.Outcome State Fault Refusal := s.run (·.rampTick c)
/-- MXA_GAP_EXPIRE (R397). -/
def execMxaGapExpire (c : Nat) (s : State) : Host.Outcome State Fault Refusal := s.run (·.gapExpire c)

end Sys2Proof.Machine
end

