-- ==== Sys2Proof/Machine/Fabric.lean ====
section
/-!
DEFINITION. The router's forwarding of whole packets (R611 to R619, R641 to R646), local delivery, parked packets (R625), discovery
messages (R647, R648) and management messages on the fabric (R868, R869).
-/

namespace Sys2Proof.Machine

/-! ### Management messages -/

/-- Discard a management message and log it (R869); the class has no code for it, so the code is a free value (log entry 48). -/
def Dev.dropMgmt (d : Dev) : Dev :=
  let f := d.fresh
  f.2.log 0xB (fieldOf f.1 0 8) 0xFF none 0 0

/-- A management message at its destination (R868, R869). -/
def Dev.mgmtGot (d : Dev) (p : RPkt) : Dev :=
  if p.bad || d.boot.slot.isNone then d
  else
    match atLe p.pay 0 1 with
    | 3 =>
      if p.hdr.src ≠ d.fld Reg.BUR_FM 0 16 then d.dropMgmt
      else
        let r := d.mgmtAccess (p.pay.drop 4)
        r.2.sendMgmt p.hdr.src ([4, 0, 0, 0] ++ r.1)
    | 5 => { d with swingMsg := some (p.hdr.src, atLe p.pay 4 1, atLe p.pay 5 1) }
    | 1 => d
    | 2 => d
    | 4 => d
    | _ => d.dropMgmt

/-- MGMT_CSR (R869). -/
def execMgmtCsr (p : Packet) (s : State) : Host.Outcome State Fault Refusal := s.run (·.receive p 0x18 fun d q _ => d.mgmtGot q)
/-- MGMT_SWING (R602, R868). -/
def execMgmtSwing (p : Packet) (s : State) : Host.Outcome State Fault Refusal := s.run (·.receive p 0x18 fun d q _ => d.mgmtGot q)

/-- A DISC packet ends at the port it came by (R647). -/
def Dev.discIn (d : Dev) (q : Packet) : Dev :=
  let p := arrive q d.time.toNat
  if p.hdr.ty ≠ 0x19 then d
  else d.portCheck p fun d => d.takeUp p fun d p => if p.bad || q.vc ≠ 0 || p.hdr.vc ≠ 0 then d else d.discGot q.port p.pay

/-- DISC (R647, R648). -/
def execDisc (p : Packet) (s : State) : Host.Outcome State Fault Refusal := s.run (·.discIn p)

/-! ### Local delivery -/

/-- A packet whose destination is this device, by its TYPE (R607, R614). -/
def Dev.deliver (d : Dev) (p : RPkt) : Dev :=
  let t := p.hdr.ty
  if 1 ≤ t && t ≤ 5 then d.inRequest p p.hdr.vc
  else if 8 ≤ t && t ≤ 0xB then d.inResponse p p.hdr.vc
  else if t = 0x10 || t = 0x11 then d.inChunk p p.hdr.vc
  else if t = 0x18 then d.mgmtGot p
  else d

/-- A multicast entry waits for the local delivery of a packet (R646). -/
def Dev.mcLocal (d : Dev) (p : RPkt) : Bool :=
  d.mcast.any fun e => e.src == p.hdr.src && e.seq == p.hdr.seq && e.left.contains 32

/-- Deliver a packet; the answer of the local copy of a multicast goes to its entry (R646). -/
def Dev.deliverHere (d : Dev) (p : RPkt) : Dev :=
  let n := d.rtr.length
  let e := d.deliver p
  if !d.mcLocal p then e
  else
    match e.rtr[n]? with
    | some a =>
      if a.port.isNone && (a.hdr.ty = 8 || a.hdr.ty = 0xB) && a.hdr.seq = p.hdr.seq then
        ({ e with rtr := e.rtr.eraseIdx n } : Dev).mcAnswer p.hdr.src p.hdr.seq 32 (if a.hdr.ty = 0xB then some (a.hdr.sval % 256) else none)
      else e
    | none => e

/-! ### Forwarding -/

/-- A multicast packet is replicated (R643 to R646) once every branch has credit; one whose answers are awaited takes an entry. -/
def Dev.replicate (d : Dev) (k : Nat) (p : RPkt) : Dev :=
  match d.branches p with
  | none => ({ d with rtr := d.rtr.eraseIdx k }.dropCount 2 1).freeRegion p
  | some (ports, here) =>
    let h := { p.hdr with esc := 1 }
    let answers := h.ty != 0x18
    let free := ports.all fun n => d.portTakes n h && d.hasCredit n (d.spanHdr n h)
    if !free || (answers && 1024 ≤ d.mcast.length) then d
    else
      let d := { d with rtr := d.rtr.eraseIdx k }.freeRegion p
      let p := { p with inReg := false }
      let entry : McEnt :=
        { src := h.src, seq := h.seq, hdr := p.hdr, port := p.port, left := ports ++ (if here then [32] else []) }
      let d := if !answers then d else if entry.left = [] then d.mcEnd entry else { d with mcast := d.mcast ++ [entry] }
      let copy := fun (d : Dev) n =>
        if !d.pkeyOk n h then d.dropCount 0 1
        else if 16 ≤ n && h.hops = 31 then d.dropCount 1 1
        else { d with rtr := d.rtr ++ [{ p with hdr := d.spanHdr n h, outp := some n }] }
      let d := ports.foldl copy d
      if here then d.deliverHere p else d

/-- A packet takes its output, combined with one that waits there where it can be (R641). -/
def Dev.toOutput (d : Dev) (k n : Nat) (p : RPkt) (h : Hdr) : Dev :=
  let q := { p with hdr := h }
  match ({ d with rtr := d.rtr.eraseIdx k } : Dev).tryCombine n q with
  | some e => e.freeRegion p
  | none => { d with rtr := d.rtr.set k { q with outp := some n, was := some (p.hdr.esc, p.hdr.sub, p.hdr.hops) } }

/-- The k-th packet of the router moves on (R611 to R619): it is sent when it waits at an output, else it is routed, delivered,
replicated or discarded. A DISC or TIME packet that has lost its port is discarded. -/
def Dev.forward (d : Dev) (k far : Nat) : Dev :=
  match d.rtr[k]? with
  | none => d
  | some p =>
    let gone := { d with rtr := d.rtr.eraseIdx k }.freeRegion p
    match p.outp with
    | some n => d.transmit k n p
    | none =>
      if p.hdr.ty = 0x19 || p.hdr.ty = 0x1A then gone.dropCount 2 1
      else if p.hdr.rmode = 3 || (p.hdr.rmode = 2 && p.port.isNone) then d.replicate k p
      else
        match d.route p far with
        | .here => gone.deliverHere { p with inReg := false }
        | .wait => d
        | .drop f => gone.dropCount f 1
        | .out n h => d.toOutput k n p h

/-- PACKET_FORWARD (R613, R617). -/
def execPacketForward (k far : Nat) (s : State) : Host.Outcome State Fault Refusal := s.run (·.forward k far)

/-- COMBINE_ENTRY_TIMEOUT (R642). -/
def execCombineEntryTimeout (e : Nat) (s : State) : Host.Outcome State Fault Refusal :=
  s.run fun d =>
    match mapFind d.combine e with
    | none => d
    | some c => if c.since + d.deadTime c.far ≤ d.time.toNat then { d with combine := mapPut d.combine e none } else d

/-- The k-th parked packet is performed: its Cabinet buffer is read and released (R625). -/
def Dev.unpark (d : Dev) (k : Nat) : Dev :=
  match d.parked[k]? with
  | none => d
  | some q =>
    let d := { d with parked := d.parked.eraseIdx k }
    match q.buf with
    | none => d.takeUp q.pkt Dev.deliverHere
    | some b =>
      let n := min q.pkt.pay.length (cabLargest q.pkt.hdr.vc)
      let a := d.cabAddr b
      let pkt := { q.pkt with pay := d.read a n ++ q.pkt.pay.drop n, poison := q.pkt.poison || d.poisoned a n }
      (d.cabRelease b q.pkt.hdr.vc).deliverHere pkt

/-- PARKED_PACKET_PERFORM (R625). -/
def execParkedPacketPerform (k : Nat) (s : State) : Host.Outcome State Fault Refusal := s.run (·.unpark k)

end Sys2Proof.Machine
end

