-- ==== Sys2Proof/Machine/Flags.lean ====
section
/-!
DEFINITION. What an instruction computes from its operands: the ALU functions (R164, R165), the compare conditions (R166) and
the predicate functions (R167). The sequencer has no flags register; its conditions are the predicates.
-/

namespace Sys2Proof.Machine

/-- Leading zeros of a 64-bit value; 64 when it is 0 (R164). -/
def clz64 (v : Word) : Nat := 64 - bitLen 64 v.toNat

/-- Trailing zeros of a 64-bit value; 64 when it is 0 (R164). -/
def ctz64 (v : Word) : Nat := trailingZeros 64 v.toNat

/-- The signed quotient, truncated toward zero, with the special cases of R165. -/
def divS (a b : Word) : Word := if b = 0 then BitVec.allOnes 64 else BitVec.ofInt 64 (a.toInt.tdiv b.toInt)
/-- The unsigned quotient, with the special case of R165. -/
def divU (a b : Word) : Word := if b = 0 then BitVec.allOnes 64 else BitVec.ofNat 64 (a.toNat / b.toNat)
/-- The signed remainder, with the sign of the dividend (R164, R165). -/
def remS (a b : Word) : Word := if b = 0 then a else BitVec.ofInt 64 (a.toInt.tmod b.toInt)
/-- The unsigned remainder (R164, R165). -/
def remU (a b : Word) : Word := if b = 0 then a else BitVec.ofNat 64 (a.toNat % b.toNat)

/-- The ALU functions of R164; none for a reserved code. -/
def aluFn (fn : Nat) (a b : Word) : Option Word :=
  match fn with
  | 0x00 => some (a + b)
  | 0x01 => some (a - b)
  | 0x02 => some (a &&& b)
  | 0x03 => some (a ||| b)
  | 0x04 => some (a ^^^ b)
  | 0x05 => some (a &&& ~~~b)
  | 0x06 => some (a <<< (b.toNat % 64))
  | 0x07 => some (a >>> (b.toNat % 64))
  | 0x08 => some (a.sshiftRight (b.toNat % 64))
  | 0x09 => some (a * b)
  | 0x0A => some (BitVec.ofInt 64 (a.toInt * b.toInt / 2 ^ 64))
  | 0x0B => some (BitVec.ofNat 64 (a.toNat * b.toNat / 2 ^ 64))
  | 0x0C => some (divS a b)
  | 0x0D => some (divU a b)
  | 0x0E => some (remS a b)
  | 0x0F => some (remU a b)
  | 0x10 => some (if a.toInt ≤ b.toInt then a else b)
  | 0x11 => some (if a.toInt ≤ b.toInt then b else a)
  | 0x12 => some (if a.toNat ≤ b.toNat then a else b)
  | 0x13 => some (if a.toNat ≤ b.toNat then b else a)
  | 0x14 => some (BitVec.ofNat 64 (clz64 a))
  | 0x15 => some (BitVec.ofNat 64 (ctz64 a))
  | 0x16 => some (BitVec.ofNat 64 (popCount 64 a.toNat))
  | 0x17 => some ((a.setWidth 8).signExtend 64)
  | 0x18 => some ((a.setWidth 16).signExtend 64)
  | 0x19 => some ((a.setWidth 32).signExtend 64)
  | 0x1A => some ((a.setWidth 32).setWidth 64)
  | _ => none

/-- A unary ALU function, for which rs2 must be 0 (R164). -/
def aluUnary (fn : Nat) : Bool := decide (0x14 ≤ fn) && decide (fn ≤ 0x1A)

/-- The compare conditions of R166; none for a reserved code. -/
def cmpFn (cond : Nat) (a b : Word) : Option Bool :=
  match cond with
  | 0 => some (a == b)
  | 1 => some (a != b)
  | 2 => some (decide (a.toInt < b.toInt))
  | 3 => some (decide (b.toInt ≤ a.toInt))
  | 4 => some (decide (a.toNat < b.toNat))
  | 5 => some (decide (b.toNat ≤ a.toNat))
  | 6 => some (a &&& b != 0)
  | _ => none

/-- The predicate functions of R167; none for the reserved code. -/
def popFn (fn : Nat) (a b : Bool) : Option Bool :=
  match fn with
  | 0 => some (a && b)
  | 1 => some (a || b)
  | 2 => some (xor a b)
  | 3 => some (a && !b)
  | 4 => some (a || !b)
  | 5 => some a
  | 6 => some (!a)
  | _ => none

end Sys2Proof.Machine
end

