-- ==== Sys2Proof/Machine/Scalar.lean ====
section
/-!
DEFINITION. The S-slot instructions (R163 to R178, R203 to R208): one meaning each over the shared issue of a slot.
-/

namespace Sys2Proof.Machine

/-- An S slot with opcode opc. -/
def Dev.sSlot (d : Dev) (a : Slot) (opc : Nat) (ill : Bool)
    (work : Nat → SeqRegs → Except SlotFault (List SlotEff)) : Dev := d.slot a 0 opc ill none work

/-- An S slot whose only effect is a value in rd (bits [21:17]). -/
def Dev.sWrite (d : Dev) (a : Slot) (opc : Nat) (ill : Bool) (v : SeqRegs → Word) : Dev :=
  d.sSlot a opc ill fun _ r => .ok [.setS (opF a 17 5) (v r)]

/-- S_NOP: an empty position in any slot, or an opcode the slot does not define (R158, R161, R224). slot is 0 S, 1 M, 2 V,
3 X; a defined opcode other than nop is another command's and changes nothing here. -/
def opcDefined (slot opc : Nat) : Bool :=
  match slot with
  | 0 => decide (opc ≤ 0x1D)
  | 1 => decide (opc ≤ 5) || opc == 8 || opc == 9
  | 2 => decide (opc ≤ 0x29)
  | _ => decide (opc ≤ 9) || opc == 0x10 || opc == 0x11 || opc == 0x12 || opc == 0x18 || opc == 0x19 || opc == 0x1A ||
      opc == 0x1C || opc == 0x1E

/-- The meaning of S_NOP. -/
def Dev.sNop (d : Dev) (a : Slot) (slot opc : Nat) : Dev :=
  if 4 ≤ slot || 64 ≤ opc || (opc != 0 && opcDefined slot opc) then d
  else d.slot a slot opc (opc != 0 || a.args != 0) none fun _ _ => .ok []

/-- S_NOP (R158). -/
def execSNop (a : Slot) (slot opc : Nat) (s : State) : Host.Outcome State Fault Refusal := s.run (·.sNop a slot opc)

/-- S_ALU (R164). -/
def execSAlu (a : Slot) (s : State) : Host.Outcome State Fault Refusal :=
  let fn := opF a 0 7
  s.run fun d => d.sWrite a 1 ((aluFn fn 0 0).isNone || (aluUnary fn && opF a 7 5 != 0))
    fun r => (aluFn fn (r.sr (opF a 12 5)) (r.sr (opF a 7 5))).getD 0

/-- S_ADDI (R163). -/
def execSAddi (a : Slot) (s : State) : Host.Outcome State Fault Refusal :=
  s.run fun d => d.sWrite a 2 false fun r => r.sr (opF a 12 5) + sext64 (opImm a 12)

/-- S_ANDI (R163). -/
def execSAndi (a : Slot) (s : State) : Host.Outcome State Fault Refusal :=
  s.run fun d => d.sWrite a 3 false fun r => r.sr (opF a 12 5) &&& sext64 (opImm a 12)

/-- S_ORI (R163). -/
def execSOri (a : Slot) (s : State) : Host.Outcome State Fault Refusal :=
  s.run fun d => d.sWrite a 4 false fun r => r.sr (opF a 12 5) ||| sext64 (opImm a 12)

/-- S_XORI (R163). -/
def execSXori (a : Slot) (s : State) : Host.Outcome State Fault Refusal :=
  s.run fun d => d.sWrite a 5 false fun r => r.sr (opF a 12 5) ^^^ sext64 (opImm a 12)

/-- S_SHLI: imm12[11:6] must be 0 (R163). -/
def execSShli (a : Slot) (s : State) : Host.Outcome State Fault Refusal :=
  s.run fun d => d.sWrite a 6 (opF a 6 6 != 0) fun r => r.sr (opF a 12 5) <<< opF a 0 6

/-- S_SHRI (R163). -/
def execSShri (a : Slot) (s : State) : Host.Outcome State Fault Refusal :=
  s.run fun d => d.sWrite a 7 (opF a 6 6 != 0) fun r => r.sr (opF a 12 5) >>> opF a 0 6

/-- S_SRAI (R163). -/
def execSSrai (a : Slot) (s : State) : Host.Outcome State Fault Refusal :=
  s.run fun d => d.sWrite a 8 (opF a 6 6 != 0) fun r => (r.sr (opF a 12 5)).sshiftRight (opF a 0 6)

/-- S_MOVI (R163). -/
def execSMovi (a : Slot) (s : State) : Host.Outcome State Fault Refusal :=
  s.run fun d => d.sWrite a 9 false fun _ => sext64 (opImm a 17)

/-- S_MOVK: halfword 2·hi + h of rd, other bits kept (R163). -/
def execSMovk (a : Slot) (hi : Bool) (s : State) : Host.Outcome State Fault Refusal :=
  s.run fun d => d.sWrite a (if hi then 0x0B else 0x0A) false fun r =>
    setField (r.sr (opF a 17 5)) (16 * (opF a 16 1 + if hi then 2 else 0)) 16 (opF a 0 16)

/-- S_LD (R168, R169, R762). -/
def Dev.sLd (d : Dev) (a : Slot) (e : Ecc) : Dev :=
  let n := 2 ^ opF a 11 2
  let k := d.clu a.cl
  let r := d.seqr a.cl k.ctx
  let ea := memEa r a
  let reads := d.mayIssue a.cl && slotEnabled r a && (scalarCheck d k.ctx a.cl ea n 1).isNone
  let d := if reads then d.eccEvent e 0 (spadAddr a.cl ea) else d
  d.sSlot a 0x0C false fun x r =>
    let ea := memEa r a
    match scalarCheck d x a.cl ea n 1 with
    | some f => .error f
    | none =>
      if d.poisoned (spadAddr a.cl ea) n then .error .poison
      else .ok [.setS (opF a 17 5) (BitVec.ofNat 64 (leNat (d.localRead a.cl ea n)))]

/-- S_LD (R168). -/
def execSLd (a : Slot) (e : Ecc) (s : State) : Host.Outcome State Fault Refusal := s.run (·.sLd a e)

/-- S_ST (R168, R169); lost as for VX_STT (R510). -/
def execSSt (a : StoreSlot) (s : State) : Host.Outcome State Fault Refusal :=
  let n := 2 ^ opF a.toSlot 11 2
  s.run fun d => d.sSlot a.toSlot 0x0D false fun x r =>
    let ea := memEa r a.toSlot
    let bs := leBytes n (r.sr (opF a.toSlot 17 5)).toNat
    match scalarCheck d x a.cl ea n 2 with
    | some f => .error f
    | none => .ok [if a.lost.isEmpty then .store ea bs else .storeLosing 7 ea bs a.lost]

/-- S_CMP (R166). -/
def execSCmp (a : Slot) (s : State) : Host.Outcome State Fault Refusal :=
  let cond := opF a 5 4
  s.run fun d => d.sSlot a 0x0E ((cmpFn cond 0 0).isNone || opF a 0 5 != 0) fun _ r =>
    .ok [.setP (opF a 19 3) ((cmpFn cond (r.sr (opF a 14 5)) (r.sr (opF a 9 5))).getD false)]

/-- S_CMPI (R166). -/
def execSCmpi (a : Slot) (s : State) : Host.Outcome State Fault Refusal :=
  let cond := opF a 10 4
  s.run fun d => d.sSlot a 0x0F (cmpFn cond 0 0).isNone fun _ r =>
    .ok [.setP (opF a 19 3) ((cmpFn cond (r.sr (opF a 14 5)) (sext64 (opImm a 10))).getD false)]

/-- S_POP: for mov and not, pb must be 0 (R167). -/
def execSPop (a : Slot) (s : State) : Host.Outcome State Fault Refusal :=
  let fn := opF a 10 3
  s.run fun d => d.sSlot a 0x10
    ((popFn fn false false).isNone || opF a 0 10 != 0 || (decide (5 ≤ fn) && opF a 13 3 != 0)) fun _ r =>
    .ok [.setP (opF a 19 3) ((popFn fn (r.pr (opF a 16 3)) (r.pr (opF a 13 3))).getD false)]

/-- S_SEL (R163). -/
def execSSel (a : Slot) (s : State) : Host.Outcome State Fault Refusal :=
  s.run fun d => d.sWrite a 0x11 (opF a 0 4 != 0) fun r =>
    if r.pr (opF a 4 3) then r.sr (opF a 12 5) else r.sr (opF a 7 5)

/-- S_MOVA (R163). -/
def execSMova (a : Slot) (s : State) : Host.Outcome State Fault Refusal :=
  s.run fun d => d.sSlot a 0x12 (opF a 0 13 != 0) fun _ r => .ok [.setA (opF a 18 4) ((r.sr (opF a 13 5)).setWidth 48)]

/-- S_MOVS (R163). -/
def execSMovs (a : Slot) (s : State) : Host.Outcome State Fault Refusal :=
  s.run fun d => d.sWrite a 0x13 (opF a 0 13 != 0) fun r => (r.ar (opF a 13 4)).setWidth 64

/-- S_AADDI (R163). -/
def execSAaddi (a : Slot) (s : State) : Host.Outcome State Fault Refusal :=
  s.run fun d => d.sSlot a 0x14 false fun _ r =>
    .ok [.setA (opF a 18 4) (r.ar (opF a 14 4) + BitVec.ofInt 48 (opImm a 14))]

/-- S_AADD (R163). -/
def execSAadd (a : Slot) (s : State) : Host.Outcome State Fault Refusal :=
  s.run fun d => d.sSlot a 0x15 (opF a 0 9 != 0) fun _ r =>
    .ok [.setA (opF a 18 4) (r.ar (opF a 14 4) + (r.sr (opF a 9 5)).setWidth 48)]

/-- A control transfer to a target, or BRANCH (R174): the target is taken modulo 2^32, as PC is 32 bits wide. -/
def Dev.branchTo (d : Dev) (x c : Nat) (target : Nat) (effs : List SlotEff) : Except SlotFault (List SlotEff) :=
  if target % 16 ≠ 0 || d.imageLen x c ≤ target then .error (.exc 5 target 0) else .ok (effs ++ [.jump target])

/-- The target of a JMP form: PC_this + 16 × sext(imm22) (R173). -/
def jmpTarget (r : SeqRegs) (a : Slot) : Nat := wrapTo 32 ((r.pc : Int) + 16 * opImm a 22)

/-- S_BR (R173). -/
def execSBr (a : Slot) (s : State) : Host.Outcome State Fault Refusal :=
  s.run fun d => d.sSlot a 0x16 false fun x r => d.branchTo x a.cl (jmpTarget r a) []

/-- S_CALL: s31 takes PC_this + 16 (R173). -/
def execSCall (a : Slot) (s : State) : Host.Outcome State Fault Refusal :=
  s.run fun d => d.sSlot a 0x17 false fun x r =>
    d.branchTo x a.cl (jmpTarget r a) [.setS 31 (BitVec.ofNat 64 (r.pc + 16))]

/-- S_JR (R173). -/
def execSJr (a : Slot) (s : State) : Host.Outcome State Fault Refusal :=
  s.run fun d => d.sSlot a 0x18 (opF a 0 17 != 0) fun x r =>
    d.branchTo x a.cl (fieldOf (r.sr (opF a 17 5)) 0 32) []

/-- s.loop, as its pseudocode states it (R175, R176). -/
def openLoop (imageLen : Nat) (r : SeqRegs) (a : Slot) : Except SlotFault (List SlotEff) :=
  let n := fieldOf (r.sr (opF a 17 5)) 0 32
  let last := r.pc + 16 * opF a 0 17
  if r.loops.length = 2 || imageLen ≤ last then .error (.exc 7 last 0)
  else if r.loops.any fun l => decide (l.last < last) then .error (.exc 7 last 0)
  else if n = 0 then .ok [.skipTo (last + 16)]
  else .ok [.openLoop { first := r.pc + 16, last := last, left := n }]

/-- S_LOOP: end 0 is a decode fault (R161, R173). -/
def execSLoop (a : Slot) (s : State) : Host.Outcome State Fault Refusal :=
  s.run fun d => d.sSlot a 0x19 (opF a 0 17 == 0) fun x r => openLoop (d.imageLen x a.cl) r a

/-- S_LPOP (R178). -/
def execSLpop (a : Slot) (s : State) : Host.Outcome State Fault Refusal :=
  s.run fun d => d.sSlot a 0x1D (a.args != 0) fun _ r =>
    if r.loops.isEmpty then .error (.exc 7 r.pc 0) else .ok [.popLoop]

/-- A CSR offset that s.csrr may not read (R205). -/
def csrrForbidden (off : Nat) : Bool :=
  decide (0x18000 ≤ off) || (decide (0x100 ≤ off) && decide (off < 0x280)) || off == 0x280

/-- S_CSRR (R203 to R205). -/
def execSCsrr (a : Slot) (s : State) : Host.Outcome State Fault Refusal :=
  let off := opF a 3 14 * 8
  s.run fun d => d.sSlot a 0x1A (opF a 0 3 != 0) fun _ _ =>
    if csrrForbidden off then .error (.exc 8 off 0) else .ok [.setS (opF a 17 5) (d.seqRead a.cl off)]

/-- The sequencer-writable bits of a register of the cluster: W of MXA_WIN, and RM, W, SEED, STREAM and INDEX of the
VEC_ registers (R205, chapters 06 and 08). -/
def seqWritable (off : Nat) : Nat :=
  if off = 0x8010 then 0xFFFF
  else if off = 0x10010 then 0x7
  else if off = 0x10018 then 0xFFFF
  else if off = 0x10020 then 0xFFFFFFFF0F
  else if off = 0x10028 then 0xFFFFFFFFFFFFFFFF
  else 0

/-- S_CSRW (R203, R205, R206). -/
def execSCsrw (a : Slot) (s : State) : Host.Outcome State Fault Refusal :=
  let off := opF a 3 14 * 8
  s.run fun d => d.sSlot a 0x1B (opF a 0 3 != 0) fun _ r =>
    if seqWritable off = 0 then .error (.exc 8 off 0)
    else .ok [.csrw off (r.sr (opF a 17 5) &&& BitVec.ofNat 64 (seqWritable off))]

/-- S_TRAP (R208). -/
def execSTrap (a : Slot) (s : State) : Host.Outcome State Fault Refusal :=
  s.run fun d => d.sSlot a 0x1C (opF a 16 6 != 0) fun _ _ => .error (.exc 0x0C (opF a 0 16) 0)

end Sys2Proof.Machine
end

