-- ==== Sys2Proof/Machine/Vector.lean ====
section
/-!
DEFINITION. The element operations of the vector engine (R459 to R485): tile views, arithmetic, comparisons, reductions,
conversions, and compress and expand, as a function of three tiles.
-/

namespace Sys2Proof.Machine

/-- Container bytes of an element of a code (R459). -/
def viewBytes : Nat → Nat
  | 0 => 2 | 1 => 2 | 2 => 4 | 3 => 8 | 0xD => 4 | 0xE => 16 | _ => 1

/-- Columns of a view (R459). -/
def viewCols (fn : Nat) : Nat := 128 / viewBytes fn

/-- Elements of a view. -/
def viewElems (fn : Nat) : Nat := 4096 / viewBytes fn

/-- The n lowest digits of v in base 2^w, least significant first. -/
def digitsOf (w : Nat) : Nat → Nat → List Nat
  | 0, _ => []
  | n + 1, v => v % 2 ^ w :: digitsOf w n (v / 2 ^ w)

/-- The containers of a tile in a view, by linear index (R460). -/
def tileRaw (fn : Nat) (t : Tile) : List Nat := digitsOf (8 * viewBytes fn) (viewElems fn) t.toNat

/-- A tile from containers (R460). -/
def ofRaw (fn : Nat) (es : List Nat) : Tile :=
  let w := 8 * viewBytes fn
  BitVec.ofNat 32768 (es.foldr (fun e v => e % 2 ^ w + v * 2 ^ w) 0)

/-- The elements of a tile: the bits of each that R461 does not ignore. -/
def tileElems (fn : Nat) (t : Tile) : List Nat := (tileRaw fn t).map fun e => e % 2 ^ elemBits fn

/-- The container of an element: unused high bits 0, an OIS96 count sign-extended (R461). -/
def container (fn e : Nat) : Nat :=
  if fn = 0xE then wrapTo 128 (toSigned 96 e) else e % 2 ^ elemBits fn

/-- A tile from elements. -/
def ofElems (fn : Nat) (es : List Nat) : Tile := ofRaw fn (es.map (container fn))

/-- The bytes of a tile (R460). -/
def tileBytesOf (t : Tile) : Bytes := leBytes 4096 t.toNat
/-- A tile from bytes. -/
def tileOfBytes (bs : Bytes) : Tile := BitVec.ofNat 32768 (leNat bs)

/-- What an instruction takes beside its tiles: VEC_RMODE.RM, VEC_WIN.W, and the draw of an element plus an index offset
(R477, R478, R493). -/
structure VEnv where
  rm : Nat
  w : Int
  draw : Nat → Nat → BitVec 64

/-- What an instruction gives: its tile, its OIS events, its counted conversions, and VEC_CNT where it writes it. -/
structure VRes where
  tile : Tile
  ois : Nat := 0
  cvt : Nat := 0
  cnt : Option Nat := none
  deriving DecidableEq, Repr

/-- The rounding of element i (R474, R476). -/
def VEnv.round (v : VEnv) (i : Nat) : Round :=
  match v.rm with
  | 1 => .rtz
  | 2 => .ru
  | 3 => .rd
  | 4 => .sr ((v.draw i 0).toNat % 2 ^ 32)
  | _ => .rne

/-- Codes of the floating types. -/
def isF (fn : Nat) : Bool := fn ≤ 3
/-- INT8 and INT32. -/
def isI (fn : Nat) : Bool := fn == 0xB || fn == 0xD
/-- OIS96. -/
def isO (fn : Nat) : Bool := fn == 0xE

/-! ### One element -/

/-- An operation of two or three operands. -/
inductive Arith where
  | add | sub | mul | fma | fnma | div | min | max
  deriving DecidableEq, Repr

/-- The operation on a floating type (R468). -/
def floatArith (f : FFmt) (rm : Round) (op : Arith) (a b c : Nat) : Nat :=
  match op with
  | .add => f.add rm a b
  | .sub => f.sub rm a b
  | .mul => f.mul rm a b
  | .fma => f.fma rm a b c
  | .fnma => f.fnma rm a b c
  | .div => f.div rm a b
  | .min => f.min a b
  | .max => f.max a b

/-- The operation on integers, which wraps (R469). -/
def intArith (w : Nat) (op : Arith) (a b c : Nat) : Nat :=
  let x := toSigned w a
  let y := toSigned w b
  let z := toSigned w c
  wrapTo w (match op with
    | .add => x + y
    | .sub => x - y
    | .mul => x * y
    | .fma => x * y + z
    | .fnma => z - x * y
    | .div => 0
    | .min => if x ≤ y then x else y
    | .max => if x ≤ y then y else x)

/-- The operation on OIS96 counts (R470), with whether it saturates. -/
def oisArith (op : Arith) (a b : Nat) : Nat × Bool :=
  match oisVal a, oisVal b with
  | some x, some y =>
    let r := oisSat (match op with
      | .add => x + y
      | .sub => x - y
      | .min => if x ≤ y then x else y
      | .max => if x ≤ y then y else x
      | _ => 0)
    (oisBits r.1, r.2)
  | _, _ => (oisNan, false)

/-- The operation of a type on element i, with its OIS event. -/
def VEnv.arith (v : VEnv) (fn : Nat) (op : Arith) (i a b c : Nat) : Nat × Bool :=
  match floatFmt fn with
  | some f => (floatArith f (v.round i) op a b c, false)
  | none => if isO fn then oisArith op a b else (intArith (elemBits fn) op a b c, false)

/-- vx.abs and vx.neg (R468 to R470). -/
def signOp (fn : Nat) (neg : Bool) (a : Nat) : Nat × Bool :=
  match floatFmt fn with
  | some f =>
    if (f.dec a).isNan then (f.nanBits, false)
    else (if neg then f.flip a else a % 2 ^ (f.width - 1), false)
  | none =>
    if isO fn then
      match oisVal a with
      | none => (oisNan, false)
      | some x => let r := oisSat (if neg then -x else (x.natAbs : Int)); (oisBits r.1, r.2)
    else
      let x := toSigned (elemBits fn) a
      (wrapTo (elemBits fn) (if neg then -x else (x.natAbs : Int)), false)

/-- The comparisons: equal, unequal, less, less or equal. -/
inductive Cmp where
  | eq | ne | lt | le
  deriving DecidableEq, Repr

/-- A comparison of two elements (R471). -/
def cmpElem (fn : Nat) (op : Cmp) (a b : Nat) : Bool :=
  match floatFmt fn with
  | some f =>
    let x := f.dec a
    let y := f.dec b
    let nan := x.isNan || y.isNan
    match op with
    | .eq => !nan && x.eq y
    | .ne => nan || !x.eq y
    | .lt => !nan && x.lt y
    | .le => !nan && !y.lt x
  | none =>
    let val := fun (e : Nat) => if isO fn then oisVal e else some (toSigned (elemBits fn) e)
    match val a, val b with
    | some x, some y =>
      match op with
      | .eq => x == y
      | .ne => x != y
      | .lt => decide (x < y)
      | .le => decide (x ≤ y)
    | _, _ => op == .ne

/-- The shifts (R469): left, logical right, arithmetic right. -/
inductive Shift where
  | shl | shr | sra
  deriving DecidableEq, Repr

/-- A shift of an integer element. -/
def shiftElem (fn : Nat) (op : Shift) (a b : Nat) : Nat :=
  let w := elemBits fn
  let n := b % w
  match op with
  | .shl => a * 2 ^ n % 2 ^ w
  | .shr => a % 2 ^ w / 2 ^ n
  | .sra => wrapTo w (toSigned w a / ((2 ^ n : Nat) : Int))

/-- A reference function on a type: widen, apply, round (R483). -/
def refElem (fn : Nat) (g : Nat → Nat) (a : Nat) : Nat :=
  let f := (floatFmt fn).getD fFP32
  f.rne (fFP32.dec (g (fFP32.rne (f.dec a))))

/-- The exact value of a source element of vx.cvt (R480, R481). -/
def cvtVal (src : Nat) (w : Int) (e : Nat) : FVal :=
  if src = 0xE then
    match oisVal e with
    | none => .nan
    | some n => oisToVal n w
  else elemVal src e

/-- A value rounded into a w-bit two's complement integer, with whether it is counted (R480). -/
def toIntElem (w : Nat) (rm : Round) (v : FVal) : Nat × Bool :=
  let top : Int := ((2 ^ (w - 1) - 1 : Nat) : Int)
  match v with
  | .nan => (0, true)
  | .inf neg => (wrapTo w (if neg then -top - 1 else top), true)
  | v =>
    let n := v.toInt rm
    if top < n then (wrapTo w top, true)
    else if n < -top - 1 then (wrapTo w (-top - 1), true)
    else (wrapTo w n, false)

/-- The conversion of a value to a destination code: the element, a counted conversion, an OIS event (R480). -/
def cvtTo (dst : Nat) (rm : Round) (w : Int) (v : FVal) : Nat × Bool × Bool :=
  match floatFmt dst with
  | some f => let r := f.enc rm v; (r.1, r.2, false)
  | none =>
    if dst = 0xE then
      match oisOf v w with
      | none => (oisNan, false, true)
      | some (n, s) => (oisBits n, false, s)
    else let r := toIntElem (elemBits dst) rm v; (r.1, r.2, false)

/-! ### Whole tiles -/

/-- Number of elements of a list of flags that are set. -/
def countTrue (l : List Bool) : Nat := (l.filter id).length

/-- Apply a function with an event flag to the elements of three tiles. -/
def zipTiles (fn : Nat) (f : Nat → Nat → Nat → Nat → Nat × Bool) (ta tb td : Tile) : VRes :=
  let es := (List.zip (tileElems fn ta) (List.zip (tileElems fn tb) (tileElems fn td))).mapIdx fun i e => f i e.1 e.2.1 e.2.2
  { tile := ofElems fn (es.map Prod.fst), ois := countTrue (es.map Prod.snd) }

/-- A mask tile (R471). -/
def maskTile (fn : Nat) (f : Nat → Nat → Bool) (ta tb : Tile) : VRes :=
  { tile := ofRaw fn ((List.zip (tileElems fn ta) (tileElems fn tb)).map fun e =>
      if f e.1 e.2 then 2 ^ (8 * viewBytes fn) - 1 else 0) }

/-- The rows of a view. -/
def rowsOf {α : Type} (cols : Nat) : Nat → List α → List (List α)
  | 0, _ => []
  | n + 1, l => l.take cols :: rowsOf cols n (l.drop cols)

/-- One level of the tree of R473 at span w: x[i] takes op(x[i], x[i + w]) for i a multiple of 2w; base is the index of the
row's first element. -/
def treeLevel (op : Nat → Nat → Nat → Nat × Bool) (base w : Nat) (row : List (Nat × Nat)) : List (Nat × Nat) :=
  row.mapIdx fun i e =>
    if i % (2 * w) = 0 then
      match row[i + w]? with
      | some o => let r := op (base + i) e.1 o.1; (r.1, e.2 + o.2 + r.2.toNat)
      | none => e
    else e

/-- The reduction of a row in the fixed order (R473), with its events; the fuel is the number of levels. -/
def treeReduce (op : Nat → Nat → Nat → Nat × Bool) (base : Nat) : Nat → Nat → List (Nat × Nat) → Nat × Nat
  | 0, _, row => row.headD (0, 0)
  | k + 1, w, row => treeReduce op base k (2 * w) (treeLevel op base w row)

/-- An OIS96 row sum: exact before its single sat (R473). -/
def oisRowSum (row : List Nat) : Nat × Nat :=
  let s := row.foldl (fun (m : Option Int) e => match m, oisVal e with | some a, some b => some (a + b) | _, _ => none) (some 0)
  match s with
  | none => (oisNan, 0)
  | some n => let r := oisSat n; (oisBits r.1, r.2.toNat)

/-- vx.rsum and vx.rmax (R473). -/
def VEnv.reduce (v : VEnv) (fn : Nat) (op : Arith) (ta : Tile) : VRes :=
  let cols := viewCols fn
  let rows := rowsOf cols 32 (tileElems fn ta)
  let rs := rows.mapIdx fun r row =>
    if isO fn && op == .add then oisRowSum row
    else treeReduce (fun i a b => v.arith fn op i a b 0) (r * cols) (Nat.log2 cols) 1 (row.map fun e => (e, 0))
  { tile := ofElems fn (rs.flatMap fun r => r.1 :: List.replicate (cols - 1) 0), ois := rs.foldl (fun n r => n + r.2) 0 }

/-- vx.tr: the transpose of the 32-bit view (R472). -/
def transpose32 (ta : Tile) : Tile :=
  let es := tileRaw 2 ta
  ofRaw 2 ((upFrom 0 1024).map fun i => es.getD (i % 32 * 32 + i / 32) 0)

/-- vx.cmpr (R484). -/
def compress (fn : Nat) (ta tb : Tile) : VRes :=
  let kept := ((List.zip (tileElems fn ta) (tileElems fn tb)).filter fun e => e.2 != 0).map Prod.fst
  { tile := ofElems fn (kept ++ List.replicate (viewElems fn - kept.length) 0), cnt := some kept.length }

/-- Elements of a packed list put where a mask is non-zero (R485). -/
def expandList : List Nat → List Nat → List Nat
  | [], _ => []
  | m :: ms, ps => if m ≠ 0 then ps.headD 0 :: expandList ms ps.tail else 0 :: expandList ms ps

/-- vx.expd (R485). -/
def expand (fn : Nat) (ta tb : Tile) : VRes :=
  let ms := tileElems fn tb
  { tile := ofElems fn (expandList ms (tileElems fn ta)), cnt := some (ms.filter fun m => m != 0).length }

/-- vx.cvt (R479, R480): src and part from the tb field, fn the destination. -/
def VEnv.convert (v : VEnv) (dst src part : Nat) (ta td : Tile) : VRes :=
  let cs := viewCols src
  let cd := viewCols dst
  let ss := tileElems src ta
  let ds := tileRaw dst td
  let rs := (upFrom 0 (viewElems dst)).map fun i =>
    let r := i / cd
    let c := i % cd
    let from_ := if cd ≤ cs then some (r * cs + part * cd + c)
      else if part * cs ≤ c && c < part * cs + cs then some (r * cs + (c - part * cs)) else none
    match from_ with
    | none => (ds.getD i 0, false, false)
    | some j =>
      let rm := if src = 0xE then .rne else v.round i
      let e := cvtTo dst rm v.w (cvtVal src v.w (ss.getD j 0))
      (container dst e.1, e.2.1, e.2.2)
  { tile := ofRaw dst (rs.map Prod.fst), cvt := countTrue (rs.map fun e => e.2.1), ois := countTrue (rs.map fun e => e.2.2) }

/-- vx.rng (R478). -/
def VEnv.random (v : VEnv) (fn : Nat) : VRes :=
  { tile := ofElems fn ((upFrom 0 (viewElems fn)).map fun i =>
      (v.draw i 0).toNat + if fn = 0xE then (v.draw i 256).toNat % 2 ^ 32 * 2 ^ 64 else 0) }

/-- A bitwise operation over the whole tile. -/
def bitTile (f : Tile → Tile → Tile) (ta tb : Tile) : VRes := { tile := f ta tb }

/-- The V-slot instructions on tiles (R465); tbf is the tb field. -/
def VEnv.run (v : VEnv) (opc fn tbf : Nat) (ta tb td : Tile) : VRes :=
  let one := fun (g : Nat → Nat) => zipTiles fn (fun _ a _ _ => (g a, false)) ta ta ta
  match opc with
  | 0x01 => zipTiles fn (v.arith fn .add) ta tb td
  | 0x02 => zipTiles fn (v.arith fn .sub) ta tb td
  | 0x03 => zipTiles fn (v.arith fn .mul) ta tb td
  | 0x04 => zipTiles fn (v.arith fn .fma) ta tb td
  | 0x05 => zipTiles fn (v.arith fn .fnma) ta tb td
  | 0x06 => zipTiles fn (v.arith fn .div) ta tb td
  | 0x07 => zipTiles fn (fun i a _ _ => (((floatFmt fn).getD fFP32).sqrt (v.round i) a, false)) ta ta ta
  | 0x08 => zipTiles fn (v.arith fn .min) ta tb td
  | 0x09 => zipTiles fn (v.arith fn .max) ta tb td
  | 0x0A => zipTiles fn (fun _ a _ _ => signOp fn false a) ta ta ta
  | 0x0B => zipTiles fn (fun _ a _ _ => signOp fn true a) ta ta ta
  | 0x0C => bitTile (· &&& ·) ta tb
  | 0x0D => bitTile (· ||| ·) ta tb
  | 0x0E => bitTile (· ^^^ ·) ta tb
  | 0x0F => bitTile (fun a b => a &&& ~~~b) ta tb
  | 0x10 => zipTiles fn (fun _ a b _ => (shiftElem fn .shl a b, false)) ta tb td
  | 0x11 => zipTiles fn (fun _ a b _ => (shiftElem fn .shr a b, false)) ta tb td
  | 0x12 => zipTiles fn (fun _ a b _ => (shiftElem fn .sra a b, false)) ta tb td
  | 0x13 => maskTile fn (cmpElem fn .eq) ta tb
  | 0x14 => maskTile fn (cmpElem fn .ne) ta tb
  | 0x15 => maskTile fn (cmpElem fn .lt) ta tb
  | 0x16 => maskTile fn (cmpElem fn .le) ta tb
  | 0x17 => zipTiles fn (fun _ a b c => (if c ≠ 0 then a else b, false)) ta tb td
  | 0x18 => { tile := ta }
  | 0x19 => { tile := ofElems fn (List.replicate (viewElems fn) ((tileElems fn ta).headD 0)) }
  | 0x1A => { tile := ofElems fn (upFrom 0 (viewElems fn)) }
  | 0x1B => v.random fn
  | 0x1C => v.reduce fn .add ta
  | 0x1D => v.reduce fn .max ta
  | 0x1E => { tile := transpose32 ta }
  | 0x1F => compress fn ta tb
  | 0x20 => expand fn ta tb
  | 0x21 => { tile := ofElems 0xD (List.replicate 1024 ((tileElems fn ta).filter fun e => e != 0).length) }
  | 0x22 => one (refElem fn rexp)
  | 0x23 => one (refElem fn rlog)
  | 0x24 => one (((floatFmt fn).getD fFP32).rsqrt)
  | 0x25 => one (refElem fn rtanh)
  | 0x26 => one (refElem fn rerf)
  | 0x27 => one (refElem fn rsin)
  | 0x28 => one (refElem fn rcos)
  | _ => v.convert fn (tbf % 16) (tbf / 16) ta td

/-! ### Decoding (R464 to R466, R479) -/

/-- fn is accepted by an opcode (R465). -/
def fnOk (opc fn : Nat) : Bool :=
  let w := decide (fn ≤ 0xE)
  match opc with
  | 0x01 | 0x02 | 0x08 | 0x09 | 0x0A | 0x0B | 0x13 | 0x14 | 0x15 | 0x16 | 0x1C | 0x1D => isF fn || isI fn || isO fn
  | 0x03 | 0x04 | 0x05 => isF fn || isI fn
  | 0x06 | 0x07 | 0x24 => isF fn
  | 0x0C | 0x0D | 0x0E | 0x0F | 0x18 | 0x1E => fn == 0
  | 0x10 | 0x11 | 0x12 => isI fn
  | 0x17 | 0x19 | 0x1B | 0x1F | 0x20 | 0x21 => w
  | 0x1A => isI fn
  | 0x22 | 0x23 | 0x25 | 0x26 | 0x27 | 0x28 => fn ≤ 2
  | 0x29 => w
  | _ => false

/-- The tb field of an opcode must be 0 (R466). -/
def tbUnused (opc : Nat) : Bool :=
  opc == 7 || opc == 0xA || opc == 0xB || (0x18 ≤ opc && opc ≤ 0x1E) || (0x21 ≤ opc && opc ≤ 0x28)

/-- The ta field of an opcode must be 0 (R466). -/
def taUnused (opc : Nat) : Bool := opc == 0x1A || opc == 0x1B

/-- A conversion that R479 does not allow. -/
def cvtBad (dst src part : Nat) : Bool :=
  let cs := viewCols src
  let cd := viewCols dst
  let ratio := max cs cd / min cs cd
  let oisPair := fun (c : Nat) => c == 2 || c == 3 || c == 0xD
  src == dst || src == 0xF || dst == 0xF || decide (4 < ratio) || decide (ratio ≤ part) ||
    (src == 0xE && !oisPair dst) || (dst == 0xE && !oisPair src)

/-- The operands of a V-slot word raise ILLEGAL (R465, R466, R479). -/
def vecIll (opc fn ta tb : Nat) : Bool :=
  !fnOk opc fn || (tbUnused opc && tb != 0) || (taUnused opc && ta != 0) ||
    (opc == 0x29 && cvtBad fn (tb % 16) (tb / 16))

/-- RM governs an instruction (R474): it rounds under SR when RM is 4. -/
def rmGoverns (opc fn tb : Nat) : Bool :=
  ((1 ≤ opc && opc ≤ 7) && isF fn) || (opc == 0x1C && isF fn) || (opc == 0x29 && fn != 0xE && tb % 16 != 0xE)

/-- An instruction draws (R477): vx.rng, and one that rounds under SR. -/
def draws (rm opc fn tb : Nat) : Bool := opc == 0x1B || (rm == 4 && rmGoverns opc fn tb)

end Sys2Proof.Machine
end

