-- ==== Sys2Proof/Machine/VecExec.lean ====
section
/-!
DEFINITION. The V-slot instructions, vx.ldt and vx.stt (R200, R465 to R485), and the descriptors vx.run and vx.wmax with their
queue (R487 to R502).
-/

namespace Sys2Proof.Machine

/-- A tile register. -/
def Cluster.tile (k : Cluster) (t : Nat) : Tile := mapGet (fun _ => 0) k.tiles t
/-- Write a tile register. -/
def Cluster.setTile (k : Cluster) (t : Nat) (v : Tile) : Cluster := { k with tiles := mapSet (fun _ => 0) k.tiles t v }

/-- The draw of index k under a key register for context x (R478). -/
def Dev.draw (d : Dev) (x : Nat) (key : Word) (k : Nat) : BitVec 64 :=
  cbg64 (BitVec.ofNat 64 (planSeed (d.ctx x).plan (fieldOf key 0 4))) (d.ctx x).step (fieldOf key 8 32) k

/-- What a V-slot instruction of cluster c takes: the registers before the bundle (R475, R477). -/
def Dev.slotEnv (d : Dev) (x c : Nat) : VEnv :=
  let base := (d.reg (Reg.VEC_SRIDX c)).toNat
  { rm := d.fld (Reg.VEC_RMODE c) 0 3, w := toSigned 16 (d.fld (Reg.VEC_WIN c) 0 16),
    draw := fun i off => d.draw x (d.reg (Reg.VEC_SRKEY c)) ((base + i + off) % 2 ^ 64) }

/-- The effects of a V-slot instruction (R467, R470, R477, R484). -/
def Dev.vecEffs (d : Dev) (x c opc : Nat) (a : Slot) : List SlotEff :=
  let k := d.clu c
  let fn := opF a 0 4
  let tb := opF a 4 6
  let env := d.slotEnv x c
  let r := env.run opc fn tb (k.tile (opF a 10 6)) (k.tile tb) (k.tile (opF a 16 6))
  [.useVec, .setTile (opF a 16 6) r.tile] ++
    (if r.ois = 0 then [] else [.count (Reg.VEC_CTX_SAT c x) r.ois, .oisMark]) ++
    (if r.cvt = 0 then [] else [.count (Reg.VEC_CTX_CVT c x) r.cvt]) ++
    (match r.cnt with | some n => [.csrw 0x10030 (BitVec.ofNat 64 n)] | none => []) ++
    (if draws env.rm opc fn tb then [.vecIdx (d.reg (Reg.VEC_SRIDX c) + 4096)] else []) ++
    (if opc = 0x1C && isF fn then [.breachMark] else [])

/-- A V-slot instruction that comes to issue (R161, R201, R465). -/
def Dev.vSlot (d : Dev) (a : Slot) (opc : Nat) : Dev :=
  d.slot a 2 opc (vecIll opc (opF a 0 4) (opF a 10 6) (opF a 4 6)) (some (opF a 16 6)) fun x _ => .ok (d.vecEffs x a.cl opc a)

/-- VX_ADD. -/
def execVxAdd (a : Slot) (s : State) : Host.Outcome State Fault Refusal := s.run (·.vSlot a 0x01)
/-- VX_SUB. -/
def execVxSub (a : Slot) (s : State) : Host.Outcome State Fault Refusal := s.run (·.vSlot a 0x02)
/-- VX_MUL. -/
def execVxMul (a : Slot) (s : State) : Host.Outcome State Fault Refusal := s.run (·.vSlot a 0x03)
/-- VX_FMA. -/
def execVxFma (a : Slot) (s : State) : Host.Outcome State Fault Refusal := s.run (·.vSlot a 0x04)
/-- VX_FNMA. -/
def execVxFnma (a : Slot) (s : State) : Host.Outcome State Fault Refusal := s.run (·.vSlot a 0x05)
/-- VX_DIV. -/
def execVxDiv (a : Slot) (s : State) : Host.Outcome State Fault Refusal := s.run (·.vSlot a 0x06)
/-- VX_SQRT. -/
def execVxSqrt (a : Slot) (s : State) : Host.Outcome State Fault Refusal := s.run (·.vSlot a 0x07)
/-- VX_MIN. -/
def execVxMin (a : Slot) (s : State) : Host.Outcome State Fault Refusal := s.run (·.vSlot a 0x08)
/-- VX_MAX. -/
def execVxMax (a : Slot) (s : State) : Host.Outcome State Fault Refusal := s.run (·.vSlot a 0x09)
/-- VX_ABS. -/
def execVxAbs (a : Slot) (s : State) : Host.Outcome State Fault Refusal := s.run (·.vSlot a 0x0A)
/-- VX_NEG. -/
def execVxNeg (a : Slot) (s : State) : Host.Outcome State Fault Refusal := s.run (·.vSlot a 0x0B)
/-- VX_AND. -/
def execVxAnd (a : Slot) (s : State) : Host.Outcome State Fault Refusal := s.run (·.vSlot a 0x0C)
/-- VX_OR. -/
def execVxOr (a : Slot) (s : State) : Host.Outcome State Fault Refusal := s.run (·.vSlot a 0x0D)
/-- VX_XOR. -/
def execVxXor (a : Slot) (s : State) : Host.Outcome State Fault Refusal := s.run (·.vSlot a 0x0E)
/-- VX_ANDN. -/
def execVxAndn (a : Slot) (s : State) : Host.Outcome State Fault Refusal := s.run (·.vSlot a 0x0F)
/-- VX_SHL. -/
def execVxShl (a : Slot) (s : State) : Host.Outcome State Fault Refusal := s.run (·.vSlot a 0x10)
/-- VX_SHR. -/
def execVxShr (a : Slot) (s : State) : Host.Outcome State Fault Refusal := s.run (·.vSlot a 0x11)
/-- VX_SRA. -/
def execVxSra (a : Slot) (s : State) : Host.Outcome State Fault Refusal := s.run (·.vSlot a 0x12)
/-- VX_CEQ. -/
def execVxCeq (a : Slot) (s : State) : Host.Outcome State Fault Refusal := s.run (·.vSlot a 0x13)
/-- VX_CNE. -/
def execVxCne (a : Slot) (s : State) : Host.Outcome State Fault Refusal := s.run (·.vSlot a 0x14)
/-- VX_CLT. -/
def execVxClt (a : Slot) (s : State) : Host.Outcome State Fault Refusal := s.run (·.vSlot a 0x15)
/-- VX_CLE. -/
def execVxCle (a : Slot) (s : State) : Host.Outcome State Fault Refusal := s.run (·.vSlot a 0x16)
/-- VX_SEL. -/
def execVxSel (a : Slot) (s : State) : Host.Outcome State Fault Refusal := s.run (·.vSlot a 0x17)
/-- VX_MOV. -/
def execVxMov (a : Slot) (s : State) : Host.Outcome State Fault Refusal := s.run (·.vSlot a 0x18)
/-- VX_BCAST. -/
def execVxBcast (a : Slot) (s : State) : Host.Outcome State Fault Refusal := s.run (·.vSlot a 0x19)
/-- VX_IOTA. -/
def execVxIota (a : Slot) (s : State) : Host.Outcome State Fault Refusal := s.run (·.vSlot a 0x1A)
/-- VX_RNG. -/
def execVxRng (a : Slot) (s : State) : Host.Outcome State Fault Refusal := s.run (·.vSlot a 0x1B)
/-- VX_RSUM. -/
def execVxRsum (a : Slot) (s : State) : Host.Outcome State Fault Refusal := s.run (·.vSlot a 0x1C)
/-- VX_RMAX. -/
def execVxRmax (a : Slot) (s : State) : Host.Outcome State Fault Refusal := s.run (·.vSlot a 0x1D)
/-- VX_TR. -/
def execVxTr (a : Slot) (s : State) : Host.Outcome State Fault Refusal := s.run (·.vSlot a 0x1E)
/-- VX_CMPR. -/
def execVxCmpr (a : Slot) (s : State) : Host.Outcome State Fault Refusal := s.run (·.vSlot a 0x1F)
/-- VX_EXPD. -/
def execVxExpd (a : Slot) (s : State) : Host.Outcome State Fault Refusal := s.run (·.vSlot a 0x20)
/-- VX_POPC. -/
def execVxPopc (a : Slot) (s : State) : Host.Outcome State Fault Refusal := s.run (·.vSlot a 0x21)
/-- VX_EXP. -/
def execVxExp (a : Slot) (s : State) : Host.Outcome State Fault Refusal := s.run (·.vSlot a 0x22)
/-- VX_LOG. -/
def execVxLog (a : Slot) (s : State) : Host.Outcome State Fault Refusal := s.run (·.vSlot a 0x23)
/-- VX_RSQRT. -/
def execVxRsqrt (a : Slot) (s : State) : Host.Outcome State Fault Refusal := s.run (·.vSlot a 0x24)
/-- VX_TANH. -/
def execVxTanh (a : Slot) (s : State) : Host.Outcome State Fault Refusal := s.run (·.vSlot a 0x25)
/-- VX_ERF. -/
def execVxErf (a : Slot) (s : State) : Host.Outcome State Fault Refusal := s.run (·.vSlot a 0x26)
/-- VX_SIN. -/
def execVxSin (a : Slot) (s : State) : Host.Outcome State Fault Refusal := s.run (·.vSlot a 0x27)
/-- VX_COS. -/
def execVxCos (a : Slot) (s : State) : Host.Outcome State Fault Refusal := s.run (·.vSlot a 0x28)
/-- VX_CVT. -/
def execVxCvt (a : Slot) (s : State) : Host.Outcome State Fault Refusal := s.run (·.vSlot a 0x29)

/-- VX_LDT (R200): a poisoned word freezes the context (R762). -/
def execVxLdt (a : Slot) (s : State) : Host.Outcome State Fault Refusal :=
  s.run fun d => d.slot a 3 8 false (some (opF a 16 6)) fun x r =>
    let ea := tileEa r a
    match rangeCheck d x a.cl ea 256 4096 1 with
    | some f => .error f
    | none =>
      if d.poisoned (spadAddr a.cl ea) 4096 then .error .poison
      else .ok [.useVec, .setTile (opF a 16 6) (tileOfBytes (d.localRead a.cl ea 4096))]

/-- VX_STT (R200); lost numbers the words that it loses to merged writes, with their masters (R510). -/
def execVxStt (a : Slot) (lost : List (Nat × Nat)) (s : State) : Host.Outcome State Fault Refusal :=
  s.run fun d => d.slot a 3 9 false none fun x r =>
    let ea := tileEa r a
    match rangeCheck d x a.cl ea 256 4096 2 with
    | some f => .error f
    | none =>
      let bs := tileBytesOf ((d.clu a.cl).tile (opF a 16 6))
      .ok [.useVec, if lost.isEmpty then .store ea bs else .storeLosing 3 ea bs lost]

/-! ### Tensors (R487, R488, R490, R492) -/

/-- A tensor descriptor (R487). -/
structure Tensor where
  addr : Nat
  scale : Nat
  fmt : Nat
  rank : Nat
  trows : Nat
  tcols : Nat
  size : List Nat
  stride : List Nat
  deriving DecidableEq, Repr

/-- The descriptor in 64 bytes. -/
def tensorOf (b : Bytes) : Tensor :=
  { addr := atLe b 0 8, scale := atLe b 8 8, fmt := atLe b 0x10 1, rank := atLe b 0x11 1, trows := atLe b 0x12 1,
    tcols := atLe b 0x13 1, size := (upFrom 0 5).map fun i => atLe b (0x14 + 4 * i) 4,
    stride := (upFrom 0 4).map fun i => atLe b (0x28 + 6 * i) 6 }

/-- Extent of a dimension. -/
def Tensor.ext (t : Tensor) (i : Nat) : Nat := t.size.getD i 1

/-- The code of the tile view a tensor's chunks take (R492): an MX tensor's is FP32's. -/
def tileCode (f : Nat) : Nat := if isMx f then 2 else f

/-- Shape of a descriptor out of range (R487, R488, R490). -/
def tensorShape (t : Tensor) : Bool :=
  t.rank == 0 || decide (5 < t.rank) || t.size.any (· == 0) || t.trows == 0 || decide (32 < t.trows) || t.tcols == 0 ||
    decide (viewCols (tileCode t.fmt) < t.tcols) ||
    (upFrom 0 5).any (fun i => decide (t.rank ≤ i) && (t.ext i != 1 || (decide (1 ≤ i) && t.stride.getD (i - 1) 0 != 0))) ||
    ((t.fmt == 8 || t.fmt == 9) && t.tcols % 4 != 0) || ((t.fmt == 0xA || t.fmt == 0xC) && t.tcols % 2 != 0)

/-- A format that is reserved, or an MX or OIS96 format that R490 forbids with the extent of a chunk (R500, log entry 52). -/
def tensorFormat (t : Tensor) : Bool :=
  decide (0xE < t.fmt) || (isMx t.fmt && t.tcols != 32) || (t.fmt == 0xE && decide (8 < t.tcols))

/-- The checks of a tensor descriptor, or of a failed read of it (R500). -/
def tensorChecks (r : Except RdErr Bytes) : List (Nat × Bool × Nat) :=
  match r with
  | .error e => [((e.sub 0x23 0x24).sub, true, e.addr)]
  | .ok b =>
    let t := tensorOf b
    [(0x20, tensorFormat t, 0), (0x21, tensorShape t, 0), alignErr 0x22 16 (t.addr :: t.stride),
      (0x26, !isMx t.fmt && t.scale != 0, 0)]

/-- The tensor that a read gives. -/
def tensorGot (r : Except RdErr Bytes) : Tensor :=
  match r with
  | .ok b => tensorOf b
  | .error _ => tensorOf []

/-- Address of the row of a tensor at outer indices, of element 0 along dimension 0 (R488). -/
def Tensor.rowAddr (t : Tensor) (i1 i2 i3 i4 : Nat) : Nat :=
  t.addr + i1 * t.stride.getD 0 0 + i2 * t.stride.getD 1 0 + i3 * t.stride.getD 2 0 + i4 * t.stride.getD 3 0

/-- The linear index of a row (R488, R493). -/
def Tensor.rowIx (t : Tensor) (i1 i2 i3 i4 : Nat) : Nat := i1 + t.ext 1 * (i2 + t.ext 2 * (i3 + t.ext 3 * i4))

/-- Address of the scale byte of block b of a row. -/
def Tensor.scaleAt (t : Tensor) (row b : Nat) : Nat := t.scale + row * ceilDiv (t.ext 0) 32 + b

/-- A chunk: its first index along each dimension. -/
structure Chunk where
  i0 : Nat
  i1 : Nat
  i2 : Nat
  i3 : Nat
  i4 : Nat
  deriving DecidableEq, Repr

/-- 0, s, 2s, ... below n. -/
def stepsTo (n s : Nat) : List Nat := (upFrom 0 (ceilDiv n s)).map (· * s)

/-- The chunks of a tensor in order, dimension 0 innermost (R491). -/
def Tensor.chunks (t : Tensor) : List Chunk :=
  (upFrom 0 (t.ext 4)).flatMap fun i4 => (upFrom 0 (t.ext 3)).flatMap fun i3 => (upFrom 0 (t.ext 2)).flatMap fun i2 =>
    (stepsTo (t.ext 1) t.trows).flatMap fun i1 => (stepsTo (t.ext 0) t.tcols).map fun i0 => ⟨i0, i1, i2, i3, i4⟩

/-- Rows of a chunk within the tensor. -/
def Tensor.rowsIn (t : Tensor) (k : Chunk) : Nat := min t.trows (t.ext 1 - k.i1)
/-- Columns of a chunk within the tensor. -/
def Tensor.colsIn (t : Tensor) (k : Chunk) : Nat := min t.tcols (t.ext 0 - k.i0)

/-- The bytes of row r of a chunk. -/
def Tensor.chunkRow (t : Tensor) (k : Chunk) (r : Nat) : Nat × Nat :=
  (t.rowAddr (k.i1 + r) k.i2 k.i3 k.i4 + elemBytes t.fmt k.i0, elemBytes t.fmt (t.colsIn k))

/-- The ranges an input chunk reads, its scale bytes last. -/
def Tensor.chunkReads (t : Tensor) (k : Chunk) : List (Nat × Nat) :=
  (upFrom 0 (t.rowsIn k)).map (t.chunkRow k) ++
    (if isMx t.fmt then
      (upFrom 0 (t.rowsIn k)).map fun r => (t.scaleAt (t.rowIx (k.i1 + r) k.i2 k.i3 k.i4) (k.i0 / 32), 1)
    else [])

/-- A tile from a function of row and column over a view. -/
def tileFrom (code : Nat) (f : Nat → Nat → Nat) : Tile :=
  let cols := viewCols code
  ofElems code ((upFrom 0 (viewElems code)).map fun i => f (i / cols) (i % cols))

/-- An input chunk in its tile view (R492): positions outside the tensor are 0. -/
def Tensor.load (t : Tensor) (k : Chunk) (bs : List Bytes) : Tile :=
  let rows := t.rowsIn k
  let cols := t.colsIn k
  tileFrom (tileCode t.fmt) fun r c =>
    if r < rows && c < cols then
      let e := elemOf t.fmt (bs.getD r []) c
      if isMx t.fmt then fFP32.rne (mxVal t.fmt e (leNat (bs.getD (rows + r) []))) else e
    else 0

/-- The mask tile t63 of a chunk (R491). -/
def Tensor.mask (t : Tensor) (k : Chunk) : Tile :=
  tileFrom 2 fun r c => if k.i1 + r < t.ext 1 && k.i0 + c < t.ext 0 then 0xFFFFFFFF else 0

/-- Element (r, c) is stored: it lies in the tensor, and t63 is not 0 there, where the 32-bit view has that column (log
entry 18). -/
def Tensor.stores (t : Tensor) (k : Chunk) (mask : List Nat) (r c : Nat) : Bool :=
  decide (r < t.rowsIn k) && decide (c < t.colsIn k) && (decide (32 ≤ c) || mask.getD (r * 32 + c) 0 != 0)

/-- The runs of set flags in a list: start and length. -/
def runsFrom : Nat → List Bool → List (Nat × Nat)
  | _, [] => []
  | i, b :: t =>
    match runsFrom (i + 1) t with
    | (s, n) :: l => if b then (if s = i + 1 then (i, n + 1) :: l else (i, 1) :: (s, n) :: l) else (s, n) :: l
    | [] => if b then [(i, 1)] else []

/-- The bytes that a run of packed elements from index s changes: their first byte and the bits over old bytes. -/
def mergeRun (f s : Nat) (es : List Nat) (old : Nat → Bytes) : Nat × Bytes :=
  let b := elemBits f
  let lo := b * s
  let n := (lo + b * es.length + 7) / 8 - lo / 8
  let was := leNat (old n)
  let sh := lo % 8
  let w := b * es.length
  let new := es.foldr (fun e v => e % 2 ^ b + v * 2 ^ b) 0
  (lo / 8, leBytes n (was % 2 ^ sh + new * 2 ^ sh + was / 2 ^ (sh + w) * 2 ^ (sh + w)))

/-- emax of an MX element format (R492). -/
def mxEmax : Nat → Int
  | 6 => 8 | 7 => 15 | 8 => 2 | 9 => 4 | _ => 2

/-- The scale exponent of a block of values, or none where one is NaN or infinite (R492). -/
def mxExp (f : Nat) (vs : List FVal) : Option Int :=
  if vs.any fun v => match v with | .fin _ _ _ => false | _ => true then none
  else
    match vs.foldl (fun (m : Option Int) v =>
        match v.ilogb, m with
        | some i, some j => some (max i j)
        | some i, none => some i
        | none, j => j) none with
    | none => some (-127)
    | some i => some (max (-127) (min 127 (i - mxEmax f)))

/-- A block of an MX output: scale byte, elements and counted events (R492). -/
def mxBlock (f : Nat) (rm : Nat → Round) (vs : List FVal) : Nat × List Nat × Nat :=
  match mxExp f vs with
  | none => (0xFF, List.replicate vs.length 0, 1)
  | some x =>
    let es := vs.mapIdx fun c v => ((floatFmt f).getD fE4M3).enc (rm c) (v.scale (-x))
    ((x + 127).toNat, es.map Prod.fst, countTrue (es.map Prod.snd))

/-- What a store of a chunk row writes: addresses and bytes, and its counted events. old reads the bytes in place. -/
def Tensor.storeRow (t : Tensor) (k : Chunk) (v : VEnv) (mask vals : List Nat) (old : Nat → Nat → Bytes) (r : Nat) :
    List (Nat × Bytes) × Nat :=
  let cols := viewCols (tileCode t.fmt)
  let n := t.colsIn k
  let row := (upFrom 0 n).map fun c => vals.getD (r * cols + c) 0
  let keep := (upFrom 0 n).map (t.stores k mask r)
  let a := (t.chunkRow k r).1
  let put := fun (es : List Nat) => (runsFrom 0 keep).map fun s =>
    let base := a + elemBits t.fmt * s.1 / 8
    let m := mergeRun t.fmt s.1 ((es.drop s.1).take s.2) (old base)
    (a + m.1, m.2)
  if isMx t.fmt then
    let blk := mxBlock t.fmt (fun c => v.round (r * cols + c)) (row.map fFP32.dec)
    (put blk.2.1 ++ [(t.scaleAt (t.rowIx (k.i1 + r) k.i2 k.i3 k.i4) (k.i0 / 32), [BitVec.ofNat 8 blk.1])], blk.2.2)
  else (put row, 0)

/-! ### vx.run (R489 to R495) -/

/-- A program word is not one that R491 allows. -/
def vprogBad (w : Nat) : Bool :=
  bitsOf w 28 4 != 0 || decide (0x29 < bitsOf w 22 6) || bitsOf w 22 6 == 0 ||
    vecIll (bitsOf w 22 6) (bitsOf w 0 4) (bitsOf w 10 6) (bitsOf w 4 6)

/-- The program words in their bytes. -/
def progWords (b : Bytes) (n : Nat) : List Nat := (upFrom 0 n).map fun i => atLe b (4 * i) 4

/-- Offsets of the input descriptors that a body uses, and of the output descriptors. -/
def runOffs (b : Bytes) : List Nat × List Nat :=
  ((upFrom 0 (min 3 (atLe b 0x11 1))).map (fun i => atLe b (0x18 + 4 * i) 4),
    (upFrom 0 (min 2 (atLe b 0x12 1))).map fun i => atLe b (0x24 + 4 * i) 4)

/-- Unused descriptor offsets are not 0 (R489). -/
def runUnused (b : Bytes) : Bool :=
  (upFrom 0 3).any (fun i => decide (atLe b 0x11 1 ≤ i) && atLe b (0x18 + 4 * i) 4 != 0) ||
    (upFrom 0 2).any fun i => decide (atLe b 0x12 1 ≤ i) && atLe b (0x24 + 4 * i) 4 != 0

/-- Every descriptor of a vx.run has one shape (R490). -/
def sameShape (ts : List Tensor) : Bool :=
  match ts with
  | [] => true
  | t :: l => l.all fun u => u.size == t.size && u.trows == t.trows && u.tcols == t.tcols

/-- The first program word that R491 does not allow. -/
def badWord (ws : List Nat) : Option Nat := ws.findIdx? vprogBad

/-- Every check of a vx.run before its work (R500, R501). -/
def Dev.vxRunErr (d : Dev) (q : Desc) : Option SubErr :=
  let b := q.bytes
  let ops := atLe b 0x10 1
  let offs := runOffs b
  let got := (offs.1 ++ offs.2).map fun o => d.engLocal q.ctx q.cl o 64
  let prog := d.engLocal q.ctx q.cl (atLe b 0x14 4) (4 * min 8 ops)
  let ts := (got.filter fun r => r.toOption.isSome).map tensorGot
  let ws := match prog with | .ok p => progWords p (min 8 ops) | .error _ => []
  leastErr ([(0x21, ops == 0 || decide (8 < ops) || decide (3 < atLe b 0x11 1) || atLe b 0x12 1 == 0 || decide (2 < atLe b 0x12 1) ||
      !sameShape ts, 0),
    alignErr 0x22 16 [atLe b 0x14 4], alignErr 0x22 64 (offs.1 ++ offs.2)] ++ got.flatMap tensorChecks ++
    (match prog with
    | .error e => [((e.sub 0x23 0x24).sub, true, e.addr)]
    | .ok _ => []) ++
    [(0x25, (badWord ws).isSome, 0), (0x26, !zeroAt b 0x13 1 || !zeroAt b 0x2C 4 || !zeroAt b 0x38 8 || runUnused b, 0)])

/-- The program word that VEC_FAULT_INFO names at VPROG. -/
def Dev.vxWordOf (d : Dev) (q : Desc) : Nat :=
  match d.engLocal q.ctx q.cl (atLe q.bytes 0x14 4) (4 * min 8 (atLe q.bytes 0x10 1)) with
  | .ok p => (badWord (progWords p (min 8 (atLe q.bytes 0x10 1)))).getD 0
  | .error _ => 0

/-- The environment of a program word in a chunk: registers sampled at issue, and the draws of R493. -/
def Dev.runEnv (d : Dev) (q : Desc) (t : Tensor) (k : Chunk) (dst : Nat) : VEnv :=
  let cols := viewCols dst
  let base := atLe q.bytes 0x30 8
  { rm := fieldOf (q.cfg.getD 1 0) 0 3, w := toSigned 16 (fieldOf (q.cfg.getD 0 0) 0 16),
    draw := fun i off =>
      let row := t.rowIx (k.i1 + i / cols) k.i2 k.i3 k.i4
      d.draw q.ctx (q.cfg.getD 2 0) ((base + (k.i0 + i % cols) + t.ext 0 * row + off) % 2 ^ 64) }

/-- OIS events and counted conversions of a descriptor (R470, R480, R702). -/
def Dev.vxEvents (d : Dev) (q : Desc) (ois cvt : Nat) : Dev :=
  let d := if ois = 0 then d else (d.bump (Reg.VEC_CTX_SAT q.cl q.ctx) ois).markSat q.ctx q.cl q.pc
  if cvt = 0 then d else d.bump (Reg.VEC_CTX_CVT q.cl q.ctx) cvt

/-- One program word on the tiles (R491): VEC_SRIDX and VEC_CNT are untouched (R493). -/
def Dev.runWord (d : Dev) (q : Desc) (t : Tensor) (k : Chunk) (w : Nat) : Dev :=
  let c := d.clu q.cl
  let opc := bitsOf w 22 6
  let fn := bitsOf w 0 4
  let tb := bitsOf w 4 6
  let r := (d.runEnv q t k fn).run opc fn tb (c.tile (bitsOf w 10 6)) (c.tile tb) (c.tile (bitsOf w 16 6))
  let d := (d.modClu q.cl fun c => c.setTile (bitsOf w 16 6) r.tile).vxEvents q r.ois r.cvt
  if opc = 0x1C && isF fn then d.markBreach q.ctx q.cl q.pc else d

/-- Load the chunk of every input into t48 and on (R491). -/
def Dev.loadInputs (d : Dev) (q : Desc) (k : Chunk) : Nat → List Tensor → Except RdErr Dev
  | _, [] => .ok d
  | n, t :: l =>
    match d.rows q.ctx (t.chunkReads k) with
    | .error e => .error e
    | .ok bs =>
      ((d.touchRows q.ctx (t.chunkReads k)).modClu q.cl fun c => c.setTile n (t.load k bs)).loadInputs q k (n + 1) l

/-- Bytes in place at a context virtual address, poison or not: a store of part of a byte keeps the rest. -/
def Dev.inPlace (d : Dev) (x a n : Nat) : Bytes :=
  match d.translate x .w a n with
  | .ok ps => d.readPieces ps
  | .error _ => []

/-- Store the rows of an output chunk (R491, R492); the address that cannot be written, if any. -/
def Dev.storeChunk (d : Dev) (q : Desc) (t : Tensor) (k : Chunk) (tile : Nat) : Dev × Option Nat :=
  let c := d.clu q.cl
  let mask := tileRaw 2 (c.tile 63)
  let vals := tileElems (tileCode t.fmt) (c.tile tile)
  let env := d.runEnv q t k (tileCode t.fmt)
  (upFrom 0 (t.rowsIn k)).foldl
    (fun (acc : Dev × Option Nat) r =>
      match acc.2 with
      | some _ => acc
      | none =>
        let o := t.storeRow k env mask vals (fun a n => acc.1.inPlace q.ctx a n) r
        (acc.1.vxEvents q 0 o.2).writeRows q.ctx o.1) (d, none)

/-- Store every output of a chunk from t52 and on. -/
def Dev.storeOutputs (d : Dev) (q : Desc) (k : Chunk) : Nat → List Tensor → Dev × Option Nat
  | _, [] => (d, none)
  | n, t :: l =>
    let r := d.storeChunk q t k n
    match r.2 with
    | some a => (r.1, some a)
    | none => r.1.storeOutputs q k (n + 1) l

/-- The chunks of a vx.run in order (R491). -/
def Dev.runChunks (d : Dev) (q : Desc) (ins outs : List Tensor) (ws : List Nat) (shape : Tensor) :
    List Chunk → Dev × Option SubErr
  | [] => (d, none)
  | k :: t =>
    match d.loadInputs q k 48 ins with
    | .error e => (d, some (e.sub 0x23 0x24))
    | .ok d =>
      let d := d.modClu q.cl fun c => c.setTile 63 (shape.mask k)
      let d := ws.foldl (fun e w => e.runWord q shape k w) d
      let r := d.storeOutputs q k 52 outs
      match r.2 with
      | some a => (r.1, some ⟨0x23, a⟩)
      | none => r.1.runChunks q ins outs ws shape t

/-- The tensors from the i-th on in what a descriptor read at its start: 64 bytes each (R500). -/
def vxTensors (opr : Bytes) (i n : Nat) : List Tensor := (upFrom i n).map fun j => tensorOf ((opr.drop (64 * j)).take 64)

/-- vx.run performed, on the descriptors and program words read at its start. -/
def Dev.vxRun (d : Dev) (j : Job) : Dev × Option SubErr :=
  let q := j.desc
  let nin := (runOffs q.bytes).1.length
  let nout := (runOffs q.bytes).2.length
  let outs := vxTensors j.opr nin nout
  let shape := outs.headD (tensorOf [])
  let ws := progWords (j.opr.drop (64 * (nin + nout))) (atLe q.bytes 0x10 1)
  d.runChunks q (vxTensors j.opr 0 nin) outs ws shape shape.chunks

/-! ### vx.wmax (R496) -/

/-- Every check of a vx.wmax before its work (R500). -/
def Dev.vxWmaxErr (d : Dev) (q : Desc) : Option SubErr :=
  let b := q.bytes
  let nin := atLe b 0x10 1
  let offs := (upFrom 0 (min 2 nin)).map fun i => atLe b (0x14 + 4 * i) 4
  let got := offs.map fun o => d.engLocal q.ctx q.cl o 64
  let wout := atLe b 0x1C 4
  leastErr ([(0x21, nin == 0 || decide (2 < nin) || decide (63 < atLe b 0x11 1), 0), alignErr 0x22 64 offs,
    alignErr 0x22 2 [wout]] ++ got.flatMap tensorChecks ++
    [(0x23, d.localCheck q.ctx q.cl wout 2 2 != 0, located (d.localCheck q.ctx q.cl wout 2 2) wout),
    (0x26, !zeroAt b 0x12 2 || !zeroAt b 0x20 32 || (nin == 1 && atLe b 0x18 4 != 0), 0)])

/-- The greatest ilogb + 1 over the finite non-zero elements of a chunk's bytes (R496). -/
def Tensor.chunkExp (t : Tensor) (w : Int) (k : Chunk) (bs : List Bytes) (m : Option Int) : Option Int :=
  let rows := t.rowsIn k
  (upFrom 0 rows).foldl (fun m r => (upFrom 0 (t.colsIn k)).foldl (fun (m : Option Int) c =>
    let e := elemOf t.fmt (bs.getD r []) c
    let v := if isMx t.fmt then mxVal t.fmt e (leNat (bs.getD (rows + r) [])) else cvtVal t.fmt w e
    match v.ilogb, m with
    | some i, some j => some (max (i + 1) j)
    | some i, none => some (i + 1)
    | none, j => j) m) m

/-- E of a tensor: none where it has no finite non-zero element. -/
def Dev.tensorExp (d : Dev) (x : Nat) (t : Tensor) (w : Int) : List Chunk → Option Int → Except RdErr (Option Int)
  | [], m => .ok m
  | k :: l, m =>
    match d.rows x (t.chunkReads k) with
    | .error e => .error e
    | .ok bs => d.tensorExp x t w l (t.chunkExp w k bs m)

/-- The window of the exponents of one or two tensors (R496). -/
def wmaxOf (margin : Nat) (es : List (Option Int)) : Int :=
  if es.any Option.isNone then 0
  else max (-32768) (min 32767 (es.foldl (fun s e => s + e.getD 0) 0 + (margin : Int) - 31))

/-- vx.wmax performed, on the descriptors read at its start. -/
def Dev.vxWmax (d : Dev) (j : Job) : Dev × Option SubErr :=
  let q := j.desc
  let b := q.bytes
  let ts := vxTensors j.opr 0 (min 2 (atLe b 0x10 1))
  let w := toSigned 16 (fieldOf (q.cfg.getD 0 0) 0 16)
  let es := ts.foldr (fun t (acc : Except RdErr (List (Option Int))) =>
    match d.tensorExp q.ctx t w t.chunks none, acc with
    | .error e, _ => .error e
    | _, .error e => .error e
    | .ok m, .ok l => .ok (m :: l)) (.ok [])
  match es with
  | .error e => (d, some (e.sub 0x23 0x24))
  | .ok l =>
    let d := ts.foldl (fun e t => t.chunks.foldl (fun e k => e.touchRows q.ctx (t.chunkReads k)) e) d
    let wout := atLe b 0x1C 4
    let bad := d.localCheck q.ctx q.cl wout 2 2
    if bad ≠ 0 then (d, some ⟨0x23, located bad wout⟩)
    else (d.write (spadAddr q.cl wout) (leBytes 2 (wrapTo 16 (wmaxOf (atLe b 0x11 1) l))), none)

/-! ### The queue -/

/-- A descriptor queued for the vector engine of cluster c. -/
def vxOf (c : Nat) (q : Desc) : Bool := q.cl == c && kindQueue q.kind == 1

/-- A fault of the vector engine (R500, R501): VEC_FAULT_INFO, FROZEN, the queued descriptors discarded, the exception. -/
def Dev.vxFault (d : Dev) (q : Desc) (sub addr word : Nat) : Dev :=
  let a := if 0x22 ≤ sub && sub ≤ 0x24 then addr % 2 ^ 32 else 0
  let d := d.setReg (Reg.VEC_FAULT_INFO q.cl)
    (BitVec.ofNat 64 ((if sub = 0x25 then word % 8 else 0) + sub % 256 * 2 ^ 24 + a * 2 ^ 32))
  let d := d.modClu q.cl fun k => { k with vxFrozen := true }
  let d := { d with descs := d.descs.filter fun e => !vxOf q.cl e }
  d.descFault q sub (if sub = 0x23 then bitsOf addr 48 3 else 0)

/-- What a descriptor reads at its start, once its checks have passed: its tensor descriptors and, of a vx.run, its program words. -/
def Dev.vxRecord (d : Dev) (q : Desc) : Bytes :=
  let b := q.bytes
  if q.kind = 8 then
    ((runOffs b).1 ++ (runOffs b).2).flatMap (fun o => d.localRead q.cl o 64) ++ d.localRead q.cl (atLe b 0x14 4) (4 * atLe b 0x10 1)
  else (upFrom 0 (min 2 (atLe b 0x10 1))).flatMap fun i => d.localRead q.cl (atLe b (0x14 + 4 * i) 4) 64

/-- The ranges a descriptor's outputs take (R501); opr is what it read at its start. -/
def Dev.vxOuts (d : Dev) (q : Desc) (opr : Bytes) : List (Nat × Nat) :=
  if q.kind = 8 then
    (vxTensors opr (runOffs q.bytes).1.length (runOffs q.bytes).2.length).flatMap fun t =>
      t.chunks.flatMap fun k => d.outRanges q.ctx (t.chunkReads k)
  else [(spadAddr q.cl (atLe q.bytes 0x1C 4), 2)]

/-- The vector engine begins its next queued descriptor (R494, R501). -/
def Dev.vxStart (d : Dev) (c : Nat) : Dev :=
  let k := d.clu c
  if k.vxFrozen || k.vxNow.isSome then d
  else
    match d.descs.find? (vxOf c) with
    | none => d
    | some q =>
      let d := { d with descs := d.descs.eraseP (vxOf c) }
      match (if q.kind = 8 then d.vxRunErr q else d.vxWmaxErr q) with
      | some e => d.vxFault q e.sub e.addr (d.vxWordOf q)
      | none => d.modClu c fun k => { k with vxNow := some { desc := q, opr := d.vxRecord q, outs := d.vxOuts q (d.vxRecord q) } }

/-- The vector engine finishes its descriptor (R495). -/
def Dev.vxComplete (d : Dev) (c : Nat) : Dev :=
  match (d.clu c).vxNow with
  | none => d
  | some j =>
    let q := j.desc
    let r := if q.kind = 8 then d.vxRun j else d.vxWmax j
    match r.2 with
    | some e => r.1.vxFault q e.sub e.addr 0
    | none => (r.1.modClu c fun k => { k with vxNow := none }).descDone q 1

/-- VX_DESC_START (R494). -/
def execVxDescStart (c : Nat) (s : State) : Host.Outcome State Fault Refusal := s.run (·.vxStart c)
/-- VX_DESC_COMPLETE (R495). -/
def execVxDescComplete (c : Done) (s : State) : Host.Outcome State Fault Refusal :=
  s.run fun d =>
    let e := d.vxComplete c.n
    e.endLosing d (e.clu c.n).vxNow.isSome 3 c.n ((d.clu c.n).vxNow.elim [] Job.outs) c.lost

end Sys2Proof.Machine
end

