-- ==== Sys2Proof/Machine/Dispatch.lean ====
section
/-!
DEFINITION. One arm per command: a direct call of its meaning, or a rejection by name.
-/

namespace Sys2Proof.Machine

def exec (i : Instr) (s : State) : Host.Outcome State Fault Refusal :=
  match i with
  | .csrWrite src off data => Sys2Proof.Machine.execCsrWrite src off data s
  | .aonPowerRead r => Sys2Proof.Machine.execAonPowerRead r s
  | .load src w => Sys2Proof.Machine.execLoad src w s
  | .loadComplete => Sys2Proof.Machine.execLoadComplete s
  | .start src w => Sys2Proof.Machine.execStart src w s
  | .startComplete => Sys2Proof.Machine.execStartComplete s
  | .unload src w => Sys2Proof.Machine.execUnload src w s
  | .unloadComplete => Sys2Proof.Machine.execUnloadComplete s
  | .planStopWrite src x w => Sys2Proof.Machine.execPlanStopWrite src x w s
  | .startAgreementComplete x => Sys2Proof.Machine.execStartAgreementComplete x s
  | .contextWake x => Sys2Proof.Machine.execContextWake x s
  | .stepStart x => Sys2Proof.Machine.execStepStart x s
  | .stepWatchdog x => Sys2Proof.Machine.execStepWatchdog x s
  | .drainComplete x => Sys2Proof.Machine.execDrainComplete x s
  | .boundaryComplete x => Sys2Proof.Machine.execBoundaryComplete x s
  | .journalWaitTimeout x => Sys2Proof.Machine.execJournalWaitTimeout x s
  | .syncUpdateApply k => Sys2Proof.Machine.execSyncUpdateApply k s
  | .waitComplete c => Sys2Proof.Machine.execWaitComplete c s
  | .trackerComplete k => Sys2Proof.Machine.execTrackerComplete k s
  | .trackerTimeout k => Sys2Proof.Machine.execTrackerTimeout k s
  | .dmaSegmentStart c e => Sys2Proof.Machine.execDmaSegmentStart c e s
  | .localWritePerform k lost => Sys2Proof.Machine.execLocalWritePerform k lost s
  | .clusterGate c => Sys2Proof.Machine.execClusterGate c s
  | .wakeStop x e => Sys2Proof.Machine.execWakeStop x e s
  | .wakeStart x e => Sys2Proof.Machine.execWakeStart x e s
  | .groupPllLocked g => Sys2Proof.Machine.execGroupPllLocked g s
  | .backgroundWindowOpen r n => Sys2Proof.Machine.execBackgroundWindowOpen r n s
  | .backgroundWindowClose r n => Sys2Proof.Machine.execBackgroundWindowClose r n s
  | .codeFetch c e => Sys2Proof.Machine.execCodeFetch c e s
  | .sNop a slot opc => Sys2Proof.Machine.execSNop a slot opc s
  | .sAlu a => Sys2Proof.Machine.execSAlu a s
  | .sAddi a => Sys2Proof.Machine.execSAddi a s
  | .sAndi a => Sys2Proof.Machine.execSAndi a s
  | .sOri a => Sys2Proof.Machine.execSOri a s
  | .sXori a => Sys2Proof.Machine.execSXori a s
  | .sShli a => Sys2Proof.Machine.execSShli a s
  | .sShri a => Sys2Proof.Machine.execSShri a s
  | .sSrai a => Sys2Proof.Machine.execSSrai a s
  | .sMovi a => Sys2Proof.Machine.execSMovi a s
  | .sMovk a hi => Sys2Proof.Machine.execSMovk a hi s
  | .sLd a e => Sys2Proof.Machine.execSLd a e s
  | .sSt a => Sys2Proof.Machine.execSSt a s
  | .sCmp a => Sys2Proof.Machine.execSCmp a s
  | .sCmpi a => Sys2Proof.Machine.execSCmpi a s
  | .sPop a => Sys2Proof.Machine.execSPop a s
  | .sSel a => Sys2Proof.Machine.execSSel a s
  | .sMova a => Sys2Proof.Machine.execSMova a s
  | .sMovs a => Sys2Proof.Machine.execSMovs a s
  | .sAaddi a => Sys2Proof.Machine.execSAaddi a s
  | .sAadd a => Sys2Proof.Machine.execSAadd a s
  | .sBr a => Sys2Proof.Machine.execSBr a s
  | .sCall a => Sys2Proof.Machine.execSCall a s
  | .sJr a => Sys2Proof.Machine.execSJr a s
  | .sLoop a => Sys2Proof.Machine.execSLoop a s
  | .sLpop a => Sys2Proof.Machine.execSLpop a s
  | .sCsrr a => Sys2Proof.Machine.execSCsrr a s
  | .sCsrw a => Sys2Proof.Machine.execSCsrw a s
  | .sTrap a => Sys2Proof.Machine.execSTrap a s
  | .mxGemm a => Sys2Proof.Machine.execMxGemm a s
  | .mxGemmGrp a => Sys2Proof.Machine.execMxGemmGrp a s
  | .mxGemmSp a => Sys2Proof.Machine.execMxGemmSp a s
  | .mxLoad a => Sys2Proof.Machine.execMxLoad a s
  | .mxDrain a => Sys2Proof.Machine.execMxDrain a s
  | .mxDescStart c => Sys2Proof.Machine.execMxDescStart c s
  | .mxDescComplete c => Sys2Proof.Machine.execMxDescComplete c s
  | .mxaRampTick c => Sys2Proof.Machine.execMxaRampTick c s
  | .mxaGapExpire c => Sys2Proof.Machine.execMxaGapExpire c s
  | .vxRun a => Sys2Proof.Machine.execVxRun a s
  | .vxWmax a => Sys2Proof.Machine.execVxWmax a s
  | .vxDescStart c => Sys2Proof.Machine.execVxDescStart c s
  | .vxDescComplete c => Sys2Proof.Machine.execVxDescComplete c s
  | .vxAdd a => Sys2Proof.Machine.execVxAdd a s
  | .vxSub a => Sys2Proof.Machine.execVxSub a s
  | .vxMul a => Sys2Proof.Machine.execVxMul a s
  | .vxFma a => Sys2Proof.Machine.execVxFma a s
  | .vxFnma a => Sys2Proof.Machine.execVxFnma a s
  | .vxDiv a => Sys2Proof.Machine.execVxDiv a s
  | .vxSqrt a => Sys2Proof.Machine.execVxSqrt a s
  | .vxMin a => Sys2Proof.Machine.execVxMin a s
  | .vxMax a => Sys2Proof.Machine.execVxMax a s
  | .vxAbs a => Sys2Proof.Machine.execVxAbs a s
  | .vxNeg a => Sys2Proof.Machine.execVxNeg a s
  | .vxAnd a => Sys2Proof.Machine.execVxAnd a s
  | .vxOr a => Sys2Proof.Machine.execVxOr a s
  | .vxXor a => Sys2Proof.Machine.execVxXor a s
  | .vxAndn a => Sys2Proof.Machine.execVxAndn a s
  | .vxShl a => Sys2Proof.Machine.execVxShl a s
  | .vxShr a => Sys2Proof.Machine.execVxShr a s
  | .vxSra a => Sys2Proof.Machine.execVxSra a s
  | .vxCeq a => Sys2Proof.Machine.execVxCeq a s
  | .vxCne a => Sys2Proof.Machine.execVxCne a s
  | .vxClt a => Sys2Proof.Machine.execVxClt a s
  | .vxCle a => Sys2Proof.Machine.execVxCle a s
  | .vxSel a => Sys2Proof.Machine.execVxSel a s
  | .vxMov a => Sys2Proof.Machine.execVxMov a s
  | .vxBcast a => Sys2Proof.Machine.execVxBcast a s
  | .vxIota a => Sys2Proof.Machine.execVxIota a s
  | .vxRng a => Sys2Proof.Machine.execVxRng a s
  | .vxRsum a => Sys2Proof.Machine.execVxRsum a s
  | .vxRmax a => Sys2Proof.Machine.execVxRmax a s
  | .vxTr a => Sys2Proof.Machine.execVxTr a s
  | .vxCmpr a => Sys2Proof.Machine.execVxCmpr a s
  | .vxExpd a => Sys2Proof.Machine.execVxExpd a s
  | .vxPopc a => Sys2Proof.Machine.execVxPopc a s
  | .vxExp a => Sys2Proof.Machine.execVxExp a s
  | .vxLog a => Sys2Proof.Machine.execVxLog a s
  | .vxRsqrt a => Sys2Proof.Machine.execVxRsqrt a s
  | .vxTanh a => Sys2Proof.Machine.execVxTanh a s
  | .vxErf a => Sys2Proof.Machine.execVxErf a s
  | .vxSin a => Sys2Proof.Machine.execVxSin a s
  | .vxCos a => Sys2Proof.Machine.execVxCos a s
  | .vxCvt a => Sys2Proof.Machine.execVxCvt a s
  | .vxLdt a => Sys2Proof.Machine.execVxLdt a s
  | .vxStt a lost => Sys2Proof.Machine.execVxStt a lost s
  | .syncInc a => Sys2Proof.Machine.execSyncInc a s
  | .syncIncr a => Sys2Proof.Machine.execSyncIncr a s
  | .syncAdd a => Sys2Proof.Machine.execSyncAdd a s
  | .syncAddr a => Sys2Proof.Machine.execSyncAddr a s
  | .syncWait a => Sys2Proof.Machine.execSyncWait a s
  | .syncWaitr a => Sys2Proof.Machine.execSyncWaitr a s
  | .syncEndstep a => Sys2Proof.Machine.execSyncEndstep a s
  | .fabDma a => Sys2Proof.Machine.execFabDma a s
  | .fabAmo a => Sys2Proof.Machine.execFabAmo a s
  | .drsTopk a => Sys2Proof.Machine.execDrsTopk a s
  | .drsAssign a => Sys2Proof.Machine.execDrsAssign a s
  | .drsBias a => Sys2Proof.Machine.execDrsBias a s
  | .drsDescStart u => Sys2Proof.Machine.execDrsDescStart u s
  | .drsDescComplete u k => Sys2Proof.Machine.execDrsDescComplete u k s
  | .allreduce a => Sys2Proof.Machine.execAllreduce a s
  | .reduceScatter a => Sys2Proof.Machine.execReduceScatter a s
  | .allgather a => Sys2Proof.Machine.execAllgather a s
  | .broadcast a => Sys2Proof.Machine.execBroadcast a s
  | .barrier a => Sys2Proof.Machine.execBarrier a s
  | .count a => Sys2Proof.Machine.execCount a s
  | .dispatch a => Sys2Proof.Machine.execDispatch a s
  | .xchgReturn a => Sys2Proof.Machine.execXchgReturn a s
  | .reduce a => Sys2Proof.Machine.execReduce a s
  | .collOpStart k => Sys2Proof.Machine.execCollOpStart k s
  | .collOpComplete k peers => Sys2Proof.Machine.execCollOpComplete k peers s
  | .collChunkConsume k => Sys2Proof.Machine.execCollChunkConsume k s
  | .tierStage a => Sys2Proof.Machine.execTierStage a s
  | .drop a => Sys2Proof.Machine.execDrop a s
  | .flush a => Sys2Proof.Machine.execFlush a s
  | .advance a => Sys2Proof.Machine.execAdvance a s
  | .cread a => Sys2Proof.Machine.execCread a s
  | .cwrite a => Sys2Proof.Machine.execCwrite a s
  | .trim a => Sys2Proof.Machine.execTrim a s
  | .tierCmdComplete c k e => Sys2Proof.Machine.execTierCmdComplete c k e s
  | .prefetchEntryStart x => Sys2Proof.Machine.execPrefetchEntryStart x s
  | .ageingEvict x obj pool => Sys2Proof.Machine.execAgeingEvict x obj pool s
  | .evictionWritebackDone x obj pool => Sys2Proof.Machine.execEvictionWritebackDone x obj pool s
  | .ckpSnap a => Sys2Proof.Machine.execCkpSnap a s
  | .cowCopyComplete x u e => Sys2Proof.Machine.execCowCopyComplete x u e s
  | .snapshotDone x => Sys2Proof.Machine.execSnapshotDone x s
  | .restoreGo src w => Sys2Proof.Machine.execRestoreGo src w s
  | .restoreComplete => Sys2Proof.Machine.execRestoreComplete s
  | .stage src w => Sys2Proof.Machine.execStage src w s
  | .cancel src w => Sys2Proof.Machine.execCancel src w s
  | .placeCmdComplete => Sys2Proof.Machine.execPlaceCmdComplete s
  | .placeSwapWrite src w => Sys2Proof.Machine.execPlaceSwapWrite src w s
  | .seqRegAccess src off wr => Sys2Proof.Machine.execSeqRegAccess src off wr s
  | .spmLostClear src c w => Sys2Proof.Machine.execSpmLostClear src c w s

  | .hcInvalidate w => Sys2Proof.Machine.execHcInvalidate w s
  | .hcInvalidateDone => Sys2Proof.Machine.execHcInvalidateDone s
  | .cabinetAlloc x c n owner => Sys2Proof.Machine.execCabinetAlloc x c n owner s
  | .cabinetHandoff x p iv by_ to_ => Sys2Proof.Machine.execCabinetHandoff x p iv by_ to_ s
  | .cabinetRelease x p iv by_ => Sys2Proof.Machine.execCabinetRelease x p iv by_ s
  | .tierPoolWrite src t w => Sys2Proof.Machine.execTierPoolWrite src t w s
  | .chestCfgWrite src w => Sys2Proof.Machine.execChestCfgWrite src w s
  | .create src w => Sys2Proof.Machine.execCreate src w s
  | .delete src w => Sys2Proof.Machine.execDelete src w s
  | .format src w => Sys2Proof.Machine.execFormat src w s
  | .nsCmdComplete base => Sys2Proof.Machine.execNsCmdComplete base s
  | .chestMountComplete => Sys2Proof.Machine.execChestMountComplete s
  | .chestUnitProgrammed c k fail => Sys2Proof.Machine.execChestUnitProgrammed c k fail s
  | .wearLevel fail => Sys2Proof.Machine.execWearLevel fail s
  | .readDisturbRelocate b fail => Sys2Proof.Machine.execReadDisturbRelocate b fail s
  | .mapCheckpoint => Sys2Proof.Machine.execMapCheckpoint s
  | .superframeReceive n lw bad ce => Sys2Proof.Machine.execSuperframeReceive n lw bad ce s
  | .retrain n => Sys2Proof.Machine.execRetrain n s
  | .dropPair n j => Sys2Proof.Machine.execDropPair n j s
  | .swing arg => Sys2Proof.Machine.execSwing arg s
  | .laneRetrainDone n => Sys2Proof.Machine.execLaneRetrainDone n s
  | .laneRetrainFail n j => Sys2Proof.Machine.execLaneRetrainFail n j s
  | .holdTimeout n => Sys2Proof.Machine.execHoldTimeout n s
  | .swingWaitTimeout n => Sys2Proof.Machine.execSwingWaitTimeout n s
  | .portTrainingDone n ns major minor => Sys2Proof.Machine.execPortTrainingDone n ns major minor s
  | .swingGo src w => Sys2Proof.Machine.execSwingGo src w s
  | .swingComplete => Sys2Proof.Machine.execSwingComplete s
  | .swingRelease src w => Sys2Proof.Machine.execSwingRelease src w s
  | .packetForward k far => Sys2Proof.Machine.execPacketForward k far s
  | .combineEntryTimeout e => Sys2Proof.Machine.execCombineEntryTimeout e s
  | .write p => Sys2Proof.Machine.execWrite p s
  | .writeShort p => Sys2Proof.Machine.execWriteShort p s
  | .read p => Sys2Proof.Machine.execRead p s
  | .amo p => Sys2Proof.Machine.execAmo p s
  | .amoFetch p => Sys2Proof.Machine.execAmoFetch p s
  | .ack p => Sys2Proof.Machine.execAck p s
  | .readResp p => Sys2Proof.Machine.execReadResp p s
  | .amoResp p => Sys2Proof.Machine.execAmoResp p s
  | .nack p => Sys2Proof.Machine.execNack p s
  | .coll p => Sys2Proof.Machine.execColl p s
  | .collLl p => Sys2Proof.Machine.execCollLl p s
  | .parkedPacketPerform k => Sys2Proof.Machine.execParkedPacketPerform k s
  | .mgmtCsr p => Sys2Proof.Machine.execMgmtCsr p s
  | .mgmtSwing p => Sys2Proof.Machine.execMgmtSwing p s
  | .discStart src w => Sys2Proof.Machine.execDiscStart src w s
  | .disc p => Sys2Proof.Machine.execDisc p s
  | .discTimeout => Sys2Proof.Machine.execDiscTimeout s
  | .fabPkeyWrite src k w => Sys2Proof.Machine.execFabPkeyWrite src k w s
  | .ctxPkeyWrite src x w => Sys2Proof.Machine.execCtxPkeyWrite src x w s
  | .fabConfigWrite src reg w => Sys2Proof.Machine.execFabConfigWrite src reg w s
  | .trestleExchange => Sys2Proof.Machine.execTrestleExchange s
  | .time p => Sys2Proof.Machine.execTime p s
  | .timeExchangeMissed => Sys2Proof.Machine.execTimeExchangeMissed s
  | .trsCfgWrite src w => Sys2Proof.Machine.execTrsCfgWrite src w s
  | .jheadWrite src x w => Sys2Proof.Machine.execJheadWrite src x w s
  | .journalRingWrite src x size w => Sys2Proof.Machine.execJournalRingWrite src x size w s
  | .journalExport x => Sys2Proof.Machine.execJournalExport x s
  | .kill src x w => Sys2Proof.Machine.execKill src x w s
  | .teardown src x w => Sys2Proof.Machine.execTeardown src x w s
  | .holdExpire x => Sys2Proof.Machine.execHoldExpire x s
  | .quiesceDone x => Sys2Proof.Machine.execQuiesceDone x s
  | .releaseDone x => Sys2Proof.Machine.execReleaseDone x s
  | .clearDone x => Sys2Proof.Machine.execClearDone x s
  | .scrubRead flash a e weak => Sys2Proof.Machine.execScrubRead flash a e weak s
  | .pfBar2Access off n wr => Sys2Proof.Machine.execPfBar2Access off n wr s
  | .vfBar0Access n off wr => Sys2Proof.Machine.execVfBar0Access n off wr s
  | .vfBar2Access n off len wr => Sys2Proof.Machine.execVfBar2Access n off len wr s
  | .vfCfgWrite src n w => Sys2Proof.Machine.execVfCfgWrite src n w s
  | .vfFlr n => Sys2Proof.Machine.execVfFlr n s
  | .pfFlr => Sys2Proof.Machine.execPfFlr s
  | .hotReset => Sys2Proof.Machine.execHotReset s
  | .hostLinkDown => Sys2Proof.Machine.execHostLinkDown s
  | .rdmaWriteIn r => Sys2Proof.Machine.execRdmaWriteIn r s
  | .rdmaWriteImmIn r imm => Sys2Proof.Machine.execRdmaWriteImmIn r imm s
  | .invalidOpcodeIn r => Sys2Proof.Machine.execInvalidOpcodeIn r s
  | .rdmaAckIn t psn => Sys2Proof.Machine.execRdmaAckIn t psn s
  | .rdmaReadRespIn t data => Sys2Proof.Machine.execRdmaReadRespIn t data s
  | .rdmaAckTimeout t => Sys2Proof.Machine.execRdmaAckTimeout t s
  | .netTgtCommit src t w => Sys2Proof.Machine.execNetTgtCommit src t w s
  | .netIngCommit src iv w => Sys2Proof.Machine.execNetIngCommit src iv w s
  | .mctpControl path => Sys2Proof.Machine.execMctpControl path s
  | .pldmMonitoring path => Sys2Proof.Machine.execPldmMonitoring path s
  | .requestUpdate path slot => Sys2Proof.Machine.execRequestUpdate path slot s
  | .firmwareStoreWrite off data last => Sys2Proof.Machine.execFirmwareStoreWrite off data last s
  | .activateFirmware path record => Sys2Proof.Machine.execActivateFirmware path record s
  | .getVersion path => Sys2Proof.Machine.execGetVersion path s
  | .getCapabilities path => Sys2Proof.Machine.execGetCapabilities path s
  | .negotiateAlgorithms path => Sys2Proof.Machine.execNegotiateAlgorithms path s
  | .getDigests path => Sys2Proof.Machine.execGetDigests path s
  | .getCertificate path n => Sys2Proof.Machine.execGetCertificate path n s
  | .challenge path => Sys2Proof.Machine.execChallenge path s
  | .getMeasurements path ix => Sys2Proof.Machine.execGetMeasurements path ix s
  | .mgmtPortCsr path body => Sys2Proof.Machine.execMgmtPortCsr path body s
  | .identityMemoryMsg path blk wr => Sys2Proof.Machine.execIdentityMemoryMsg path blk wr s
  | .entdaa addr => Sys2Proof.Machine.execEntdaa addr s
  | .i3cStuckDetect => Sys2Proof.Machine.execI3cStuckDetect s
  | .i3cRecoveryEnd high => Sys2Proof.Machine.execI3cRecoveryEnd high s
  | .rearm src w high => Sys2Proof.Machine.execRearm src w high s
  | .idmRead src w => Sys2Proof.Machine.execIdmRead src w s
  | .idmWrite src w => Sys2Proof.Machine.execIdmWrite src w s
  | .idmWriteComplete => Sys2Proof.Machine.execIdmWriteComplete s
  | .pwrGoodRise => Sys2Proof.Machine.execPwrGoodRise s
  | .pwrGoodFall => Sys2Proof.Machine.execPwrGoodFall s
  | .perstAssert => Sys2Proof.Machine.execPerstAssert s
  | .perstDeassert => Sys2Proof.Machine.execPerstDeassert s
  | .hubPllLock => Sys2Proof.Machine.execHubPllLock s
  | .clusterBistDone bad => Sys2Proof.Machine.execClusterBistDone bad s
  | .firmwareSlotSelect => Sys2Proof.Machine.execFirmwareSlotSelect s
  | .hbmTrainingDone bad => Sys2Proof.Machine.execHbmTrainingDone bad s
  | .capacityTrainingDone bad dies bpd upb endur wrong => Sys2Proof.Machine.execCapacityTrainingDone bad dies bpd upb endur wrong s
  | .hubPllLockLoss => Sys2Proof.Machine.execHubPllLockLoss s
  | .groupPllLockLoss g => Sys2Proof.Machine.execGroupPllLockLoss g s
  | .pwrDomainOff src w => Sys2Proof.Machine.execPwrDomainOff src w s
  | .pwrDomainOn src w => Sys2Proof.Machine.execPwrDomainOn src w s
  | .pwrDomainReset src w => Sys2Proof.Machine.execPwrDomainReset src w s
  | .domainUsable n => Sys2Proof.Machine.execDomainUsable n s
  | .aonTeardown src arg => Sys2Proof.Machine.execAonTeardown src arg s
  | .linkDisable src arg => Sys2Proof.Machine.execLinkDisable src arg s
  | .linkEnable src arg => Sys2Proof.Machine.execLinkEnable src arg s
  | .domainReset src arg => Sys2Proof.Machine.execDomainReset src arg s
  | .domainOff src arg => Sys2Proof.Machine.execDomainOff src arg s
  | .domainOn src arg => Sys2Proof.Machine.execDomainOn src arg s
  | .quote src => Sys2Proof.Machine.execQuote src s
  | .thermalShutdown src => Sys2Proof.Machine.execThermalShutdown src s
  | .coldReset src => Sys2Proof.Machine.execColdReset src s
  | .aonOpComplete => Sys2Proof.Machine.execAonOpComplete s
  | .teardownEscalate => Sys2Proof.Machine.execTeardownEscalate s
  | .confirm src w => Sys2Proof.Machine.execConfirm src w s
  | .confirmTimeout => Sys2Proof.Machine.execConfirmTimeout s
  | .mrExtend src w => Sys2Proof.Machine.execMrExtend src w s
  | .clockControlTick => Sys2Proof.Machine.execClockControlTick s
  | .pwrbrkAssert => Sys2Proof.Machine.execPwrbrkAssert s
  | .pwrbrkRelease => Sys2Proof.Machine.execPwrbrkRelease s
  | .sensorSample ts power => Sys2Proof.Machine.execSensorSample ts power s
  | .telemetrySend => Sys2Proof.Machine.execTelemetrySend s
  | .receiverLossOfLock n => Sys2Proof.Machine.execReceiverLossOfLock n s
  | .hubPllRelock => Sys2Proof.Machine.execHubPllRelock s
  | .prefetchEntryComplete x k e => Sys2Proof.Machine.execPrefetchEntryComplete x k e s
  | .bureauSramUncorrectable w => Sys2Proof.Machine.execBureauSramUncorrectable w s
  | .hostLinkUp speed width flit => Sys2Proof.Machine.execHostLinkUp speed width flit s
  | .networkLinkUp p mode => Sys2Proof.Machine.execNetworkLinkUp p mode s
  | .networkLinkDown p => Sys2Proof.Machine.execNetworkLinkDown p s
  | .rdmaNakIn t => Sys2Proof.Machine.execRdmaNakIn t s
  | .priorityFlowControlFrame p prio pause => Sys2Proof.Machine.execPriorityFlowControlFrame p prio pause s
  | .congestionNotificationPacket qp => Sys2Proof.Machine.execCongestionNotificationPacket qp s

end Sys2Proof.Machine
end

