-- ==== Sys2Proof/Safety.lean ====
section
/-!
DEFINITION. The terms that claims use: what a command makes of the block, the canonical tables every state keeps, and when a slot
comes to issue.
-/

namespace Sys2Proof.Machine

/-- Command c on the block d: whatever waits, exec answers a next state, the queue as it was and the block d' (its tables in
canonical form, which changes no read). -/
def Becomes (c : Instr) (d d' : Dev) : Prop :=
  ∀ q : List Instr, exec c { pending := q, dev := d } = .next { pending := q, dev := d'.settle }

/-- The block after a command on the block d. -/
def Dev.after (d : Dev) (c : Instr) : Dev :=
  match exec c { dev := d } with
  | .next s => s.dev
  | _ => d

/-- The context of the sequencer of a slot's cluster. -/
def Dev.slotCtx (d : Dev) (a : Slot) : Nat := (d.clu a.cl).ctx

/-- The registers of the sequencer of a slot's cluster for its context. -/
def Dev.slotRegs (d : Dev) (a : Slot) : SeqRegs := d.seqr a.cl (d.slotCtx a)

/-- A slot comes to issue as a bundle of its own: the sequencer runs for a RUNNING context, no slot is gathered, PC lies in the
image, and the slot closes the bundle. -/
def Dev.alone (d : Dev) (a : Slot) : Bool :=
  d.mayIssue a.cl && (d.clu a.cl).staged.isEmpty && decide ((d.slotRegs a).pc < d.imageLen (d.slotCtx a) a.cl) && a.last

/-- A slot comes to issue as a bundle of its own and is enabled (R158). -/
def Dev.aloneOn (d : Dev) (a : Slot) : Bool := d.alone a && slotEnabled (d.slotRegs a) a

/-- The end of a bundle's issue at cluster c (R175, R209): PC and loop stack as given, one more bundle issued, nothing gathered,
the fetch buffer moved on; a taken control transfer discards it. -/
def Dev.bundleEnd (d : Dev) (c x pc : Nat) (n : Nat × List LoopLevel) (taken : Bool) : Dev :=
  ((d.setSeqr c x { d.seqr c x with pc := n.1, loops := n.2 }).addFld (Reg.SEQ_ISSUED c) 0 64 1).modClu c fun k =>
    { k with staged := [], fetch := fetchAfter k.fetch pc n.1 taken }

/-- The bundle at pc of cluster c's sequencer ends with no control transfer: PC moves on, round a loop where the bundle ends one
(R175). -/
def Dev.issuedFrom (d : Dev) (c x pc : Nat) : Dev := d.bundleEnd c x pc (nextPc pc [] (d.seqr c x).loops) false

/-- The bundle of slot a, alone in it, ends with no control transfer after the change f of the block. -/
def Dev.issuedBy (d : Dev) (a : Slot) (f : Dev → Dev) : Dev := (f d).issuedFrom a.cl (d.slotCtx a) (d.slotRegs a).pc

/-- The block after the sequencer of slot a has its registers changed by g. -/
def Dev.regsBy (d : Dev) (a : Slot) (g : SeqRegs → SeqRegs) : Dev := d.setSeqr a.cl (d.slotCtx a) (g (d.slotRegs a))

/-- Command c, with slot a alone in its bundle, writes v to the scalar register of bits [21:17], and the bundle issues. -/
def SetsS (c : Instr) (d : Dev) (a : Slot) (v : Word) : Prop :=
  Becomes c d (d.issuedBy a fun d => d.regsBy a (·.setS (opF a 17 5) v))

/-- Command c writes v to the address register of bits [21:18], and the bundle issues. -/
def SetsA (c : Instr) (d : Dev) (a : Slot) (v : BitVec 48) : Prop :=
  Becomes c d (d.issuedBy a fun d => d.regsBy a (·.setA (opF a 18 4) v))

/-- Command c writes v to the predicate of bits [21:19], and the bundle issues. -/
def SetsP (c : Instr) (d : Dev) (a : Slot) (v : Bool) : Prop :=
  Becomes c d (d.issuedBy a fun d => d.regsBy a (·.setP (opF a 19 3) v))

/-- Command c, with slot a alone in its bundle, raises a precise exception: nothing of the bundle takes effect (R217). -/
def Traps (c : Instr) (d : Dev) (a : Slot) (code info slot trans : Nat) : Prop :=
  Becomes c d (d.seqExc a.cl (d.slotCtx a) code info slot 0 (d.slotRegs a).pc true false trans)

/-! ### V slots and descriptors -/

/-- What a V-slot instruction computes from the tiles and registers before its bundle (R465). -/
def Dev.vecResult (d : Dev) (a : Slot) (opc : Nat) : VRes :=
  let k := d.clu a.cl
  (d.slotEnv (d.slotCtx a) a.cl).run opc (opF a 0 4) (opF a 4 6) (k.tile (opF a 10 6)) (k.tile (opF a 4 6)) (k.tile (opF a 16 6))

/-- The block after a V-slot instruction: its tile; its OIS events counted and marked; its counted conversions; VEC_CNT where it
writes it; VEC_SRIDX past its draws; the breach mark of a reduction on a floating type. -/
def Dev.vecDone (d : Dev) (a : Slot) (opc : Nat) : Dev :=
  let x := d.slotCtx a
  let c := a.cl
  let pc := (d.slotRegs a).pc
  let fn := opF a 0 4
  let r := d.vecResult a opc
  let d1 := d.modClu c fun k => k.setTile (opF a 16 6) r.tile
  let d2 := if r.ois = 0 then d1 else (d1.bump (Reg.VEC_CTX_SAT c x) r.ois).markSat x c pc
  let d3 := if r.cvt = 0 then d2 else d2.bump (Reg.VEC_CTX_CVT c x) r.cvt
  let d4 := match r.cnt with | some n => d3.setReg (Reg.VEC_CNT c) (BitVec.ofNat 64 n) | none => d3
  let d5 := if draws (d.fld (Reg.VEC_RMODE c) 0 3) opc fn (opF a 4 6) then d4.setReg (Reg.VEC_SRIDX c) (d.reg (Reg.VEC_SRIDX c) + 4096)
    else d4
  if opc = 0x1C && isF fn then d5.markBreach x c pc else d5

/-- A V-slot instruction can issue alone: it is enabled, its operands are legal (R465, R466, R479), and no vx.run or vx.wmax of
the cluster is queued or runs (R189). -/
def Dev.vecReady (d : Dev) (a : Slot) (opc : Nat) : Bool :=
  d.aloneOn a && !vecIll opc (opF a 0 4) (opF a 10 6) (opF a 4 6) && !d.vecHeld a.cl

/-- The 64 bytes of the descriptor that a slot names. -/
def Dev.descBytes (d : Dev) (a : Slot) : Bytes := d.localRead a.cl (descEa (d.slotRegs a) a) 64

/-- A descriptor of a kind can issue alone (R179 to R188): the slot is enabled and its reserved bits are 0, its 64 bytes may be read
and are not poisoned, its head is legal, its queue has room, and a DMA descriptor has quota and a free tracker. -/
def Dev.descReady (d : Dev) (a : Slot) (kind : Nat) : Bool :=
  let ea := descEa (d.slotRegs a) a
  d.aloneOn a && opF a 0 6 == 0 && (rangeCheck d (d.slotCtx a) a.cl ea 64 64 1).isNone && !d.poisoned (spadAddr a.cl ea) 64 &&
    atLe (d.descBytes a) 0 1 == kind && headOk (d.descBytes a) kind && !(kindQueue kind == 2 && d.quota (d.slotCtx a) a.cl == 0) &&
    !d.stalls a.cl (d.slotCtx a) (.issue kind ea (d.descBytes a))

/-- The descriptor as it is queued, with the registers sampled at its issue (R206) and the tracker it takes. -/
def Dev.descOf (d : Dev) (a : Slot) (kind : Nat) (trk : Option Nat) : Desc :=
  { ctx := d.slotCtx a, cl := a.cl, kind := kind, ea := descEa (d.slotRegs a) a, pc := (d.slotRegs a).pc, bytes := d.descBytes a,
    cfg := d.sampled a.cl (kindQueue kind), trk := trk }

/-- Command c, alone in its bundle, hands its descriptor to its engine's queue, and the bundle issues. -/
def Queues (c : Instr) (d : Dev) (a : Slot) (kind : Nat) : Prop :=
  Becomes c d (d.issuedBy a fun e => { e with descs := e.descs ++ [d.descOf a kind none] })

/-! ### Packets -/

/-- A packet row's packet as it is held once it has arrived. -/
def Dev.held (d : Dev) (p : Packet) : RPkt := arrive p d.time.toNat

/-- A packet of a type arrives at a port that takes it and under a key that the port admits (R623, R624). -/
def Dev.takesAt (d : Dev) (p : Packet) (ty : Nat) : Bool :=
  (d.held p).hdr.ty == ty && decide (p.port < 32) && d.portTakes p.port (d.held p).hdr && d.pkeyOk p.port (d.held p).hdr

/-- A unicast packet of a type is for this device, and its destination in the device takes it at once (R614, R625). -/
def Dev.takesHere (d : Dev) (p : Packet) (ty : Nat) : Bool :=
  d.takesAt p ty && decide ((d.held p).hdr.rmode ≤ 1) && (d.held p).hdr.dst == d.node && !p.park && !d.isMcAnswer (d.held p)

end Sys2Proof.Machine
end

