-- ==== Sys2Proof/Certificates/Slice0/Obligations.lean ====
section
/-!
DEFINITION. The statements for the provers.
-/

open Sys2Proof Sys2Proof.Machine

/-! ### The block as a whole -/

/-- A step takes the command at the front of the queue and is exec of it with the queue's rest (the row's cut; R17). -/
def Obligations.StepRunsFrontCommand : Prop :=
  ∀ (c : Instr) (s : State), step { s with pending := c :: s.pending } = exec c s

/-- On an empty queue the step is one hub cycle: while the hub PLL is locked, nothing is slewed, no request waits for a buffer, no snapshot
is taken and no Nonex port has anything to say, Trestle time advances by one and no register, memory byte, cluster, object or tracker
changes (the model's choice, log entry 2). A Nonex port that has something to say sends a superframe in the cycle (R593). -/
def Obligations.IdleStepCountsTime : Prop :=
  (∀ (d : Dev) (n : Nat), n < 32 → d.hubLocked = true → d.trs.slew = 0 → d.aon.ues = [] → d.cabPend = [] → d.netWait = [] →
    d.snaps = [] → d.says n = true → (d.link n).replay.length < 512 → (∀ k, k < 32 → k ≠ n → d.says k = false) →
    step { pending := [], dev := d } = .next { pending := [], dev := (({ d with time := d.time + 1 } : Dev).sendFrame n).settle }) ∧
  ∀ d : Dev, d.hubLocked = true → d.trs.slew = 0 → d.aon.ues = [] → d.cabPend = [] → d.netWait = [] → d.snaps = [] →
    (∀ n, n < 32 → d.says n = false) →
    ∃ t : State, step { pending := [], dev := d } = .next t ∧ t.pending = [] ∧ t.dev.time = d.time + 1 ∧
      (∀ o, t.dev.reg o = d.reg o) ∧ (∀ a, t.dev.byte a = d.byte a) ∧ (∀ c, t.dev.clu c = d.clu c) ∧
      (∀ i, t.dev.obj i = d.obj i) ∧ (∀ k, t.dev.trk k = d.trk k) ∧ (∀ x, t.dev.ctx x = d.ctx x)

/-- Every command, in every state, answers a next state whose queue is the one it was given: what it makes of the block does not
depend on the queue, and every table of the block is left in canonical form.
The model's choices here: log entries 1 and 56. -/
def Obligations.CommandsLeaveQueue : Prop :=
  ∀ (c : Instr) (d : Dev), ∃ d' : Dev, d'.tablesWf = true ∧
    ∀ q : List Instr, exec c { pending := q, dev := d } = .next { pending := q, dev := d' }

/-- The invariant of every step: memory, registers, poison, contexts, sync objects, trackers, sequencers and clusters are in
canonical form, so that equal contents are equal data.
The model's choices here: log entry 56. -/
def Obligations.StepKeepsTables : Prop :=
  ∀ s t : State, s.dev.tablesWf = true → step s = .next t → t.dev.tablesWf = true ∧
    (∀ c rest, s.pending = c :: rest → t.pending = rest) ∧ (s.pending = [] → t.pending = [])

/-- The invariant holds at reset, where nothing waits.
The model's choices here: log entry 56. -/
def Obligations.ResetHasTables : Prop :=
  State.reset.dev.tablesWf = true ∧ State.reset.pending = []

/-- A block whose tables are in canonical form is its own canonical form, and canonical form changes no read of any block: what
Becomes says of a settled block it says of the block itself.
The model's choices here: log entry 56. -/
def Obligations.CanonicalFormChangesNoRead : Prop :=
  (∀ d : Dev, d.tablesWf = true → d.settle = d) ∧
    ∀ d : Dev, (∀ o, d.settle.reg o = d.reg o) ∧ (∀ a, d.settle.byte a = d.byte a) ∧ (∀ x, d.settle.ctx x = d.ctx x) ∧
      (∀ i, d.settle.obj i = d.obj i) ∧ (∀ k, d.settle.trk k = d.trk k) ∧ (∀ c x, d.settle.seqr c x = d.seqr c x) ∧
      ∀ c, d.settle.clu c = d.clu c

/-- Bytes written to memory read back, every other byte is as before, and the poison units that the write covers whole are the only
ones to lose their mark (R762).
The model's choices here: log entry 7. -/
def Obligations.MemoryReadsWhatWasWritten : Prop :=
  ∀ (d : Dev) (a : Nat) (bs : Bytes), d.tablesWf = true →
    (∀ i, (h : i < bs.length) → (d.write a bs).byte (a + i) = bs[i]) ∧
    (∀ b, b < a ∨ a + bs.length ≤ b → (d.write a bs).byte b = d.byte b) ∧
    (∀ k, mapFind (d.write a bs).poison k =
      if a ≤ k ∧ k + poisonUnit k ≤ a + bs.length then none else mapFind d.poison k) ∧
    (d.write a bs).tablesWf = true

/-! ### S slots -/

/-- The results of the immediate forms of the S slot (R163): with its slot alone in the bundle, each writes rd and nothing else,
and the bundle issues. -/
def Obligations.ScalarImmediateResults : Prop :=
  ∀ (d : Dev) (a : Slot), d.aloneOn a = true →
    let rs := (d.slotRegs a).sr (opF a 12 5)
    let imm := sext64 (opImm a 12)
    SetsS (.sAddi a) d a (rs + imm) ∧ SetsS (.sAndi a) d a (rs &&& imm) ∧ SetsS (.sOri a) d a (rs ||| imm) ∧
    SetsS (.sXori a) d a (rs ^^^ imm) ∧ SetsS (.sMovi a) d a (sext64 (opImm a 17)) ∧
    SetsS (.sMovk a false) d a (setField ((d.slotRegs a).sr (opF a 17 5)) (16 * opF a 16 1) 16 (opF a 0 16)) ∧
    SetsS (.sMovk a true) d a (setField ((d.slotRegs a).sr (opF a 17 5)) (16 * (opF a 16 1 + 2)) 16 (opF a 0 16)) ∧
    (opF a 6 6 = 0 → SetsS (.sShli a) d a (rs <<< opF a 0 6) ∧ SetsS (.sShri a) d a (rs >>> opF a 0 6) ∧
      SetsS (.sSrai a) d a (rs.sshiftRight (opF a 0 6)))

/-- The results of the register forms of the S slot (R163, R164, R166, R167): what each writes, to a scalar register, an address
register or a predicate. -/
def Obligations.ScalarRegisterResults : Prop :=
  ∀ (d : Dev) (a : Slot), d.aloneOn a = true →
    let r := d.slotRegs a
    (∀ v, aluFn (opF a 0 7) (r.sr (opF a 12 5)) (r.sr (opF a 7 5)) = some v →
      (aluUnary (opF a 0 7) = true → opF a 7 5 = 0) → SetsS (.sAlu a) d a v) ∧
    (opF a 0 4 = 0 → SetsS (.sSel a) d a (if r.pr (opF a 4 3) then r.sr (opF a 12 5) else r.sr (opF a 7 5))) ∧
    (opF a 0 13 = 0 → SetsS (.sMovs a) d a ((r.ar (opF a 13 4)).setWidth 64)) ∧
    (opF a 0 13 = 0 → SetsA (.sMova a) d a ((r.sr (opF a 13 5)).setWidth 48)) ∧
    SetsA (.sAaddi a) d a (r.ar (opF a 14 4) + BitVec.ofInt 48 (opImm a 14)) ∧
    (opF a 0 9 = 0 → SetsA (.sAadd a) d a (r.ar (opF a 14 4) + (r.sr (opF a 9 5)).setWidth 48)) ∧
    (∀ b, cmpFn (opF a 5 4) (r.sr (opF a 14 5)) (r.sr (opF a 9 5)) = some b → opF a 0 5 = 0 → SetsP (.sCmp a) d a b) ∧
    (∀ b, cmpFn (opF a 10 4) (r.sr (opF a 14 5)) (sext64 (opImm a 10)) = some b → SetsP (.sCmpi a) d a b) ∧
    (∀ b, popFn (opF a 10 3) (r.pr (opF a 16 3)) (r.pr (opF a 13 3)) = some b → opF a 0 10 = 0 →
      (5 ≤ opF a 10 3 → opF a 13 3 = 0) → SetsP (.sPop a) d a b)

/-- The special cases of division and remainder (R165): a zero divisor gives all ones and the dividend, and the one signed overflow
gives the dividend and 0. -/
def Obligations.DivisionSpecialCases : Prop :=
  (∀ a : Word, aluFn 0x0C a 0 = some (BitVec.allOnes 64) ∧ aluFn 0x0D a 0 = some (BitVec.allOnes 64) ∧
    aluFn 0x0E a 0 = some a ∧ aluFn 0x0F a 0 = some a) ∧
  aluFn 0x0C (BitVec.intMin 64) (BitVec.allOnes 64) = some (BitVec.intMin 64) ∧
  aluFn 0x0E (BitVec.intMin 64) (BitVec.allOnes 64) = some 0 ∧
  ∀ a b : Word, b ≠ 0 → ∃ q r : Word, aluFn 0x0D a b = some q ∧ aluFn 0x0F a b = some r ∧
    a.toNat = q.toNat * b.toNat + r.toNat ∧ r.toNat < b.toNat

/-- A register s0 reads 0 and a predicate p0 reads 1 whatever is written to them, and a write to either changes nothing (R145); every
other register reads what was written, in canonical tables. -/
def Obligations.HardWiredRegisters : Prop :=
  ∀ r : SeqRegs, r.sr 0 = 0 ∧ r.pr 0 = true ∧ (∀ v, r.setS 0 v = r) ∧ (∀ b, r.setP 0 b = r) ∧
    (∀ i v, i ≠ 0 → keysRise (r.s.map Prod.fst) = true → (r.setS i v).sr i = v) ∧
    (∀ i v, keysRise (r.a.map Prod.fst) = true → (r.setA i v).ar i = v) ∧
    (∀ i b, i ≠ 0 → keysRise (r.p.map Prod.fst) = true → (r.setP i b).pr i = b) ∧
    (∀ i j v, j ≠ i → (r.setS i v).sr j = r.sr j ∧ (∀ k, (r.setS i v).ar k = r.ar k) ∧ ∀ k, (r.setS i v).pr k = r.pr k)

/-- Scalar loads and stores (R168, R169): an aligned access that its segment permits, of a word with no error, loads n little-endian
bytes zero-extended, or stores the low n bytes at the address of the MEM form and no other byte, but for words lost to merged writes.
The model's choices here: log entries 31 and 37. -/
def Obligations.ScalarLoadsAndStores : Prop :=
  ∀ (d : Dev) (a : Slot), d.aloneOn a = true →
    let n := 2 ^ opF a 11 2
    let ea := memEa (d.slotRegs a) a
    ea % n = 0 →
      (d.localCheck (d.slotCtx a) a.cl ea n 1 = 0 → d.poisoned (spadAddr a.cl ea) n = false →
        SetsS (.sLd a .clean) d a (BitVec.ofNat 64 (leNat (d.read (spadAddr a.cl ea) n)))) ∧
      (d.localCheck (d.slotCtx a) a.cl ea n 2 = 0 →
        let bs := leBytes n ((d.slotRegs a).sr (opF a 17 5)).toNat
        Becomes (.sSt ⟨a, []⟩) d (d.issuedBy a fun d => d.write (spadAddr a.cl ea) bs) ∧
        ∀ lost : List (Nat × Nat), lost ≠ [] →
          Becomes (.sSt ⟨a, lost⟩) d (d.issuedBy a fun d => Dev.applyEff a.cl (d.slotCtx a) (d.slotRegs a).pc d (.storeLosing 7 ea bs lost)))

/-- Control transfers (R173 to R178, R209): the target becomes PC, the loop stack is untouched and the fetched bundles are discarded;
s.call saves the next bundle's offset in s31; s.loop opens a level or skips its body; s.lpop drops the innermost level. -/
def Obligations.ControlTransfers : Prop :=
  ∀ (d : Dev) (a : Slot), d.aloneOn a = true →
    let x := d.slotCtx a
    let r := d.slotRegs a
    let len := d.imageLen x a.cl
    let target := jmpTarget r a
    let to_ := fieldOf (r.sr (opF a 17 5)) 0 32
    let last := r.pc + 16 * opF a 0 17
    (target % 16 = 0 → target < len →
      Becomes (.sBr a) d (d.bundleEnd a.cl x r.pc (target, r.loops) true) ∧
      Becomes (.sCall a) d (let e := d.regsBy a (·.setS 31 (BitVec.ofNat 64 (r.pc + 16)))
        e.bundleEnd a.cl x r.pc (target, (e.seqr a.cl x).loops) true)) ∧
    (to_ % 16 = 0 → to_ < len → opF a 0 17 = 0 → Becomes (.sJr a) d (d.bundleEnd a.cl x r.pc (to_, r.loops) true)) ∧
    (opF a 0 17 ≠ 0 → r.loops.length ≠ 2 → last < len → (∀ l ∈ r.loops, last ≤ l.last) →
      (fieldOf (r.sr (opF a 17 5)) 0 32 ≠ 0 →
        Becomes (.sLoop a) d (d.issuedBy a fun d => d.regsBy a fun r =>
          { r with loops := { first := r.pc + 16, last := last, left := fieldOf (r.sr (opF a 17 5)) 0 32 } :: r.loops })) ∧
      (fieldOf (r.sr (opF a 17 5)) 0 32 = 0 → Becomes (.sLoop a) d (d.bundleEnd a.cl x r.pc (last + 16, r.loops) false))) ∧
    (a.args = 0 → r.loops ≠ [] →
      Becomes (.sLpop a) d (d.issuedBy a fun d => d.regsBy a fun r => { r with loops := r.loops.tail })) ∧
    (∀ slot, slot < 4 → a.args = 0 → Becomes (.sNop a slot 0) d (d.issuedBy a id))

/-- Registers and traps from the stream (R203 to R208): s.csrr reads a register of the cluster that it may read, s.csrw writes the
sequencer-writable bits of one it may write, and s.trap raises its code with the immediate as SEQ_EXC_INFO, precisely. -/
def Obligations.SequencerRegisterAccess : Prop :=
  ∀ (d : Dev) (a : Slot), d.aloneOn a = true →
    let off := opF a 3 14 * 8
    (opF a 0 3 = 0 → csrrForbidden off = false → SetsS (.sCsrr a) d a (d.seqRead a.cl off)) ∧
    (opF a 0 3 = 0 → csrrForbidden off = true → Traps (.sCsrr a) d a 8 off 0 0) ∧
    (opF a 0 3 = 0 → seqWritable off ≠ 0 → off ≠ 0x10028 →
      Becomes (.sCsrw a) d (d.issuedBy a fun d =>
        d.setReg (0x1000000 + a.cl * 0x20000 + off) ((d.slotRegs a).sr (opF a 17 5) &&& BitVec.ofNat 64 (seqWritable off)))) ∧
    (opF a 0 3 = 0 → off = 0x10028 →
      Becomes (.sCsrw a) d (d.issuedBy a fun d => d.setReg (Reg.VEC_SRIDX a.cl) ((d.slotRegs a).sr (opF a 17 5)))) ∧
    (opF a 0 3 = 0 → seqWritable off = 0 → Traps (.sCsrw a) d a 8 off 0 0) ∧
    (opF a 16 6 = 0 → Traps (.sTrap a) d a 0x0C (opF a 0 16) 0 0)

/-- A decode fault is a precise exception ILLEGAL with the slot's bits (R161, R214, R217): for reserved operand bits of the S slot's
instructions, a reserved function, and an undefined opcode of any slot. -/
def Obligations.DecodeFaultsAreIllegal : Prop :=
  ∀ (d : Dev) (a : Slot), d.alone a = true →
    (aluFn (opF a 0 7) 0 0 = none → Traps (.sAlu a) d a 1 (slotBits a 1) 0 0) ∧
    (opF a 6 6 ≠ 0 → Traps (.sShli a) d a 1 (slotBits a 6) 0 0 ∧ Traps (.sShri a) d a 1 (slotBits a 7) 0 0 ∧
      Traps (.sSrai a) d a 1 (slotBits a 8) 0 0) ∧
    (a.args ≠ 0 → Traps (.sLpop a) d a 1 (slotBits a 0x1D) 0 0 ∧ Traps (.syncEndstep a) d a 1 (slotBits a 7) 3 0 ∧
      ∀ slot, slot < 4 → Traps (.sNop a slot 0) d a 1 (slotBits a 0) slot 0) ∧
    (opF a 0 17 = 0 → Traps (.sLoop a) d a 1 (slotBits a 0x19) 0 0) ∧
    ∀ slot opc, slot < 4 → opc < 64 → opc ≠ 0 → opcDefined slot opc = false → Traps (.sNop a slot opc) d a 1 (slotBits a opc) slot 0

/-- A slot that does not close its bundle and can issue only joins the gathered slots of its cluster, and one that comes where its
sequencer may not issue changes nothing (R159; the second clause is the model's, log entry 1). A V slot that comes while a vx.run or
vx.wmax is queued or runs waits: it is not gathered, and a bundle that it closes issues none of its slots, which come again (R189, R202;
that they come again as commands of their own is the model's, log entry 3). Stated for one command of each slot kind. -/
def Obligations.GatheredSlotsWait : Prop :=
  ∀ (d : Dev) (a : Slot),
    let joins := fun (c : Instr) (ix opc : Nat) => ∃ r : SlotRec, r.slot = ix ∧ r.bits = slotBits a opc ∧
      Becomes c d (d.modClu a.cl fun k => { k with staged := slotInsert r (d.clu a.cl).staged })
    (d.mayIssue a.cl = true → a.last = false → (d.slotRegs a).pc < d.imageLen (d.slotCtx a) a.cl → (d.clu a.cl).staged = [] →
      joins (.sAddi a) 0 2 ∧ joins (.sSt ⟨a, []⟩) 0 0x0D ∧ joins (.sBr a) 0 0x16 ∧ joins (.syncInc a) 3 1 ∧ joins (.syncEndstep a) 3 7 ∧
      (d.vecHeld a.cl = false → joins (.vxAdd a) 2 1 ∧ joins (.vxLdt a) 3 8) ∧
      (d.vecHeld a.cl = true → slotEnabled (d.slotRegs a) a = true → vecIll 1 (opF a 0 4) (opF a 10 6) (opF a 4 6) = false →
        Becomes (.vxAdd a) d d)) ∧
    (d.aloneOn a = true → d.vecHeld a.cl = true → vecIll 1 (opF a 0 4) (opF a 10 6) (opF a 4 6) = false →
      Becomes (.vxAdd a) d (d.modClu a.cl fun k => { k with staged := [] })) ∧
    (d.mayIssue a.cl = false → Becomes (.sAddi a) d d ∧ (∀ lost, Becomes (.sSt ⟨a, lost⟩) d d) ∧ Becomes (.sBr a) d d ∧ Becomes (.vxAdd a) d d ∧
      Becomes (.syncInc a) d d ∧ Becomes (.syncEndstep a) d d ∧ Becomes (.vxLdt a) d d)

/-- Sync instructions (R193 to R198): an update joins the updates on their way to the sync store; a wait with threshold 0 passes, one
on an owned object stalls its sequencer with the threshold and is satisfied at once where COUNT has reached it, and one on an object
of another context raises SYNC_PROT imprecisely; one on an overflowed object raises SYNC_OVF; sync.endstep ends the stream. -/
def Obligations.SyncInstructions : Prop :=
  ∀ (d : Dev) (a : Slot), d.aloneOn a = true →
    let x := d.slotCtx a
    let r := d.slotRegs a
    let sends := fun (c : Instr) (o v : Nat) => Becomes c d (d.issuedBy a fun d =>
      { d with syncQ := d.syncQ ++ [{ ctx := x, obj := o, val := v, issuer := some (a.cl, r.pc) }] })
    let next := nextPc r.pc [] r.loops
    let waits := fun (c : Instr) (o thr : Nat) => Becomes c d ((d.bundleEnd a.cl x r.pc next false).startWait a.cl x o thr r.pc next.1)
    let imm := opF a 0 16
    let rs := fieldOf (r.sr (opF a 16 5)) 0 32
    let ro := fieldOf (r.sr (opF a 17 5)) 0 16
    let rv := fieldOf (r.sr (opF a 12 5)) 0 32
    (opF a 21 1 = 0 → opF a 16 5 = 0 → sends (.syncInc a) imm 1) ∧
    (opF a 21 1 = 0 → sends (.syncAdd a) imm rs ∧ waits (.syncWait a) imm rs) ∧
    (opF a 0 12 = 0 → opF a 12 5 = 0 → sends (.syncIncr a) ro 1) ∧
    (opF a 0 12 = 0 → sends (.syncAddr a) ro rv ∧ waits (.syncWaitr a) ro rv) ∧
    (a.args = 0 → Becomes (.syncEndstep a) d ((d.bundleEnd a.cl x r.pc next false).endStream a.cl x)) ∧
    ∀ (e : Dev) (c y o thr pc pc' : Nat),
      (e.owns y o = false → e.startWait c y o thr pc pc' = e.seqExc c y 0x10 o 3 0 pc false false 0) ∧
      (e.owns y o = true → (e.obj o).ovf = true → e.startWait c y o thr pc pc' = e.seqExc c y 0x11 o 3 0 pc' true false 0) ∧
      (e.owns y o = true → (e.obj o).ovf = false → e.startWait c y o 0 pc pc' = e ∧
        (0 < thr → e.startWait c y o thr pc pc' = e.modClu c fun k =>
          { k with seq := .waiting, wait := some (o, thr), waitOk := decide (thr ≤ (e.obj o).count.toNat) }))

/-! ### V slots, tile loads and stores, and the issue of descriptors -/

/-- A V-slot instruction of arithmetic, bits, shifts or comparison, with legal operands (R465, R466) and alone in its bundle, writes
the tile its operation computes from the tiles before the bundle, counts and marks its OIS events, counts its conversions and
advances VEC_SRIDX past its draws; nothing else changes, and the bundle issues (R467, R470, R474, R477). -/
def Obligations.VectorElementwiseResults : Prop :=
  ∀ (d : Dev) (a : Slot),
    let runs := fun (c : Instr) (opc : Nat) => d.vecReady a opc = true → Becomes c d (d.issuedBy a fun d => d.vecDone a opc)
    runs (.vxAdd a) 0x01 ∧ runs (.vxSub a) 0x02 ∧ runs (.vxMul a) 0x03 ∧ runs (.vxFma a) 0x04 ∧ runs (.vxFnma a) 0x05 ∧
    runs (.vxDiv a) 0x06 ∧ runs (.vxSqrt a) 0x07 ∧ runs (.vxMin a) 0x08 ∧ runs (.vxMax a) 0x09 ∧ runs (.vxAbs a) 0x0A ∧
    runs (.vxNeg a) 0x0B ∧ runs (.vxAnd a) 0x0C ∧ runs (.vxOr a) 0x0D ∧ runs (.vxXor a) 0x0E ∧ runs (.vxAndn a) 0x0F ∧
    runs (.vxShl a) 0x10 ∧ runs (.vxShr a) 0x11 ∧ runs (.vxSra a) 0x12 ∧ runs (.vxCeq a) 0x13 ∧ runs (.vxCne a) 0x14 ∧
    runs (.vxClt a) 0x15 ∧ runs (.vxCle a) 0x16 ∧ runs (.vxSel a) 0x17 ∧ runs (.vxMov a) 0x18

/-- The same for the instructions that move, reduce, draw, compress, convert or evaluate a reference function (R471 to R485). -/
def Obligations.VectorOtherResults : Prop :=
  ∀ (d : Dev) (a : Slot),
    let runs := fun (c : Instr) (opc : Nat) => d.vecReady a opc = true → Becomes c d (d.issuedBy a fun d => d.vecDone a opc)
    runs (.vxBcast a) 0x19 ∧ runs (.vxIota a) 0x1A ∧ runs (.vxRng a) 0x1B ∧ runs (.vxRsum a) 0x1C ∧ runs (.vxRmax a) 0x1D ∧
    runs (.vxTr a) 0x1E ∧ runs (.vxCmpr a) 0x1F ∧ runs (.vxExpd a) 0x20 ∧ runs (.vxPopc a) 0x21 ∧ runs (.vxExp a) 0x22 ∧
    runs (.vxLog a) 0x23 ∧ runs (.vxRsqrt a) 0x24 ∧ runs (.vxTanh a) 0x25 ∧ runs (.vxErf a) 0x26 ∧ runs (.vxSin a) 0x27 ∧
    runs (.vxCos a) 0x28 ∧ runs (.vxCvt a) 0x29

/-- What the V-slot operations compute element by element: integer arithmetic wraps (R469), comparisons give all ones or 0 (R471),
bit operations take the whole tile, and each element of the result depends on the elements of its own position alone. -/
def Obligations.VectorElementValues : Prop :=
  ∀ (v : VEnv) (tb_ : Nat) (ta tb td : Tile) (i : Nat), i < 1024 →
    let el := fun (t : Tile) => (tileElems 0xD t)[i]?.getD 0
    let res := fun (opc : Nat) => el (v.run opc 0xD tb_ ta tb td).tile
    res 0x01 = (el ta + el tb) % 2 ^ 32 ∧ res 0x02 = (el ta + (2 ^ 32 - el tb)) % 2 ^ 32 ∧ res 0x03 = el ta * el tb % 2 ^ 32 ∧
    res 0x04 = (el ta * el tb + el td) % 2 ^ 32 ∧
    res 0x10 = el ta * 2 ^ (el tb % 32) % 2 ^ 32 ∧ res 0x11 = el ta / 2 ^ (el tb % 32) ∧
    res 0x13 = (if el ta = el tb then 2 ^ 32 - 1 else 0) ∧ res 0x14 = (if el ta = el tb then 0 else 2 ^ 32 - 1) ∧
    res 0x17 = (if el td ≠ 0 then el ta else el tb) ∧ res 0x1A = i ∧
    (v.run 0x0C 0 tb_ ta tb td).tile = ta &&& tb ∧ (v.run 0x0D 0 tb_ ta tb td).tile = ta ||| tb ∧
    (v.run 0x0E 0 tb_ ta tb td).tile = ta ^^^ tb ∧ (v.run 0x0F 0 tb_ ta tb td).tile = ta &&& ~~~tb ∧
    (v.run 0x18 0 tb_ ta tb td).tile = ta

/-- Tile loads and stores (R200): with the vector engine free, an address that is a multiple of 256 and 4 KiB that the segment permits,
vx.ldt writes the tile with the 4,096 bytes, and vx.stt writes them and no other byte, but for the words
that it loses to merged writes (R510, R511): those of its write whose loss the ranks allow keep what they held and are recorded.
The model's choices here: log entries 31 and 54. -/
def Obligations.TileLoadsAndStores : Prop :=
  ∀ (d : Dev) (a : Slot), d.aloneOn a = true → d.vecHeld a.cl = false →
    let ea := tileEa (d.slotRegs a) a
    (rangeCheck d (d.slotCtx a) a.cl ea 256 4096 1 = none → d.poisoned (spadAddr a.cl ea) 4096 = false →
      Becomes (.vxLdt a) d (d.issuedBy a fun d =>
        d.modClu a.cl fun k => k.setTile (opF a 16 6) (tileOfBytes (d.read (spadAddr a.cl ea) 4096)))) ∧
    (rangeCheck d (d.slotCtx a) a.cl ea 256 4096 2 = none →
      let bs := tileBytesOf ((d.clu a.cl).tile (opF a 16 6))
      Becomes (.vxStt a []) d (d.issuedBy a fun d => d.write (spadAddr a.cl ea) bs) ∧
      ∀ lost : List (Nat × Nat), lost ≠ [] →
        Becomes (.vxStt a lost) d (d.issuedBy a fun d => Dev.applyEff a.cl (d.slotCtx a) (d.slotRegs a).pc d (.storeLosing 3 ea bs lost))) ∧
    ∀ (e : Dev) (m y pc at_ : Nat) (bs : Bytes) (lost : List (Nat × Nat)),
      let w := spadAddr a.cl at_
      Dev.applyEff a.cl y pc e (.storeLosing m at_ bs lost) = (e.write w bs).loseWords e (fun _ => m)
        (fun k => decide (w < k + 8) && decide (k < w + bs.length)) (lost.map fun k => (w / 8 * 8 + 8 * k.1, k.2))

/-- The issue of a descriptor of the array, the vector engine, the Dresser, the collectives engine or the tier engine, alone in its
bundle: it joins its engine's queue as the 64 bytes read at issue, with the registers sampled then, and nothing else changes (R179 to
R187, R206). A descriptor of the array also wakes the array's current control (R397). -/
def Obligations.DescriptorsQueue : Prop :=
  ∀ (d : Dev) (a : Slot),
    let b := d.descBytes a
    let mx := fun (c : Instr) (kind : Nat) => d.descReady a kind = true →
      Becomes c d (d.issuedBy a fun d => let e := d.currArrive a.cl; { e with descs := d.descs ++ [d.descOf a kind none] })
    mx (.mxGemm a) 1 ∧ mx (.mxGemmGrp a) 2 ∧ mx (.mxGemmSp a) 3 ∧ mx (.mxLoad a) 4 ∧ mx (.mxDrain a) 5 ∧
    (d.descReady a 8 = true → Queues (.vxRun a) d a 8) ∧ (d.descReady a 9 = true → Queues (.vxWmax a) d a 9) ∧
    (d.descReady a 0x30 = true → Queues (.drsTopk a) d a 0x30) ∧ (d.descReady a 0x31 = true → Queues (.drsAssign a) d a 0x31) ∧
    (d.descReady a 0x32 = true → Queues (.drsBias a) d a 0x32) ∧
    (d.descReady a 0x22 = true → (isAllreduce b = true → Queues (.allreduce a) d a 0x22) ∧
      (isOp 2 b = true → Queues (.reduceScatter a) d a 0x22) ∧ (isOp 3 b = true → Queues (.allgather a) d a 0x22) ∧
      (isOp 4 b = true → Queues (.broadcast a) d a 0x22) ∧ (isOp 5 b = true → Queues (.barrier a) d a 0x22) ∧
      (isOp 0x20 b = true → Queues (.count a) d a 0x22) ∧ (isOp 0x21 b = true → Queues (.dispatch a) d a 0x22) ∧
      (isOp 0x22 b = true → Queues (.xchgReturn a) d a 0x22) ∧ (isOp 0x23 b = true → Queues (.reduce a) d a 0x22)) ∧
    (d.descReady a 0x38 = true → (tierOp b = 1 → Queues (.tierStage a) d a 0x38) ∧ (tierOp b = 2 → Queues (.drop a) d a 0x38) ∧
      (tierOp b = 3 → Queues (.flush a) d a 0x38) ∧ (tierOp b = 4 → Queues (.advance a) d a 0x38) ∧
      (tierOp b = 6 → Queues (.cwrite a) d a 0x38) ∧ (tierOp b = 7 → Queues (.trim a) d a 0x38))

/-- The issue of a DMA descriptor (R133, R186, R188, R606): it joins the DMA queue with the lowest free tracker of the plans' pool, which is
taken for its context and cluster, ISSUED and of the kind of its first transfer, its generation one higher modulo 64.
The model's choices here: log entry 12. -/
def Obligations.DmaDescriptorsTakeTrackers : Prop :=
  ∀ (d : Dev) (a : Slot) (k : Nat), d.freeTrk = some k →
    let takes := fun (c : Instr) (kind : Nat) => d.descReady a kind = true →
      Becomes c d (d.issuedBy a fun d =>
        let e : Dev := { d with descs := d.descs ++ [d.descOf a kind (some k)] }
        e.takeTrk k (e.issuedTrk (d.descOf a kind (some k))))
    takes (.fabDma a) 0x20 ∧ takes (.fabAmo a) 0x21 ∧
    ∀ (e : Dev) (q : Desc),
      let t := e.issuedTrk q
      let src := atLe q.bytes 0x10 8
      let dst := atLe q.bytes 0x18 8
      t.state = 1 ∧ t.ctx = q.ctx ∧ t.cluster = q.cl ∧ t.hub = false ∧
      (q.kind = 0x21 → t.kind = 4 ∧ t.addr = gVa dst ∧ t.node = gNode dst) ∧
      (q.kind ≠ 0x21 → t.length = segLen q / 16 ∧
        (gNode src ≠ e.node → t.kind = 4 ∧ t.addr = gVa src ∧ t.node = gNode src) ∧
        (gNode src = e.node → gNode dst ≠ e.node → t.kind = 2 ∧ t.addr = gVa dst ∧ t.node = gNode dst) ∧
        (gNode src = e.node → gNode dst = e.node → t.kind = 1 ∧ t.node = e.node))

/-! ### Engines and transfers -/

/-- The matrix array (R358, R361, R404, R435): it begins its next descriptor when it is idle and its checks pass, keeping what it read
and taking the planes it needs, and a scatter that finds no open hash accumulator opens it; a failed check is its fault; the descriptor
that has done its work leaves the array, and its completion operation applies.
Each end of work holds for all words that it may lose to merged writes (R510), and with none named it loses none.
The model's choices here: log entries 31, 38 and 72. -/
def Obligations.ArrayRunsDescriptors : Prop :=
  ∀ (d : Dev) (c : Nat),
    (∀ q r w, (d.clu c).mxFrozen = false → (d.clu c).mxNow = none → d.descs.find? (mxOf c) = some q →
      let d1 := { d with descs := d.descs.eraseP (mxOf c) }
      (d1.mxCheck q = (none, r, w) →
        let job : Job := { desc := q, opr := r, w := w, outs := d1.mxOuts q r w }
        let d2 := d1.modClu c fun k =>
          if takesPlanes q then { k with mxNow := some job, plane0 := none, plane1 := none } else { k with mxNow := some job }
        (q.kind ≠ 3 → Becomes (.mxDescStart c) d d2) ∧
        (q.kind = 3 → Becomes (.mxDescStart c) d (d2.openHacc q (gemmOf q.bytes r w) (spOf q.bytes)))) ∧
      (∀ e, d1.mxCheck q = (some e, r, w) → Becomes (.mxDescStart c) d (d1.mxFault q e.sub e.addr none))) ∧
    (∀ j e lost, (d.clu c).mxNow = some j → (d.clu c).cur ≠ .rampUp →
      let loses := fun (f : Dev) => f.endLosing d (f.clu c).mxNow.isSome 2 c (workOuts (some j)) lost
      (d.mxWork j = (e, none) → Becomes (.mxDescComplete ⟨c, lost⟩) d
        (loses (((e.modClu c fun k => { k with mxNow := none }).descDone j.desc 1).currDone c))) ∧
      (∀ f, d.mxWork j = (e, some (none, f)) → Becomes (.mxDescComplete ⟨c, lost⟩) d (loses (e.mxFault j.desc f.sub f.addr none)))) ∧
    ∀ (f : Dev) (b : Bool) (m n : Nat) (outs : List (Nat × Nat)), f.endLosing d b m n outs [] = f

/-- Supply-current control of the array (R397): a ramp up rises by one step a tick and is full at 16; a ramp down falls by one and is off
at 0; in the other states a tick changes nothing; at the end of a gap the ramp down begins. At full activity, and after a descriptor,
an array that holds none goes to GAP at its LEVEL, or to the ramp down where its context neither runs nor drains. No other cluster, no
register and no memory changes.
The model's choices here: log entry 1. -/
def Obligations.ArrayCurrentRamps : Prop :=
  ∀ (d : Dev) (c : Nat),
    let k := d.clu c
    (k.cur = .rampUp → k.act < 15 → Becomes (.mxaRampTick c) d (d.setClu c { k with act := k.act + 1 })) ∧
    (k.cur = .rampUp → 15 ≤ k.act → Becomes (.mxaRampTick c) d ((d.setClu c { k with act := 16, cur := .active }).currDone c)) ∧
    (k.cur = .rampDown → 1 < k.act → Becomes (.mxaRampTick c) d (d.setClu c { k with act := k.act - 1 })) ∧
    (k.cur = .rampDown → k.act ≤ 1 → Becomes (.mxaRampTick c) d (d.setClu c { k with act := 0, cur := .off })) ∧
    (k.cur = .off ∨ k.cur = .active ∨ k.cur = .gap → Becomes (.mxaRampTick c) d d) ∧
    (k.cur = .gap → Becomes (.mxaGapExpire c) d (d.setClu c { k with cur := .rampDown })) ∧
    (k.cur ≠ .gap → Becomes (.mxaGapExpire c) d (d.setClu c k)) ∧
    (d.mxEmpty c = false ∨ d.bit (Reg.MXA_CURR c) 0 = false → d.currDone c = d) ∧
    (d.tablesWf = true → d.mxEmpty c = true → d.bit (Reg.MXA_CURR c) 0 = true → k.cur = .active →
      (d.currDone c).clu c = { k with
        cur := if (d.ctx k.ctx).state = .running ∨ (d.ctx k.ctx).state = .draining then .gap else .rampDown
        act := d.fld (Reg.MXA_CURR c) 8 5 }) ∧
    (∀ n, (d.tablesWf = true → (d.setClu c n).clu c = n) ∧
      ∀ e : Dev, e = d.setClu c n ∨ e = d.currDone c →
        (∀ j, j ≠ c → e.clu j = d.clu j) ∧ (∀ o, e.reg o = d.reg o) ∧ ∀ a, e.byte a = d.byte a)

/-- The vector engine (R494, R495, R501): as the array, for vx.run and vx.wmax, on what it read of its tensors and its program at its
start. Of the checks that fail the one with the least code is the fault.
Each end of work holds for all words that it may lose to merged writes (R510), and with none named it loses none.
The model's choices here: log entries 31, 38 and 72. -/
def Obligations.VectorEngineRunsDescriptors : Prop :=
  ∀ (d : Dev) (c : Nat),
    (∀ q, (d.clu c).vxFrozen = false → (d.clu c).vxNow = none → d.descs.find? (vxOf c) = some q →
      let d1 := { d with descs := d.descs.eraseP (vxOf c) }
      let err := if q.kind = 8 then d1.vxRunErr q else d1.vxWmaxErr q
      (err = none → Becomes (.vxDescStart c) d (d1.modClu c fun k =>
        { k with vxNow := some { desc := q, opr := d1.vxRecord q, outs := d1.vxOuts q (d1.vxRecord q) } })) ∧
      (∀ e, err = some e → Becomes (.vxDescStart c) d (d1.vxFault q e.sub e.addr (d1.vxWordOf q)))) ∧
    (∀ j e lost, (d.clu c).vxNow = some j →
      let work := if j.desc.kind = 8 then d.vxRun j else d.vxWmax j
      let loses := fun (f : Dev) => f.endLosing d (f.clu c).vxNow.isSome 3 c j.outs lost
      (work = (e, none) →
        Becomes (.vxDescComplete ⟨c, lost⟩) d (loses ((e.modClu c fun k => { k with vxNow := none }).descDone j.desc 1))) ∧
      (∀ f, work = (e, some f) → Becomes (.vxDescComplete ⟨c, lost⟩) d (loses (e.vxFault j.desc f.sub f.addr 0)))) ∧
    ∀ (l : List (Nat × Bool × Nat)) (f : SubErr), leastErr l = some f →
      (f.sub, true, f.addr) ∈ l ∧ ∀ g ∈ l, g.2.1 = true → f.sub ≤ g.1

/-- The Dresser (R185, R230, R232, R277): a unit with no fault and room begins the oldest descriptor that waits for it, with the counts it
reads and the ranges it writes; a descriptor that has done its work leaves the unit, and its completion operation applies. Its transfers
take a tracker of the hub-engine reserve, for which it waits while none is free, and which is free again at its end.
Each end of work holds for all words that it may lose to merged writes (R510), and with none named it loses none.
The model's choices here: log entries 31, 57, 72 and 115. -/
def Obligations.DresserRunsDescriptors : Prop :=
  ∀ (d : Dev) (u : Nat), u < 8 →
    (∀ q f opr, d.bit (Reg.DRS_U_FAULT u) 8 = false →
      d.descs.find? (d.drsFor u) = some q → ((d.unitJobs u).filter fun j => j.desc.kind == q.kind).length < unitRoom q.kind →
      let d1 := { d with descs := d.descs.erase q }
      d1.drsCheck q = .ok (f, opr) →
      let d2 := { d1 with jobs := d1.jobs ++ [{ desc := q, opr := opr, outs := d1.drsOuts q f (d1.placement q.ctx) opr }] }
      Becomes (.drsDescStart u) d (if q.kind = 0x32 then
        d2.markBias (pfBiasBase f + atLe q.bytes 0x14 2) (atLe q.bytes 0x16 2 + 1 - atLe q.bytes 0x14 2) else d2)) ∧
    ∀ k j lost, (d.unitJobs u)[k]? = some j →
      let loses := fun (f : Dev) => f.endLosing d (decide (d.jobs.length ≤ f.jobs.length)) 6 j.desc.cl j.outs lost
      (d.freeHubTrk = none → Becomes (.drsDescComplete ⟨u, lost⟩ k) d d) ∧
      ∀ t e, d.freeHubTrk = some t →
        let d1 := d.takeTrk t (hubTracker d j.desc.ctx j.desc.pc 3)
        let f := (d1.profile j.desc.ctx (atLe j.desc.bytes (if j.desc.kind = 0x32 then 0x11 else 0x10) 1)).getD []
        let ends := Becomes (.drsDescComplete ⟨u, lost⟩ k) d (loses (({ e with jobs := e.jobs.erase j }.descDone j.desc 3).freeTrkEntry t))
        (j.desc.kind = 0x30 → (topkWork j.desc f).runOn d1 = (e, none) → ends) ∧
        (j.desc.kind = 0x31 → (assignWork j f (d1.placement j.desc.ctx)).runOn d1 = (e, none) → ends) ∧
        (j.desc.kind = 0x32 → (biasWork j.desc f).runOn d1 = (e, none) → ends)

/-- Collective operations (R187, R309, R525, R668, R683, R687): while fewer than 16 run, the engine starts the k-th operation that is
first of its group or layer, once its checks have passed; it raises CLASS where the segments of a collective need a buffer and Cabinet
client 8 is disabled. A staged chunk of a running operation leaves staging: one with a poisoned unit raises CPOISON, one whose check value
is wrong CCHECK with its source, and one that the operation expects joins its stream. An operation whose result is whole and that has
sent all it has to send writes its result, counts and marks its OIS events, and completes with its completion operation.
Each end of work holds for all words that it may lose to merged writes (R510), and with none named it loses none.
The model's choices here: log entries 31, 58 and 106. -/
def Obligations.CollectiveOperations : Prop :=
  ∀ d : Dev,
    (∀ k q, (d.descs.filter (collFirst d))[k]? = some q →
      (d.colls.filter fun o => o.group < 0xFE || o.group == 256).length < 16 →
      let d1 : Dev := { d with descs := d.descs.erase q }
      (∀ e input d2, isExchange q.bytes = false → d.collRunning q.ctx (atLe q.bytes 0x11 1) = false →
        d1.collCheck q = .ok (e, input, d2) →
        let g := atLe q.bytes 0x11 1
        let m := d2.collNo q.ctx g
        let d3 := { d2 with collSeq := mapSet (fun _ => 0) d2.collSeq (q.ctx * 256 + g) (m + 1) }
        let outs := d3.outRanges q.ctx [(atLe q.bytes 0x28 8, cBytes (cBits e.ofmt) e.outCount)]
        (e.segmented = false ∨ d2.cabOn q.ctx 8 = true → Becomes (.collOpStart k) d
          (d3.collJoin { desc := q, group := g, seq := m, w := e.w, input := input, outs := outs })) ∧
        (e.segmented = true → d2.cabOn q.ctx 8 = false → Becomes (.collOpStart k) d (d2.cabFault ⟨q.ctx, 0, 0⟩ 6 8))) ∧
      (∀ f input sends d2, isExchange q.bytes = true → d1.xCheck q = .ok f → xBegin q f d1 = .ok (input, sends) d2 →
        let o : CollOp := { desc := q, group := 256, seq := 0, outs := d1.xOuts q f, input := input, outq := sends }
        Becomes (.collOpStart k) d (({ d2 with colls := d2.colls ++ [o] } : Dev).collAdvance ((d2.colls ++ [o]).length - 1)))) ∧
    (∀ k s i o e, d.staged[k]? = some s → d.opOf s = some i → d.colls[i]? = some o → d.envOf o = some e →
      let d1 : Dev := { d with staged := d.staged.eraseIdx k }
      let at_ := match s.buf with | some b => d1.cabAddr b | none => 0
      let pay := match s.buf with | some _ => d1.read at_ s.pay.length | none => s.pay
      let d2 := d1.unstage s
      let bad := s.poison || (s.buf.isSome && d2.poisoned at_ s.pay.length)
      let ix := (chunkTag s.hdr).1
      let phase := (chunkTag s.hdr).2.2.1
      let wanted := phase == 8 || e.flowsIn.any fun f =>
        f.src == s.hdr.src && f.phase == phase && decide (ix < max 1 (ceilDiv f.len (chunkSize phase)))
      (bad = true → Becomes (.collChunkConsume k) d (d2.colFault s.ctx o.desc.cl o.code 0x33 (at_ % 2 ^ 32) 0)) ∧
      (bad = false → e.check pay ≠ s.hdr.sval → Becomes (.collChunkConsume k) d (d2.colFault s.ctx o.desc.cl o.code 0x34 s.hdr.src 0)) ∧
      (bad = false → e.check pay = s.hdr.sval → wanted = true → Becomes (.collChunkConsume k) d
        (({ d2 with colls := d2.colls.set i { o with got := o.got ++ [(s.hdr.src, phase, ix, pay)] } } : Dev).collAdvance i)) ∧
      (bad = false → e.check pay = s.hdr.sval → wanted = false → Becomes (.collChunkConsume k) d d2)) ∧
    ∀ k o peers lost,
      let d1 := d.collAdvance k
      d1.colls[k]? = some o →
      let ends := fun (f : Dev) =>
        let g := ({ f with colls := f.colls.erase o } : Dev).descDone o.desc 3
        g.endLosing d (decide (d.colls.length ≤ g.colls.length)) 4 128 ((d.colls[k]?).elim [] CollOp.outs) lost
      (∀ e bs ev, o.group < 0xFE → d1.envOf o = some e → e.result o.input o.arrived = some (bs, ev) → o.outq = [] →
        (e.flowsOut o.input o.arrived).length = o.sent.length →
        let marks := fun (f : Dev) =>
          let g := if ev = 0 then f else (f.bump (Reg.COL_CTX_SAT o.desc.ctx) ev).markSat o.desc.ctx o.desc.cl o.desc.pc
          if e.breaches then g.markBreach o.desc.ctx o.desc.cl o.desc.pc else g
        (bs = [] → Becomes (.collOpComplete ⟨k, lost⟩ peers) d (ends (marks d1))) ∧
        (∀ f, bs ≠ [] → (Eng.write o.desc.ctx 0x32 (atLe o.desc.bytes 0x28 8) bs).runOn d1 = (f, none) →
          Becomes (.collOpComplete ⟨k, lost⟩ peers) d (ends (marks f)))) ∧
      (∀ f m g, o.group = 256 → d1.profile o.desc.ctx (atLe o.desc.bytes 0x11 1) = some f → d1.xWork o f peers = some m →
        m.runOn d1 = (g, none) → Becomes (.collOpComplete ⟨k, lost⟩ peers) d (ends g))

/-- A local segment of a fab.dma (R126, R191): up to the next 4 KiB of its destination and the end of its transfer; its bytes are read,
and a local write with the sync operation of the descriptor waits to be performed; its tracker is in flight, and the queue has moved on.
The model's choices here: log entry 37. -/
def Obligations.DmaSegmentsLeave : Prop :=
  ∀ (d : Dev) (c k : Nat) (q : Desc) (ps qs : List Piece), d.descs.find? (dmaOf c) = some q → q.kind = 0x20 →
    d.dmaBody q.bytes = none → d.segTrk q = some k → gNode (atLe q.bytes 0x10 8) = d.node → gNode (atLe q.bytes 0x18 8) = d.node →
    let n := segLen q
    let dst := gVa (atLe q.bytes 0x18 8) + q.prog
    d.translate q.ctx .r (gVa (atLe q.bytes 0x10 8) + q.prog) n = .ok ps →
    let d1 := (d.eccPieces .clean ps).hcPieces q.ctx ps true
    d1.piecesPoisoned ps = false → d1.translate q.ctx .w dst n = .ok qs → d1.node = d.node →
    let t := segTracker q (headPa qs) d1.node (n / 16) 1 d1.time.toNat
    let d2 := d1.takeSeg q k t n (atLe q.bytes 0x20 4)
    let w : LWrite := { trk := k, ctx := q.ctx, va := dst, data := d1.readPieces ps, rop := t.rop, robj := t.robj, rval := t.rval }
    (gVa (atLe q.bytes 0x18 8) + q.prog) % 4096 + n ≤ 4096 ∧ q.prog + n ≤ max q.prog (atLe q.bytes 0x20 4) ∧
      Becomes (.dmaSegmentStart c .clean) d { d2 with lwrites := d2.lwrites ++ [w] }

/-- The end of a transfer (R78, R127 to R129, R510, R652, R654, R748, R900): a local write that translates, and that waits behind none
of its cluster for the same destination block, is performed with its sync operation and its tracker is complete; one behind another
waits; a complete tracker becomes free and its local operation applies, unless its context is frozen; a remote transfer past the
dead-target timeout becomes TIMEOUT and its master's fault 0x54 names the target.
The model's choices here: log entries 19 and 31. -/
def Obligations.TransfersEnd : Prop :=
  ∀ (d : Dev) (k : Nat),
    (∀ w ps lost, d.lwrites[k]? = some w → d.writeFirst k = true → w.exch = false → w.amo = none →
      let d1 := { d with lwrites := d.lwrites.eraseIdx k }
      d1.syncRefused w.ctx w.rop w.robj = false → d1.translate w.ctx .w w.va w.data.length = .ok ps →
      let d2 := (d1.storeLosing lost w.ctx ps w.data).syncOp w.ctx w.rop w.robj w.rval (ceilDiv w.data.length 16)
      Becomes (.localWritePerform k lost) d (d2.setTrk w.trk { d2.trk w.trk with state := 3 })) ∧
    (∀ lost, d.writeFirst k = false → Becomes (.localWritePerform k lost) d d) ∧
    (∀ j v w b, j < k → d.lwrites[j]? = some v → d.lwrites[k]? = some w → (d.trk v.trk).hub = false → (d.trk w.trk).hub = false →
      (d.trk v.trk).cluster = (d.trk w.trk).cluster → b ∈ d.writeBlocks v → b ∈ d.writeBlocks w → d.writeFirst k = false) ∧
    ((d.trk k).kind ≠ 0 → (d.trk k).state = 3 →
      let t := d.trk k
      ((d.ctx t.ctx).state = .frozen → Becomes (.trackerComplete k) d (d.setTrk k {})) ∧
      ((d.ctx t.ctx).state ≠ .frozen →
        Becomes (.trackerComplete k) d ((d.setTrk k {}).copOp t.ctx t.cluster t.pc 3 t.lop t.lsync t.lval t.length))) ∧
    (let t := d.trk k
     2 ≤ t.kind → t.node ≠ d.node → t.state = 2 → t.rd = false →
      t.since + d.deadTime (benchOf t.node != benchOf d.node) ≤ d.time.toNat →
      Becomes (.trackerTimeout k) d ((d.setTrk k { t with state := 4 }).masterFault t 0x54 t.node 0))

/-- Sync objects (R113 to R116): an addition adds modulo 2^32; OVF is set when the sum passes 2^32 and stays; the trigger fires once,
when COUNT reaches TARGET from below without overflow, and sends INC to NEXT. An update that waits at the sync store, behind none of its
cluster for the same bank (R78), is applied to an object its context owns, and one from a sequencer to another context's object raises
SYNC_PROT instead; one behind another waits. -/
def Obligations.SyncStoreApplies : Prop :=
  (∀ (o : SyncObj) (v : Nat), v < 2 ^ 32 →
    (o.add v).count.toNat = (o.count.toNat + v) % 2 ^ 32 ∧
    ((o.add v).ovf = true ↔ o.ovf = true ∨ 2 ^ 32 ≤ o.count.toNat + v) ∧
    (o.fires v = true ↔ o.chain = true ∧ o.fired = false ∧ o.ovf = false ∧ o.count.toNat + v < 2 ^ 32 ∧
      o.count.toNat < o.target ∧ o.target ≤ o.count.toNat + v) ∧
    (o.add v).owned = o.owned ∧ (o.add v).ctx = o.ctx ∧ (o.add v).target = o.target) ∧
  ∀ (d : Dev) (k : Nat) (r : SyncReq), d.syncQ[k]? = some r →
    let d1 := { d with syncQ := d.syncQ.eraseIdx k }
    (d.syncFirst k = true →
      (d.owns r.ctx r.obj = true → Becomes (.syncUpdateApply k) d (d1.syncAdd r.obj r.val)) ∧
      (∀ c pc, d.owns r.ctx r.obj = false → r.issuer = some (c, pc) →
        Becomes (.syncUpdateApply k) d (d1.seqExc c r.ctx 0x10 r.obj 3 0 pc false false 0))) ∧
    (d.syncFirst k = false → Becomes (.syncUpdateApply k) d d) ∧
    (r.issuer = none → d.syncFirst k = true) ∧
    ∀ j q c pc pc', j < k → d.syncQ[j]? = some q → q.issuer = some (c, pc) → r.issuer = some (c, pc') → q.obj % 16 = r.obj % 16 →
      d.syncFirst k = false

/-- A satisfied wait (R122, R134, R137): its sequencer runs again, its cluster is ungated, and a stopped group PLL starts and counts as
an unplanned wake. -/
def Obligations.WaitsComplete : Prop :=
  ∀ (d : Dev) (c : Nat), (d.clu c).seq = .waiting → (d.clu c).waitOk = true →
    Becomes (.waitComplete c) d ((d.modClu c fun k => { k with seq := .running, wait := none, waitOk := false }).wakeCluster c)

/-! ### Plans and the life cycle of a context -/

/-- A write of BUR_PLAN_CTRL (R80 to R82, R903): while the device is READY and no plan command runs, LOAD, START and UNLOAD are accepted,
BUSY is set and the command waits to be performed; while one runs the write is discarded and logged. A write of BUR_PLAN_STOPx of a
context that is not loaded, or of a step not behind, takes effect (R99).
The model's choices here: log entry 77. -/
def Obligations.PlanCommandsAccepted : Prop :=
  (∀ (d : Dev) (src : Master) (w : Word), d.refusal src Reg.BUR_PLAN_CTRL true = none → d.bit Reg.BUR_STATUS 0 = true →
    let written := d.plainWrite Reg.BUR_PLAN_CTRL w
    let takes := fun (k : Nat) => { written.setBit Reg.BUR_PLAN_STATUS 19 true with
      planCmd := some { kind := k, ctx := fieldOf w 48 3, addr := fieldOf w 0 48 } }
    (d.bit Reg.BUR_PLAN_STATUS 19 = false →
      (fieldOf w 56 3 = 1 → Becomes (.load src w) d (takes 0)) ∧ (fieldOf w 56 3 = 2 → Becomes (.start src w) d (takes 1)) ∧
      (fieldOf w 56 3 = 4 → Becomes (.unload src w) d (takes 2))) ∧
    (d.bit Reg.BUR_PLAN_STATUS 19 = true → Becomes (.load src w) d (d.logDiscard Reg.BUR_PLAN_CTRL) ∧
      Becomes (.start src w) d (d.logDiscard Reg.BUR_PLAN_CTRL) ∧ Becomes (.unload src w) d (d.logDiscard Reg.BUR_PLAN_CTRL))) ∧
  ∀ (d : Dev) (src : Master) (x : Nat) (w : Word), x < 8 → d.refusal src (Reg.BUR_PLAN_STOP x) true = none →
    ((d.loaded x = false ∨ (d.ctx x).step.toNat ≤ w.toNat) →
      Becomes (.planStopWrite src x w) d (d.plainWrite (Reg.BUR_PLAN_STOP x) w)) ∧
    (d.loaded x = true → w.toNat < (d.ctx x).step.toNat →
      Becomes (.planStopWrite src x w) d (d.logDiscard (Reg.BUR_PLAN_STOP x)))

/-- What a plan command does once it is performed (R82, R83, R90, R100, R293, R562, R903): LOAD of a plan whose checks pass gives the
context everything the plan names and ends with code 0, and a plan that a check turns away ends with that check's code and gives
nothing; START of a LOADED or STOPPED context arms it; UNLOAD of one that has stopped releases what it holds; from another state both
end with code 6.
The model's choices here: log entry 63. -/
def Obligations.PlanCommandsPerform : Prop :=
  ∀ (d : Dev) (x a : Nat),
    (d.planCmd = some { kind := 0, ctx := x, addr := a } →
      (inHbm a 64 = false → Becomes .loadComplete d (d.planEnd x { code := 3, detail := 8 })) ∧
      (inHbm a 64 = true → ∀ p e, d.planRead a = (p, e) →
        (∀ r, e.headErr x a p = some r → Becomes .loadComplete d (e.planEnd x r)) ∧
        (∀ r, e.headErr x a p = none → e.bodyErr x p = some r → Becomes .loadComplete d (e.planEnd x r)) ∧
        (∀ f, e.headErr x a p = none → e.bodyErr x p = none →
          Dev.writeResw x (reswCopies p (planTable p)) (e.giveAll x p) = .ok f →
          Becomes .loadComplete d (f.planEnd x { code := 0 })))) ∧
    (d.planCmd = some { kind := 1, ctx := x, addr := a } → d.restore = none →
      ((d.ctx x).state = .loaded ∨ (d.ctx x).state = .stopped → Becomes .startComplete d ((d.arm x).planEnd x { code := 0 })) ∧
      ((d.ctx x).state ≠ .loaded → (d.ctx x).state ≠ .stopped → Becomes .startComplete d (d.planEnd x { code := 6 }))) ∧
    (d.planCmd = some { kind := 2, ctx := x, addr := a } → mapFind d.snaps x = none →
      ((d.ctx x).state = .loaded ∨ (d.ctx x).state = .stopped ∨ (d.ctx x).state = .done →
        Becomes .unloadComplete d ((d.unloadRun x).planEnd x { code := 0 })) ∧
      ((d.ctx x).state ≠ .loaded → (d.ctx x).state ≠ .stopped → (d.ctx x).state ≠ .done →
        Becomes .unloadComplete d (d.planEnd x { code := 6 })))

/-- From ARMED to CLOSING (R100, R102, R103, R108 to R111, R729): START arms a context for the first slot at or after now plus its lead;
the agreement of a job of one device gives it T_start of that slot; the first-ranked context whose slice is free wakes; at T_run the step
starts, its context RUNNING, and each cluster of the plan runs from its entry with the step number in s1 and an empty loop stack; a
DRAINING context of a job of one device closes once nothing of it is in the device, and its arrays' current control leaves GAP (R397);
past the step limit a context freezes with SOURCE STEP.
The model's choices here: log entries 62, 80 and 105. -/
def Obligations.StepsBeginAndDrain : Prop :=
  ∀ (d : Dev) (x : Nat), x < 8 → d.tablesWf = true →
    let c := d.ctx x
    let p := c.plan
    (planDevices p ≤ 1 → d.arm x = d.setCtx x { c with
      state := .armed, nReady := slotFrom (planT0 p) (planPeriod p) (d.time.toNat + planLead p), agreed := false, slice := false }) ∧
    (c.state = .armed → c.agreed = false → planDevices p ≤ 1 →
      Becomes (.startAgreementComplete x) d (d.setCtx x { c with agreed := true, tStart := planT0 p + c.nReady * planPeriod p })) ∧
    (d.ranked x = true → d.sliceFree x = true → d.timeOk x = true → c.tStart ≤ d.time.toNat + planWakeLead p →
      (∀ y ∈ allCtxs, y ≠ x → d.ranked y = true → d.samePart x y = true → d.ranksBefore y x = false) →
      Becomes (.contextWake x) d ((d.setCtx x { c with
        state := .waking, slice := true, tWake := d.time.toNat, tRun := max c.tStart (d.time.toNat + planWakeLead p),
        woken := [] }).assignUnits x)) ∧
    (c.state = .waking → c.tRun ≤ d.time.toNat →
      ∃ e, Becomes (.stepStart x) d ((planClusters p).foldl (Dev.startCluster x) e) ∧ (e.ctx x).state = .running ∧
        (e.ctx x).step = c.step ∧ (e.ctx x).late = (if c.tStart < c.tRun then satAdd 24 c.late 1 else c.late)) ∧
    (∀ q : ClusterEntry, keysRise ((d.seqr q.cl x).s.map Prod.fst) = true → ((Dev.startCluster x d q).seqr q.cl x).pc = q.entry ∧
      ((Dev.startCluster x d q).seqr q.cl x).sr 1 = c.step ∧ ((Dev.startCluster x d q).seqr q.cl x).loops = [] ∧
      ((Dev.startCluster x d q).clu q.cl).seq = .running ∧ ((Dev.startCluster x d q).clu q.cl).tiles = []) ∧
    (c.state = .draining → c.jobDrained = false → d.drained x = true → planDevices c.plan ≤ 1 →
      Becomes (.drainComplete x) d ((d.setCtx x { c with state := .closing, tClose := d.time.toNat }).leaveCurrents x)) ∧
    (c.state = .draining → c.jobDrained = false → d.drained x = false → Becomes (.drainComplete x) d d) ∧
    (c.state = .running → c.tStart + planLimit c.plan * 256 < d.time.toNat →
      Becomes (.stepWatchdog x) d (d.freeze x 8 0 0 0 0 0))

/-- The boundary (R101, R105, R720): the actions that can be performed are, in order; when all are, the step number rises by one, the
objects with REINIT take their initial count, and the context is DONE after its last step, STOPPED at its stop step, and ARMED
otherwise. A record that finds no room in its WAIT is discarded and the gap marked.
The model's choices here: log entry 84. -/
def Obligations.BoundariesComplete : Prop :=
  ∀ (d : Dev) (x : Nat), x < 8 → d.tablesWf = true → (d.ctx x).state = .closing →
    let r := ((d.boundaryHead x).boundarySwaps x).boundaryJournal x
    (r.1 = true → Becomes (.boundaryComplete x) d (r.2.boundaryEnd x)) ∧
    (r.1 = false → Becomes (.boundaryComplete x) d r.2) ∧
    (let c := d.ctx x
     let last := planCount c.plan ≠ 0 ∧ c.step.toNat = (planFirst c.plan + planCount c.plan - 1) % 2 ^ 64
     planDevices c.plan ≤ 1 → mapFind d.snaps x = none →
      ((d.boundaryEnd x).ctx x).step = c.step + 1 ∧
      (last → ((d.boundaryEnd x).ctx x).state = .done) ∧
      (¬ last → d.reg (Reg.BUR_PLAN_STOP x) = c.step → ((d.boundaryEnd x).ctx x).state = .stopped) ∧
      (¬ last → d.reg (Reg.BUR_PLAN_STOP x) ≠ c.step → ((d.boundaryEnd x).ctx x).state = .armed) ∧
      ∀ i, (d.obj i).owned = true → (d.obj i).ctx = x → (d.obj i).reinit = true →
        ((d.boundaryEnd x).obj i).count = BitVec.ofNat 32 (d.obj i).init ∧ ((d.boundaryEnd x).obj i).ovf = false ∧
        ((d.boundaryEnd x).obj i).fired = false) ∧
    ((d.ctx x).bdone = 2 → planJournal (d.ctx x).plan = true → (d.ctx x).jSkip = false → d.ringRoom x = false → d.waitOver x = true →
      Becomes (.journalWaitTimeout x) d
        ((d.addFld (Reg.FPU_CTX_JCFG x) 32 32 1).setCtx x { d.ctx x with gap := true, jSkip := true }))

/-- Clock gating, wake entries, group PLLs, background windows and code fetch (R134 to R144, R209, R762, R854): a stalled cluster with
nothing to do is gated; a wake entry whose time has come stops the PLL of a group all of whose clusters are stalled, and otherwise counts;
a start entry starts a stopped PLL; a locking PLL locks; an instance's window is open exactly in the first LENGTH of its PERIOD from PHASE
in Trestle time, and its opening and closing change the window alone; an empty fetch buffer of a running sequencer whose PLL is locked
takes the bundle at PC.
The model's choices here: log entries 1, 13 and 82. -/
def Obligations.GatingAndWakes : Prop :=
  ∀ (d : Dev) (x i g : Nat),
    (∀ c, c < 128 → (d.clu c).stalled = true → d.mxEmpty c = true → (d.clu c).cur = .off → (d.clu c).vxNow = none →
      d.queued c 1 = 0 → d.queued c 2 = 0 → Becomes (.clusterGate c) d (d.modClu c fun k => { k with gated := true })) ∧
    (∀ e, (planWakes (d.ctx x).plan)[i]? = some e → (d.ctx x).hasWoken = true → (d.ctx x).woken.contains i = false →
      ((d.ctx x).tRun : Int) + e.at_ ≤ (d.time.toNat : Int) →
      let d1 := d.setCtx x { d.ctx x with woken := (d.ctx x).woken ++ [i] }
      (e.action = 1 →
        ((∀ c ∈ upFrom (8 * e.group) 8, (d.clu c).stalled = true ∨ (d.clu c).seq = .idle) →
          ((∀ c ∈ upFrom (8 * e.group) 8, (d.clu c).cur = .off) → Becomes (.wakeStop x i) d (d1.setPll e.group .stopped)) ∧
          ((∃ c ∈ upFrom (8 * e.group) 8, (d.clu c).cur ≠ .off) → Becomes (.wakeStop x i) d d)) ∧
        ((∃ c ∈ upFrom (8 * e.group) 8, (d.clu c).stalled = false ∧ (d.clu c).seq ≠ .idle) →
          Becomes (.wakeStop x i) d (d1.addFld Reg.PWR_WAKE 0 32 1))) ∧
      (e.action = 2 → d.pll e.group = .stopped → Becomes (.wakeStart x i) d (d1.setPll e.group .locking))) ∧
    (d.pll g = .locking → Becomes (.groupPllLocked g) d (d.setPll g .locked)) ∧
    (d.pll g ≠ .locking → Becomes (.groupPllLocked g) d d) ∧
    (∀ (r n : Nat), n < instances r →
      let w := d.bgWindow r n
      (w.1 ≠ 0 → w.2.2 < w.1 → (d.inWin r n = true ↔ (d.time.toNat + (w.1 - w.2.2)) % w.1 < w.2.1)) ∧
      (d.inWin r n = true → Becomes (.backgroundWindowOpen r n) d
        { d with windows := mapSet (fun _ => false) d.windows (r * 16 + n) true }) ∧
      (d.inWin r n = false → Becomes (.backgroundWindowClose r n) d
        { d with windows := mapSet (fun _ => false) d.windows (r * 16 + n) false })) ∧
    ∀ (c : Nat) (ext : Extent),
      let k := d.clu c
      let x := k.ctx
      let r := d.seqr c x
      let a := spadAddr c (0x700000 + ext.base + r.pc)
      k.fetch = [] → k.seq = .running ∨ k.seq = .waiting → (d.ctx x).state = .running → d.clocked c = true → r.pc < d.imageLen x c → d.extent x c = some ext →
        (d.poisoned a 16 = false → Becomes (.codeFetch c .clean) d
          ((d.modClu c fun k => { k with fetch := k.fetch ++ [r.pc] }).addFld (Reg.SEQ_FETCH_BYTES c) 0 64 16)) ∧
        (d.poisoned a 16 = true → Becomes (.codeFetch c .clean) d (d.freeze x 0xB (c / 8) 0 0 0 0))

/-- Freezing a context (R100, R104, R746 to R749, R757): an active context, or one that became STOPPED or DONE in this hub cycle, becomes
FROZEN in HOLD for its hold time, none of its descriptors, updates or chunks stays in an engine or a queue, no other context changes,
and where no output of it is open its fault record holds the cause, the step, the time and the detail; a further cause sets MULTI, and
takes the head of the record where it arises in the hub cycle of the freeze and goes first by SOURCE and unit; any other context is left
as it is.
The model's choices here: log entry 36. -/
def Obligations.FreezeRecordsTheCause : Prop :=
  ∀ (d : Dev) (x source code sub tr unit detail : Nat), x < 8 → d.tablesWf = true →
    let c := d.ctx x
    let e := d.freeze x source code sub tr unit detail
    (d.freezable x = true →
      (e.ctx x) = { c with state := .frozen, phase := 1, holdEnd := d.time.toNat + planHold c.plan * 1600 } ∧
      (∀ y, y ≠ x → e.ctx y = d.ctx y) ∧ (∀ q ∈ e.descs, q.ctx ≠ x) ∧ (∀ q ∈ e.syncQ, q.ctx ≠ x) ∧
      (∀ o ∈ e.colls, o.desc.ctx ≠ x) ∧ (∀ j ∈ e.jobs, j.desc.ctx ≠ x) ∧
      (d.openOuts x = [] →
        e.reg (Reg.CTX_FR x 0) = freezeSummary source code sub tr unit ∧ e.reg (Reg.CTX_FR x 1) = c.step ∧
        e.reg (Reg.CTX_FR x 2) = d.time ∧ e.reg (Reg.CTX_FR x 3) = BitVec.ofNat 64 detail)) ∧
    (d.freezable x = true ↔ c.state.active = true ∨ ((c.state = .stopped ∨ c.state = .done) ∧ c.ended = some d.time.toNat)) ∧
    (c.state = .frozen →
      (d.causeFirst x source unit = false → e = d.setBit (Reg.CTX_FR x 0) 27 true) ∧
      (d.causeFirst x source unit = true →
        e = (d.fillRecord x (freezeSummary source code sub tr unit) detail).setBit (Reg.CTX_FR x 0) 27 true) ∧
      (d.causeFirst x source unit = true ↔ c.phase = 1 ∧ d.reg (Reg.CTX_FR x 2) = d.time ∧
        (source < d.fld (Reg.CTX_FR x 0) 0 8 ∨ (source = d.fld (Reg.CTX_FR x 0) 0 8 ∧ unit < d.fld (Reg.CTX_FR x 0) 32 16)))) ∧
    (d.freezable x = false → c.state ≠ .frozen → e = d)

/-- KILL and teardown (R752, R755, R757): KILL freezes an active context with SOURCE KILL; TEARDOWN, or the end of the hold time, ends
HOLD; QUIESCE ends when every tracker but those of a snapshot is free or TIMEOUT; RELEASE gives back what the context holds; after CLEAR
it is UNLOADED. A write out of place is discarded and logged.
The model's choices here: log entries 1 and 115. -/
def Obligations.TeardownPhases : Prop :=
  ∀ (d : Dev) (src : Master) (x : Nat) (w : Word), x < 8 →
    let c := d.ctx x
    let r := Reg.CTX_CTX_CTRL x
    (d.refusal src r true = none →
      (bitOf w 0 = true → bitOf w 1 = false →
        (d.freezable x = true → Becomes (.kill src x w) d (d.freeze x 9 0 0 0 0 0)) ∧
        (d.freezable x = false → Becomes (.kill src x w) d (d.logDiscard r))) ∧
      (bitOf w 0 = false → bitOf w 1 = true →
        (c.state = .frozen → c.phase = 1 → Becomes (.teardown src x w) d (d.setCtx x { c with phase := 2 })) ∧
        (c.state ≠ .frozen → Becomes (.teardown src x w) d (d.logDiscard r)))) ∧
    (c.state = .frozen → c.phase = 1 → c.holdEnd ≤ d.time.toNat → Becomes (.holdExpire x) d (d.setCtx x { c with phase := 2 })) ∧
    (c.state = .frozen → c.phase = 2 → mapFind d.snaps x = none →
      (∀ k t, (k, t) ∈ d.trks → t.ctx = x → t.kind = 0 ∨ t.src = 12 ∨ t.state = 4) →
      Becomes (.quiesceDone x) d (d.setCtx x { c with phase := 3 })) ∧
    (c.state = .frozen → c.phase = 3 → Becomes (.releaseDone x) d ((d.release x).modCtx x fun c => { c with phase := 4 })) ∧
    (c.state = .frozen → c.phase = 4 →
      ∃ e : Dev, Becomes (.clearDone x) d (e.toUnloaded x) ∧ (e.ctx x).state = .frozen ∧
        ∀ f : Dev, f.tablesWf = true → ((f.toUnloaded x).ctx x).state = .unloaded ∧ ((f.toUnloaded x).ctx x).plan = [] ∧
          ((f.toUnloaded x).ctx x).step = (f.ctx x).step)


/-! ### Register accesses and the error log -/

/-- A write of one whole register (R20, R22, R896): refused accesses are logged with their code and change nothing else; one that
passes follows its register's rule. A narrow write is discarded and logged. A plain write changes each bit by its access type and no
other register. A host write that BUR_ADMIT does not allow is refused (R851). A read of AON_POWER hands PEAK over and clears it; the
registers of a cluster's sequencer for the context that SEQ_CFG names read and write while that context is LOADED, STOPPED, DONE or
FROZEN (R222); a write of SEQ_SPM_LOST clears the bits it sets (R511), and a bit that a lost word sets in the same cycle reads 1 (R23).
A read returns the addressed bytes of a whole read (R21). No access of the host is performed while domain 24 is in reset (R3).
The model's choices here: log entries 31, 104 and 107. -/
def Obligations.RegisterAccesses : Prop :=
  (∀ (d : Dev) (src : Master) (off : Nat) (data : Bytes), off % 8 = 0 → off < 0x10000000 → data.length = 8 →
    let w := BitVec.ofNat 64 (leNat data)
    (src = .host → d.domOn 24 = false → Becomes (.csrWrite src off data) d d) ∧
    (∀ c, d.refusal src off true = some c → (src = .host → d.domOn 24 = true) →
      Becomes (.csrWrite src off data) d (d.log 1 c (logBlock off) none 0 off)) ∧
    (d.refusal src off true = none → Becomes (.csrWrite src off data) d (d.ruleWrite src off w)) ∧
    (0 < off → d.refusal src (off - 8) true = none →
      Becomes (.csrWrite src (off - 8) (data.take 4)) d (d.log 1 1 (logBlock (off - 8)) none 0 (off - 8)))) ∧
  (∀ (d : Dev) (off : Nat), regExists off = true → off < 0x1000000 → off / 0x100000 ≠ 3 → d.bit Reg.BUR_ADMIT (off / 0x100000) = false →
    d.domOn 24 = true → d.refusal .host off true = some 4) ∧
  (∀ (d : Dev) (src : Master) (off : Nat) (wr : Bool), regExists off = false ∨ (0x10000000 ≤ off ∧ src ≠ .bureau) →
    (src = .host → d.domOn 24 = true) → d.refusal src off wr = some 5) ∧
  (∀ (d : Dev) (off : Nat) (w : Word) (r : RegRow), d.tablesWf = true → regAt off = some r →
    (∀ o, o ≠ off → (d.plainWrite off w).reg o = d.reg o) ∧
    ∀ i, i < 64 →
      (r.rw.testBit i = true → r.w1c.testBit i = false → r.w1s.testBit i = false →
        bitOf ((d.plainWrite off w).reg off) i = bitOf w i) ∧
      (r.rw.testBit i = false → r.w1c.testBit i = true → r.w1s.testBit i = false →
        bitOf ((d.plainWrite off w).reg off) i = (bitOf (d.reg off) i && !bitOf w i)) ∧
      (r.rw.testBit i = false → r.w1c.testBit i = false → r.w1s.testBit i = true →
        bitOf ((d.plainWrite off w).reg off) i = (bitOf (d.reg off) i || bitOf w i)) ∧
      (r.rw.testBit i = false → r.w1c.testBit i = false → r.w1s.testBit i = false →
        bitOf ((d.plainWrite off w).reg off) i = bitOf (d.reg off) i)) ∧
  ∀ (d : Dev) (src : Master) (c k : Nat) (w : Word), c < 128 →
    (∀ r lo n : Nat, r % 8 = 0 → r < 0x1000000 → 0 < n → lo + n ≤ 8 →
      (d.refusal src r false = none →
        Becomes (.aonPowerRead ⟨src, r + lo, n⟩) d ((if r = Reg.AON_POWER then d.setFld Reg.AON_POWER 16 16 0 else d).emit
          (.data src (((leBytes 8 (d.readReg r).toNat).drop lo).take n)))) ∧
      (src = .host → d.domOn 24 = false → Becomes (.aonPowerRead ⟨src, r + lo, n⟩) d d) ∧
      ∀ code, d.refusal src r false = some code → (src = .host → d.domOn 24 = true) →
        Becomes (.aonPowerRead ⟨src, r + lo, n⟩) d ((d.log 1 code (logBlock r) none 0 r).emit (.data src (List.replicate n 0)))) ∧
    (let e := d.wakeCluster c
     let x := d.fld (Reg.SEQ_CFG c) 0 3
     let r := e.seqr c x
     let base := 0x1000000 + c * 0x20000
     (d.ctx x).state = .loaded ∨ (d.ctx x).state = .stopped ∨ (d.ctx x).state = .done ∨ (d.ctx x).state = .frozen →
      (k < 32 →
        (d.refusal src (base + 0x100 + 8 * k) true = none →
          Becomes (.seqRegAccess src (base + 0x100 + 8 * k) (some w)) d (e.setSeqr c x (r.setS k w))) ∧
        (d.refusal src (base + 0x100 + 8 * k) false = none →
          Becomes (.seqRegAccess src (base + 0x100 + 8 * k) none) d (e.emit (.data src (leBytes 8 (r.sr k).toNat))))) ∧
      (k < 16 → d.refusal src (base + 0x200 + 8 * k) true = none →
        Becomes (.seqRegAccess src (base + 0x200 + 8 * k) (some w)) d (e.setSeqr c x (r.setA k (w.setWidth 48))))) ∧
    (d.refusal src (Reg.SEQ_SPM_LOST c) true = none →
      Becomes (.spmLostClear src ⟨c, []⟩ w) d (d.plainWrite (Reg.SEQ_SPM_LOST c) w) ∧
      ∀ m n off : Nat, spmLoses m n off = true → off < 0x800000 → off % 8 = 0 → d.domOn (c / 8) = true →
        let e := (d.plainWrite (Reg.SEQ_SPM_LOST c) w).spmLoss c m off
        Becomes (.spmLostClear src ⟨c, [(m, off, n)]⟩ w) d e ∧ (d.tablesWf = true → e.bit (Reg.SEQ_SPM_LOST c) m = true))

/-- The error log (R862, R863, R865): an entry takes the next of the 1,024 places, counts in AON_LOG_STATUS, and holds the time, its
number, class, code, block and context, the unit and the detail; vector 0 of the PF and an alert are raised, and no other register
changes.
The model's choices here: log entry 101. -/
def Obligations.ErrorLogEntries : Prop :=
  ∀ (d : Dev) (cls code block unit detail : Nat) (ctx : Option Nat), d.tablesWf = true → cls < 256 → code < 256 →
    block < 256 →
    let e := d.log cls code block ctx unit detail
    let n := (d.fld Reg.AON_LOG_STATUS 0 32 + 1) % 2 ^ 32
    let i := d.fld Reg.AON_LOG_STATUS 0 32 % 1024
    e.fld Reg.AON_LOG_STATUS 0 32 = n ∧ e.reg (Reg.AON_LOG i 0) = d.time ∧
    e.fld (Reg.AON_LOG i 1) 0 32 = n ∧ e.fld (Reg.AON_LOG i 1) 32 8 = cls ∧ e.fld (Reg.AON_LOG i 1) 40 8 = code ∧
    e.fld (Reg.AON_LOG i 1) 48 8 = block ∧
    (∀ x, ctx = some x → x < 8 → e.fld (Reg.AON_LOG i 1) 56 3 = x ∧ e.bit (Reg.AON_LOG i 1) 59 = true) ∧
    (ctx = none → e.bit (Reg.AON_LOG i 1) 59 = false) ∧
    e.fld (Reg.AON_LOG i 2) 0 16 = unit % 65536 ∧ e.reg (Reg.AON_LOG i 3) = BitVec.ofNat 64 detail ∧
    (∀ o, o ≠ Reg.AON_LOG_STATUS → (∀ k, k < 4 → o ≠ Reg.AON_LOG i k) → e.reg o = d.reg o) ∧
    (d.domOn 24 = true → mapGet (fun _ => false) d.msixMask 0 = false → d.i3cFailed = false → e.out = d.out ++ [.msix 0 0, .ibi 1]) ∧
    e.ctxs = d.ctxs ∧ e.mem = d.mem

/-- Register writes with a rule of their own (R324, R547, R588, R656 to R660, R721, R725 to R727, R827): a write that passes the common
checks takes effect where the rule lets it, and is discarded and logged where it does not.
The model's choices here: log entry 89. -/
def Obligations.RegisterWriteRules : Prop :=
  ∀ (d : Dev) (src : Master) (n : Nat) (w : Word), d.tablesWf = true →
    let takes := fun (c : Instr) (off : Nat) (ok : Bool) (f : Dev) =>
      d.refusal src off true = none →
        (ok = true → Becomes c d f) ∧ (ok = false → Becomes c d (d.logDiscard off))
    let plain := fun (off : Nat) => d.plainWrite off w
    takes (.placeSwapWrite src w) Reg.BUR_PLACE_SWAP (!d.bit Reg.BUR_PLACE_STATUS 19) (plain Reg.BUR_PLACE_SWAP) ∧
    (n < 2 → takes (.tierPoolWrite src n w) (Reg.TIER_POOL_CFG n)
      (!allCtxs.any d.loaded && fieldOf w 0 48 % 65536 == 0 &&
        !overlap (fieldOf w 0 48) (fieldOf w 48 16 * 1024 * 65536) (d.mapAddr 0) d.mapBytes)
      (plain (Reg.TIER_POOL_CFG n))) ∧
    takes (.chestCfgWrite src w) Reg.CHEST_CFG
      (!allCtxs.any d.loaded && decide (16 ≤ fieldOf w 0 16) && decide (1000 ≤ fieldOf w 32 24)) (plain Reg.CHEST_CFG) ∧
    (n < 16 → takes (.fabPkeyWrite src n w) (Reg.FAB_PKEY n) (!(fieldOf w 0 16 == 0xFFFF && bitOf w 16)) (plain (Reg.FAB_PKEY n))) ∧
    (n < 8 → takes (.ctxPkeyWrite src n w) (Reg.FAB_CTX_ID n) (!d.loaded n) (plain (Reg.FAB_CTX_ID n))) ∧
    takes (.fabConfigWrite src 0 w) Reg.FAB_NODE (!allCtxs.any d.loaded) (plain Reg.FAB_NODE) ∧
    takes (.fabConfigWrite src 1 w) Reg.FAB_TIMEOUT
      (!allCtxs.any d.loaded && decide (fieldOf w 32 16 + 10 ≤ fieldOf w 0 16) && decide (fieldOf w 48 16 < fieldOf w 16 16))
      (plain Reg.FAB_TIMEOUT) ∧
    takes (.fabConfigWrite src 2 w) Reg.FAB_VCW ((upFrom 0 5).all fun i => fieldOf w (4 * i) 4 != 0) (plain Reg.FAB_VCW) ∧
    takes (.fabConfigWrite src 3 w) Reg.FAB_COMBINE (decide (1 ≤ fieldOf w 8 7) && decide (fieldOf w 8 7 ≤ 64)) (plain Reg.FAB_COMBINE) ∧
    takes (.trsCfgWrite src w) Reg.TRS_CFG (decide (4096 ≤ fieldOf w 8 24))
      (if bitOf w 0 then (plain Reg.TRS_CFG).setFld Reg.TRS_SYNC 0 2 1 else plain Reg.TRS_CFG) ∧
    (n < 8 → takes (.jheadWrite src n w) (Reg.FPU_CTX_JHEAD n)
      (decide ((d.reg (Reg.FPU_CTX_JHEAD n)).toNat ≤ w.toNat) && decide (w.toNat ≤ (d.reg (Reg.FPU_CTX_JTAIL n)).toNat))
      (d.setReg (Reg.FPU_CTX_JHEAD n) w)) ∧
    (n < 8 → takes (.journalRingWrite src n true w) (Reg.FPU_CTX_JSIZE n)
      (!(d.ctx n).state.active && fieldOf w 0 40 % 64 == 0 && d.fld (Reg.FPU_CTX_JBASE n) 0 48 % 64 == 0 &&
        (fieldOf w 0 40 == 0 || inHbm (d.fld (Reg.FPU_CTX_JBASE n) 0 48) (fieldOf w 0 40)) &&
        d.poolRanges.all (fun r => !overlap (d.fld (Reg.FPU_CTX_JBASE n) 0 48) (fieldOf w 0 40) r.1 r.2))
      ((((plain (Reg.FPU_CTX_JSIZE n)).setFld (Reg.FPU_CTX_JCFG n) 32 32 0).setReg (Reg.FPU_CTX_JHEAD n) 0).setReg
        (Reg.FPU_CTX_JTAIL n) 0)) ∧
    (1 ≤ n → n ≤ 8 → takes (.vfCfgWrite src n w) (Reg.HIF_VF_CFG n)
      (!(d.bit (Reg.HIF_VF_CFG n) 3 && (d.ctx (d.fld (Reg.HIF_VF_CFG n) 0 3)).state.active) && !(d.ctx (fieldOf w 0 3)).state.active)
      (plain (Reg.HIF_VF_CFG n)))

/-! ### The hub cache, the Cabinet and placement -/

/-- The hub cache's invalidation and the Cabinet's buffers (R523, R525, R530 to R532, R534, R537): CAB_HC_INV removes the unpinned lines of
its ways and is busy until they are gone; an allocation takes the head of the free list of the smallest pool that fits and has a shared
buffer, else the client's reserve, else it waits; a hub engine that its context does not enable raises CLASS; a handoff and a release are
performed for the owner alone, and a release puts the buffer at the head of its list.
The model's choices here: log entries 30, 109 and 126. -/
def Obligations.CacheAndCabinet : Prop :=
  ∀ (d : Dev) (w : Word) (x c n p i by_ to_ owner : Nat),
    let st := Reg.CAB_CTX_P_STATE x p
    let b : Buf := { ctx := x, pool := p, ix := i }
    let word := leNat (d.read (d.cabAddr b) 8)
    (d.domOn 21 = true → d.bit Reg.CAB_HC_STATUS 0 = false → bitOf w 16 = true →
      Becomes (.hcInvalidate w) d (({ d with
        cache := mapVals (fun _ => []) (List.filter fun l => l.pin.isSome || !bitOf w l.way) d.cache } : Dev).setBit
          Reg.CAB_HC_STATUS 0 true)) ∧
    (d.domOn 21 = true → d.bit Reg.CAB_HC_STATUS 0 = true → Becomes (.hcInvalidate w) d (d.logDiscard Reg.CAB_HC_INV)) ∧
    Becomes .hcInvalidateDone d (d.setBit Reg.CAB_HC_STATUS 0 false) ∧
    (d.loaded x = true → n ≤ cabLargest c →
      (d.cabOn x c = true → d.fld st 16 16 = i →
        let d1 := (d.hcTouch x (d.cabAddr b) 8 true).setFld st 16 16 (bitsOf word 0 16)
        let taken := (d1.setFld st 0 16 (d1.cabFree x p - 1)).setOwner b (some owner)
        let sound := d.cabBlocked b = false ∧ bitsOf word 32 32 = 0x46424143 ∧ bitsOf word 16 3 = p ∧ bitsOf word 19 3 = x ∧
          d.cabOwner b = none
        (p < d.cabPools x → n ≤ d.cabSize x p → d.cabHeld x p < d.cabFree x p →
          (∀ k, k < p → d.cabSize x k < n ∨ d.cabFree x k ≤ d.cabHeld x k) →
          (sound → Becomes (.cabinetAlloc x c n owner) d taken) ∧
          (¬ sound → Becomes (.cabinetAlloc x c n owner) d (d.cabFault b 5 c))) ∧
        (d.cabPick x c n = some (p, true) →
          (sound → Becomes (.cabinetAlloc x c n owner) d (taken.setBit (Reg.CAB_CTX_P_RES x p) c false)) ∧
          (¬ sound → Becomes (.cabinetAlloc x c n owner) d (d.cabFault b 5 c)))) ∧
      (d.cabOn x c = true → d.cabPick x c n = none →
        let e := d.cabWait x c n
        Becomes (.cabinetAlloc x c n owner) d { e with cabPend := e.cabPend ++ [⟨x, c, n, owner⟩] }) ∧
      (d.cabOn x c = false →
        (8 ≤ c → c ≤ 10 → Becomes (.cabinetAlloc x c n owner) d (d.cabFault ⟨x, 0, 0⟩ 6 c)) ∧
        (c < 8 ∨ 10 < c → Becomes (.cabinetAlloc x c n owner) d d))) ∧
    (d.loaded x = true → p < d.cabPools x → i < d.fld st 32 15 →
      (d.cabOwner b = some by_ → Becomes (.cabinetHandoff x p i by_ to_) d (d.setOwner b (some to_))) ∧
      (d.cabOwner b = some owner → owner ≠ by_ →
        Becomes (.cabinetHandoff x p i by_ to_) d (d.cabFault b 3 by_) ∧ Becomes (.cabinetRelease x p i by_) d (d.cabFault b 1 by_)) ∧
      (d.cabOwner b = none →
        Becomes (.cabinetHandoff x p i by_ to_) d (d.cabFault b 2 by_) ∧ Becomes (.cabinetRelease x p i by_) d (d.cabFault b 2 by_)) ∧
      (d.cabOwner b = some by_ → d.cabBlocked b = true → Becomes (.cabinetRelease x p i by_) d (d.cabFault b 5 by_)) ∧
      (d.cabOwner b = some by_ → d.cabBlocked b = false →
        let e := (d.write (d.cabAddr b) (leBytes 8 (linkWord (d.fld st 16 16) p x))).setFld st 16 16 i
        Becomes (.cabinetRelease x p i by_) d
          ((((e.setOwner b none).setFld st 0 16 (e.cabFree x p + 1)).cabRefill x p).hcTouch x (d.cabAddr b) 8 false)))

/-- Placement commands (R324 to R329): STAGE and CANCEL are accepted while the device is READY and none runs, with the table copied at
once; one that a check turns away ends with its code and changes no placement; a STAGE that passes waits for its step, is shown in
DRS_CTXx_PLACE_SWAP and extends MR7 with the table; a CANCEL removes what waits. Both raise the context's event.
The model's choices here: log entries 64 and 86. -/
def Obligations.PlacementCommands : Prop :=
  ∀ (d : Dev) (src : Master) (w : Word),
    let r := Reg.BUR_PLACE_CTRL
    let x := fieldOf w 48 3
    (d.refusal src r true = none →
      (d.bit Reg.BUR_STATUS 0 = true → d.bit Reg.BUR_PLACE_STATUS 19 = false →
        let e := d.plainWrite r w
        (fieldOf w 56 2 = 2 → Becomes (.cancel src w) d { e.setBit Reg.BUR_PLACE_STATUS 19 true with
          placeCmd := some { kind := 2, ctx := x, addr := fieldOf w 0 48, step := (e.reg Reg.BUR_PLACE_SWAP).toNat,
                             late := decide ((e.reg Reg.BUR_PLACE_SWAP).toNat ≤ (e.ctx x).step.toNat) } }) ∧
        (fieldOf w 56 2 = 1 → ∀ t f, e.tableCopy (fieldOf w 0 48) = (t, f) →
          Becomes (.stage src w) d { f.setBit Reg.BUR_PLACE_STATUS 19 true with
            placeCmd := some { kind := 1, ctx := x, addr := fieldOf w 0 48, step := (e.reg Reg.BUR_PLACE_SWAP).toNat,
                               late := decide ((e.reg Reg.BUR_PLACE_SWAP).toNat ≤ (e.ctx x).step.toNat), table := t } })) ∧
      (d.bit Reg.BUR_PLACE_STATUS 19 = true →
        Becomes (.stage src w) d (d.logDiscard r) ∧ Becomes (.cancel src w) d (d.logDiscard r))) ∧
    (∀ c code detail, d.placeCmd = some c → d.placeCheck c = (code, detail) →
      let ended := fun (e : Dev) =>
        ({ e.setReg Reg.BUR_PLACE_STATUS (BitVec.ofNat 64 (code % 256 + c.ctx % 8 * 2 ^ 16 + detail % 2 ^ 32 * 2 ^ 32)) with
           placeCmd := none } : Dev).ctxEvent c.ctx
      (code ≠ 0 → Becomes .placeCmdComplete d (ended d)) ∧
      (code = 0 → c.kind = 2 → Becomes .placeCmdComplete d
        (ended (({ d with placePend := mapPut d.placePend c.ctx none } : Dev).setReg (Reg.DRS_CTX_PLACE_SWAP c.ctx) 0))) ∧
      (∀ t, code = 0 → c.kind = 1 → c.table = some t → Becomes .placeCmdComplete d
        (ended ((({ d with placePend := mapPut d.placePend c.ctx (some (c.step, t)) } : Dev).setReg (Reg.DRS_CTX_PLACE_SWAP c.ctx)
          (BitVec.ofNat 64 (c.step % 2 ^ 63 + 2 ^ 63))).mrExtend 7 (sha384 t)))))

/-! ### Tiers and the Chest -/

/-- Tier commands, the prefetch list and eviction (R187, R555 to R557, R563 to R567, R569, R587): CREAD issues like the others and keeps
the ranges it writes; a command holds a tracker of the hub-engine reserve for its transfers, and none begins before an earlier one of its
cluster whose body check fails; one that is done writes its status word, leaves its queue and applies its completion operation, one that
waits stays, one that faults freezes its context; ADVANCE raises LAYER and never lowers it; list entries start in order, four at a time;
the ageing sweep and the end of an eviction free frames once dirty pages are home, but not those of a frozen context.
Each end of work holds for all words that it may lose to merged writes (R510), and with none named it loses none.
The model's choices here: log entries 31, 65, 72, 115, 122 and 125. -/
def Obligations.TierCommands : Prop :=
  ∀ (d : Dev),
    (∀ a : Slot, d.descReady a 0x38 = true → tierOp (d.descBytes a) = 5 →
      Becomes (.cread a) d ((d.issuedBy a fun e => { e with descs := e.descs ++ [d.descOf a 0x38 none] }).noteOuts a.cl)) ∧
    (∀ c k e q lost, d.tierDesc c k = some q →
      let loses := fun (f : Dev) => f.endLosing d (decide (d.descs.length ≤ f.descs.length)) 4 c q.outs lost
      (∀ p o, d.tierEarlier c k = some (p, o) → Becomes (.tierCmdComplete ⟨c, lost⟩ k e) d (loses (d.tierFault p.ctx c false 1 o 0))) ∧
      (d.tierEarlier c k = none → d.freeHubTrk = none → Becomes (.tierCmdComplete ⟨c, lost⟩ k e) d d) ∧
      (∀ t, d.tierEarlier c k = none → d.freeHubTrk = some t →
        let d1 := d.takeTrk t (hubTracker d q.ctx q.pc 5)
        (∀ f s, d1.tierRun q e = .done f s → atLe q.bytes 0x14 4 = 0xFFFFFFFF →
          Becomes (.tierCmdComplete ⟨c, lost⟩ k e) d (loses ((({ f with descs := f.descs.erase q } : Dev).descDone q 3).noteHeld.freeTrkEntry t))) ∧
        (∀ f s, d1.tierRun q e = .done f s → atLe q.bytes 0x14 4 ≠ 0xFFFFFFFF →
          f.localCheck q.ctx q.cl (atLe q.bytes 0x14 4) 4 2 = 0 →
          let g := f.write (spadAddr q.cl (atLe q.bytes 0x14 4)) (leBytes 4 s)
          Becomes (.tierCmdComplete ⟨c, lost⟩ k e) d (loses ((({ g with descs := g.descs.erase q } : Dev).descDone q 3).noteHeld.freeTrkEntry t))) ∧
        (∀ f, d1.tierRun q e = .hold f → Becomes (.tierCmdComplete ⟨c, lost⟩ k e) d (loses (f.noteHeld.freeTrkEntry t))) ∧
        (∀ f code detail tr, d1.tierRun q e = .fault f code detail tr →
          Becomes (.tierCmdComplete ⟨c, lost⟩ k e) d (loses ((f.tierFault q.ctx q.cl false code detail tr).noteHeld.freeTrkEntry t)))) ∧
      (tierBody q.bytes = none → tierOp q.bytes = 4 → d.hint q.ctx = true →
        let l := max (d.pref q.ctx).layer (atLe q.bytes 0x34 4)
        d.tierRun q e = .done ((d.setPref q.ctx { d.pref q.ctx with layer := l }).setFld (Reg.TIER_CTX_STATE q.ctx) 8 24 (l % 2 ^ 24)) 0)) ∧
    (∀ x, d.inStep x = true → d.prefNext x = true → (d.pref x).busy.length < 4 →
      Becomes (.prefetchEntryStart x) d
        (d.setPref x { d.pref x with next := (d.pref x).next + 1, busy := (d.pref x).busy ++ [(d.pref x).next] })) ∧
    (∀ x k i q e, (d.pref x).busy[k]? = some i → (planPrefetch (d.ctx x).plan)[i]? = some q →
      (d.freeHubTrk = none → Becomes (.prefetchEntryComplete x k e) d d) ∧
      ∀ t, d.freeHubTrk = some t →
        let d1 := d.takeTrk t (hubTracker d x 0 5)
        (∀ f s, d1.stage x q.obj q.tier e = .done f s →
          let g := (f.setPref x { f.pref x with busy := (f.pref x).busy.eraseIdx k }).noteHeld
          Becomes (.prefetchEntryComplete x k e) d
            ((if q.signal && g.owns x q.sync then g.syncAdd q.sync 1 else g).freeTrkEntry t)) ∧
        (∀ f, d1.stage x q.obj q.tier e = .hold f → Becomes (.prefetchEntryComplete x k e) d (f.noteHeld.freeTrkEntry t)) ∧
        (∀ f code detail tr, d1.stage x q.obj q.tier e = .fault f code detail tr →
          Becomes (.prefetchEntryComplete x k e) d ((f.tierFault x 0 true code detail tr).noteHeld.freeTrkEntry t))) ∧
    ∀ x obj pool e, d.anyEnt x obj pool = some e →
      (d.loaded x = true → d.evictable e = true → secAt (d.ctx x).plan 11 2 2 ≠ 0 → secAt (d.ctx x).plan 11 2 2 ≤ e.age →
        (e.dirty = [] → Becomes (.ageingEvict x obj pool) d (d.dropEnt e.ctx e.obj e.pool).noteHeld) ∧
        (e.dirty ≠ [] → Becomes (.ageingEvict x obj pool) d
          (d.modEnt e.ctx e.obj e.pool fun k => { k with evicting := true }).noteHeld)) ∧
      (e.age < secAt (d.ctx x).plan 11 2 2 → Becomes (.ageingEvict x obj pool) d d) ∧
      ((d.ctx x).state = .frozen → Becomes (.ageingEvict x obj pool) d d ∧ Becomes (.evictionWritebackDone x obj pool) d d) ∧
      (e.evicting = true → (d.ctx x).state ≠ .frozen →
        (d.freeHubTrk = none → Becomes (.evictionWritebackDone x obj pool) d d) ∧
        ∀ t, d.freeHubTrk = some t →
          let d1 := d.takeTrk t (hubTracker d x 0 5)
          (d1.dirtyPoison e = none →
            Becomes (.evictionWritebackDone x obj pool) d (((d1.writeBack e).dropEnt x obj pool).noteHeld.freeTrkEntry t)) ∧
          (∀ a, d1.dirtyPoison e = some a →
            Becomes (.evictionWritebackDone x obj pool) d ((d1.tierFault x 0 false 7 (a % 2 ^ 32) 0).freeTrkEntry t)))

/-- The Chest (R573, R576 to R578, R583 to R585, R881): namespace commands are accepted one at a time and end with their code, performed
where it is 0 (a new namespace takes a map range that is free, or the end of the ranges moved together where none is); a mount ends READY,
DEGRADED or WORN; each unit of a CWRITE is programmed at a fresh location in turn, and none once PWR_GOOD has fallen but those in
progress; background work moves blocks past their limits inside its window only.
The model's choices here: log entries 67, 68, 69, 115, 123 and 124. -/
def Obligations.ChestCommands : Prop :=
  ∀ (d : Dev) (src : Master) (w : Word),
    let r := Reg.CHEST_NS_CMD
    (d.refusal src r true = none →
      (d.bit r 20 = false → fieldOf w 8 3 ≠ 0 →
        let e : Dev := { (d.plainWrite r w).setBit r 20 true with nsCmd := some (fieldOf w 8 3) }
        Becomes (.create src w) d e ∧ Becomes (.delete src w) d e ∧ Becomes (.format src w) d e) ∧
      (d.bit r 20 = true →
        Becomes (.create src w) d (d.logDiscard r) ∧ Becomes (.delete src w) d (d.logDiscard r) ∧
        Becomes (.format src w) d (d.logDiscard r))) ∧
    (∀ cmd base, d.nsCmd = some cmd → (cmd = 4 → d.boot.pwrGood = true) →
      let k := d.fld r 0 6
      let cap := d.fld r 24 40
      let code := d.nsCode cmd k cap
      let e : Dev := { (d.setFld r 16 4 code).setBit r 20 false with nsCmd := none }
      (code ≠ 0 → Becomes (.nsCmdComplete base) d e) ∧
      (code = 0 → cmd = 1 →
        let made := fun (f : Dev) (at_ : Nat) =>
          (({ (f.setFld r 16 4 0).setBit r 20 false with nsCmd := none } : Dev)).setNs k
            (some { cap := cap, base := at_, born := d.chest.seq })
        (base + cap ≤ d.chest.usable → (d.chest.ns.any fun m => overlap base cap m.2.base m.2.cap) = false →
          Becomes (.nsCmdComplete base) d (made d base)) ∧
        (d.chest.fits base cap = false →
          (d.chest.hasRoom cap = true → Becomes (.nsCmdComplete base) d d) ∧
          (d.chest.hasRoom cap = false → Becomes (.nsCmdComplete base) d (made d.compact d.chest.caps)))) ∧
      (code = 0 → cmd = 2 → Becomes (.nsCmdComplete base) d ((e.unmapAll k).setNs k none).chestCount) ∧
      (code = 0 → cmd = 4 → Becomes (.nsCmdComplete base) d e.format)) ∧
    (d.tablesWf = true → ∃ e, Becomes .chestMountComplete d e ∧
      (d.fld Reg.CHEST_STATUS 0 3 ≠ 1 → e = d) ∧
      (d.fld Reg.CHEST_STATUS 0 3 = 1 → e.fld Reg.CHEST_STATUS 0 3 = 2 ∨ e.fld Reg.CHEST_STATUS 0 3 = 3 ∨ e.fld Reg.CHEST_STATUS 0 3 = 4)) ∧
    (∀ c k q, d.tierDesc c k = some q → d.tierEarlier c k = none →
      (d.boot.pwrGood = false → d.boot.flight.contains (c, q.ea) = false → ∀ fail, Becomes (.chestUnitProgrammed c k fail) d d) ∧
      (d.boot.pwrGood = true → d.freeHubTrk = none → ∀ fail, Becomes (.chestUnitProgrammed c k fail) d d) ∧
      (∀ t f g bs, d.boot.pwrGood = true → d.freeHubTrk = some t →
        let d1 := d.takeTrk t (hubTracker d q.ctx q.pc 5)
        tierOp q.bytes = 6 → tierBody q.bytes = none → d1.nsBad q.ctx q.bytes = none → d1.chestUp = true →
        q.cfg = [] → q.prog < atLe q.bytes 0x28 8 → d1.nsRo (atLe q.bytes 0x12 1) = false → d1.fld Reg.CHEST_STATUS 8 24 ≠ 0 →
        d1.vread q.ctx (atLe q.bytes 0x18 8 + q.prog) 65536 = .ok bs → d1.tierBuffer q.ctx bs = (true, f) →
        f.chestWrite (atLe q.bytes 0x12 1) ((atLe q.bytes 0x20 8 + q.prog) / 65536) bs = some g →
        Becomes (.chestUnitProgrammed c k false) d ((g.setDesc q { q with prog := q.prog + 65536 }).freeTrkEntry t))) ∧
    (∀ (b : Nat) (fail : Bool),
      (d.chestBg = true → d.fld Reg.CHEST_CFG 0 16 < d.chest.spread.2 - d.chest.spread.1 → d.chest.coldest = some b →
        Becomes (.wearLevel fail) d (d.moveAndErase b fail)) ∧
      (d.chestBg = true → d.fld Reg.CHEST_CFG 32 24 ≤ (d.chest.blk b).reads →
        Becomes (.readDisturbRelocate b fail) d (d.moveAndErase b fail)) ∧
      (d.chestBg = false → Becomes (.wearLevel fail) d d ∧ Becomes (.readDisturbRelocate b fail) d d ∧ Becomes .mapCheckpoint d d) ∧
      (d.chestBg = true → 4194304 ≤ d.chest.unsaved →
        ∃ e, Becomes .mapCheckpoint d e ∧ e.chest.unsaved = 0 ∧ e.chest.units = d.chest.units ∧ e.chest.blks = d.chest.blks ∧
          e.mem = d.mem ∧ e.csr = d.csr))

/-! ### Checkpoints -/

/-- The checkpoint engine (R775 to R791, R810): ckp.snap of a context without a snapshot leaves one PENDING; each copied unit goes from
the protected units, one copied before its turn into a shared buffer of client 10, and a poisoned one ends the snapshot; an acknowledged
manifest makes it DONE with its digest; a restore starts for a LOADED context and ends with its code; a journal record leaves for its
target from JHEAD.
The model's choices here: log entries 72, 73, 74 and 115. -/
def Obligations.CheckpointCommands : Prop :=
  ∀ (d : Dev),
    (∀ (a : Slot) (ss : List Shard), d.descReady a 0x3C = true → (d.descs.all fun q => q.kind != 0x3C) = true →
      let q := d.descOf a 0x3C none
      let e := d.issuedBy a id
      let r := Reg.CKP_CTX_STATUS q.ctx
      ckpBody q.bytes = none → e.cabOn q.ctx 10 = true → mapFind d.snaps q.ctx = none → e.snapShards q.ctx q.bytes = .ok ss →
      Becomes (.ckpSnap a) d { (e.setFld r 8 4 0).setFld r 0 3 1 with
        snaps := mapPut d.snaps q.ctx (some { cl := q.cl, body := q.bytes, shards := ss }) }) ∧
    (∀ x u s bad, mapFind d.snaps x = some s → mapFind s.units u = some bad → s.phase = 2 →
      (∀ bs f, bad = false → d.earlyBuf x u s = (some bs, f) → Becomes (.cowCopyComplete x u .clean) d (Dev.dropEarly (Dev.snapSend x s.msgs.length
        (((f.hcTouch x (u * 262144) 262144 false).setSnap x { s with units := mapPut s.units u none, early := s.early ++ bs }).addFld
          (Reg.CKP_CTX_STATUS x) 32 32 1)) x)) ∧
      (∀ f, bad = false → d.earlyBuf x u s = (none, f) → Becomes (.cowCopyComplete x u .clean) d f) ∧
      (∀ m, s.msgs[s.sent]? = some m → u ∈ s.draws m → d.earlyBuf x u s = (some [], d)) ∧
      (bad = true → Becomes (.cowCopyComplete x u .clean) d (d.snapAbort x 5))) ∧
    (∀ x s m, mapFind d.snaps x = some s → s.man = some m → s.manAcked = true →
      let dig := (m.drop (m.length - 64)).take 32
      let e := (upFrom 0 4).foldl (fun e k => e.setReg (Reg.CKP_CTX_DIGEST x k) (BitVec.ofNat 64 (atLe dig (8 * k) 8))) d
      Becomes (.snapshotDone x) d { (e.setFld (Reg.CKP_CTX_STATUS x) 0 3 3).setFld (Reg.CKP_CTX_STATUS x) 8 4 0 with
        snaps := mapPut e.snaps x none }) ∧
    (∀ (src : Master) (w : Word), d.refusal src Reg.CKP_RESTORE_CTRL true = none → d.bit Reg.BUR_STATUS 0 = true → bitOf w 12 = true →
      let x := fieldOf w 0 3
      let r : Restore := { ctx := x, tgt := fieldOf w 8 4, off := fieldOf w 16 48 * 4096 }
      let e : Dev := { (d.plainWrite Reg.CKP_RESTORE_CTRL w).setBit Reg.CKP_RESTORE_STATUS 8 true with restore := some r }
      (d.bit Reg.CKP_RESTORE_STATUS 8 = false →
        ((d.ctx x).state = .loaded → Becomes (.restoreGo src w) d (e.restoreRead r r.off 64)) ∧
        ((d.ctx x).state ≠ .loaded → Becomes (.restoreGo src w) d (e.restoreOut r 1 0))) ∧
      (d.bit Reg.CKP_RESTORE_STATUS 8 = true → Becomes (.restoreGo src w) d (d.logDiscard Reg.CKP_RESTORE_CTRL))) ∧
    (∀ r code detail, d.restore = some r → r.out = some (code, detail) → code ≠ 0 → code ≠ 2 → code ≠ 6 →
      Becomes .restoreComplete d
        (({ d.setReg Reg.CKP_RESTORE_STATUS (BitVec.ofNat 64 (code + detail % 2 ^ 32 * 2 ^ 32)) with restore := none } : Dev).ctxEvent r.ctx)) ∧
    (∀ r, d.restore = some r → r.out = some (0, 0) → bitsOf (atLe r.man 6 1) 0 1 = 0 →
      Becomes .restoreComplete d (({ d.setReg Reg.CKP_RESTORE_STATUS 0 with restore := none } : Dev).ctxEvent r.ctx)) ∧
    ∀ x t e f h rec, x < 8 →
      let head := (d.reg (Reg.FPU_CTX_JHEAD x)).toNat
      let cap := atLe (d.tgt t) 0x30 8
      ((upFrom 0 16).find? fun t => netFor (d.tgt t) x && bitsOf (atLe (d.tgt t) 0 1) 3 1 == 1) = some t →
      d.bit (Reg.FPU_CTX_JCFG x) 16 = true → head < (d.reg (Reg.FPU_CTX_JTAIL x)).toNat → d.fld (Reg.FPU_CTX_JSIZE x) 0 40 ≠ 0 →
      (d.qps.any fun e => e.2.msgs.any fun m => m.kind == 2 && m.ctx == x) = false →
      ((upFrom 0 8).any fun n => d.windowOpen 0 n) = true → cap ≠ 0 → d.ringRead x head 64 = (h, e) →
      e.ringRead x head (atLe h 8 4) = (rec, f) → head % cap + atLe h 8 4 ≤ cap → rec.length = atLe h 8 4 →
      ∀ g, f.netSend t 2 x (head % cap) rec (atLe h 8 4) = some g → Becomes (.journalExport x) d g

/-! ### Ports and the router -/

/-- The link layer of a port (R593 to R601, R771): a superframe leaves with its SEQ, the last accepted SEQ, NAK and whole units of the
stream, and stays in the replay buffer; a received one with an uncorrectable codeword is answered by a NAK; the next one in sequence is
accepted, releases what it acknowledges, returns credit, and with NAK makes the rest leave again unchanged, at the eighth time with the
port in HOLD; another is ignored; a port retrains in HOLD with its peer and resumes as it was from the last acknowledged superframe; a
lane pair that either end removes is removed at both, the first degrades the port and a second fails it; a bench port that fails waits
for a swing, any other goes DOWN; a trained port comes UP unless its round trip or its protocol forbids it.
The model's choices here: log entries 1, 27 and 128. -/
def Obligations.LinkLayer : Prop :=
  ∀ (d : Dev) (n j lw : Nat), n < 32 → j < 4 →
    let st := d.portState n
    let l := d.link n
    let up := st = 2 ∨ st = 4
    let inHold := fun (e : Dev) => (e.setLink n { e.link n with admitted := st == 4, since := d.time.toNat }).setPort n 3
    let status := Reg.FAB_P_STATUS n
    let limit := d.fld Reg.FAB_TIMEOUT (if n < 16 then 32 else 48) 16 * 1600
    (l.replay.length < 512 → ∃ w us, (d.sendFrame n).out = d.out ++ [.superframe n w us] ∧ bitsOf w 0 12 = l.txSeq % 4096 ∧
      bitsOf w 12 12 = l.rxSeq % 4096 ∧ bitsOf w 24 1 = l.nakDue.toNat ∧ ((d.sendFrame n).link n).txSeq = (l.txSeq + 1) % 4096 ∧
      ((d.sendFrame n).link n).replay.length = l.replay.length + 1) ∧
    (512 ≤ l.replay.length → d.sendFrame n = d) ∧
    (l.waiting < 160 → d.pump n = d) ∧ (160 ≤ l.waiting → l.waiting < 320 → d.pump n = d.sendFrame n) ∧
    (d.resend n).out = d.out ++ l.replay.map (fun f => Out.superframe n f.lw f.units) ∧
    (up → Becomes (.superframeReceive n lw true false) d
      ((((d.addFld (Reg.FAB_P_FEC n) 32 32 1).addFld (Reg.FAB_P_RETRY n) 0 32 1).setLink n
        { l with awaiting := true, nakDue := true }).sendFrame n)) ∧
    (up → bitsOf lw 0 12 = (l.rxSeq + 1) % 4096 →
      let rep := ackReplay (bitsOf lw 12 12) l.replay
      let some_ := if rep.length < l.replay.length then 0 else l.resent
      let credited := fun (e : Dev) => (e.creditBack n (bitsOf lw 33 5) (bitsOf lw 38 10)).creditBack n (bitsOf lw 48 5) (bitsOf lw 53 10)
      let after := fun (r : Nat) => d.setLink n { l with rxSeq := bitsOf lw 0 12, awaiting := false, replay := rep, resent := r }
      (bitsOf lw 24 1 = 0 → some_ < 8 → Becomes (.superframeReceive n lw false false) d ((credited (after some_)).pump n)) ∧
      (bitsOf lw 24 1 = 1 → rep ≠ [] → some_ < 7 →
        Becomes (.superframeReceive n lw false false) d ((credited ((after (some_ + 1)).resend n)).pump n)) ∧
      (bitsOf lw 24 1 = 1 → rep ≠ [] → some_ = 7 →
        Becomes (.superframeReceive n lw false false) d (inHold ((credited ((after 8).resend n)).linkCmd n 1 0) |>.pump n))) ∧
    (up → bitsOf lw 0 12 ≠ (l.rxSeq + 1) % 4096 → Becomes (.superframeReceive n lw false false) d d) ∧
    (up → Becomes (.retrain n) d (inHold d) ∧ Becomes (.receiverLossOfLock n) d (inHold (d.linkCmd n 1 0))) ∧
    (st = 3 →
      (d.time.toNat ≤ l.since + limit → Becomes (.laneRetrainDone n) d
        (((d.setLink n { l with resent := 0, awaiting := false, nakDue := false }).setPort n
          (if l.admitted && !d.bit Reg.AON_RAS_STATUS 19 then 4 else 2)).resend n)) ∧
      (l.since + limit < d.time.toNat → Becomes (.laneRetrainDone n) d d)) ∧
    (let e := d.linkCmd n 2 j
     let removed := if d.fld status 4 4 = 0 then ((e.setBit status (4 + j) true).rasSet (24 + n)).resume n
       else (e.setBit status (4 + j) true).portFail n
     (up ∨ st = 3 → d.bit status (4 + j) = false → Becomes (.dropPair n j) d removed) ∧
     (up ∨ st = 3 → d.bit status (4 + j) = true → Becomes (.dropPair n j) d d) ∧
     (st = 3 → d.bit status (4 + j) = false → Becomes (.laneRetrainFail n j) d removed)) ∧
    (st = 3 → l.since + limit ≤ d.time.toNat →
      (n < 15 → d.bit Reg.FAB_SWING 12 = false → Becomes (.holdTimeout n) d
        ((d.setLink n { l with admitted := false, since := d.time.toNat }).setPort n 5)) ∧
      (16 ≤ n → Becomes (.holdTimeout n) d (d.portDown n))) ∧
    (st = 5 → d.swingNow ≠ some n → l.since + d.fld Reg.FAB_TIMEOUT 0 16 * 1600 ≤ d.time.toNat →
      Becomes (.swingWaitTimeout n) d (d.portDown n)) ∧
    (d.portEnabled n = true → st ≤ 1 →
      (∀ ns minor, ns ≤ 5000 → Becomes (.portTrainingDone n ns 1 minor) d
        ((({ d.setFld (Reg.BUR_PROTO_MINOR (n / 8)) (8 * (n % 8)) 8 (min minor 0) with links := mapPut d.links n none } : Dev).setFld
          status 4 4 0).setPort n 2)) ∧
      (∀ ns minor, 5000 < ns → Becomes (.portTrainingDone n ns 1 minor) d d) ∧
      (∀ ns major minor, major ≠ 1 →
        Becomes (.portTrainingDone n ns major minor) d (d.log 9 3 8 none n (d.fld (Reg.FAB_P_PEER n) 0 16)))) ∧
    (d.tablesWf = true → d.disc = none → st ≠ 0 → (d.portDown n).portState n = 0)

/-- Swing and discovery (R601 to R603, R647 to R651, R658): GO for a bench port that is DOWN or waits moves what stands at the port, its link
state among it, to port 15 and tells the peer there; port 15 serves in its place when the swing completes, and sends again from the last
acknowledged superframe; RELEASE takes port 15 back once the replaced port is UP; an epoch sends DISC on every port that is UP, records
each answer, and ends when all have answered (at once, with no port UP) or after 100 µs.
The model's choices here: log entry 21. -/
def Obligations.SwingAndDiscovery : Prop :=
  ∀ (d : Dev) (src : Master) (w : Word) (p : Nat),
    (d.refusal src Reg.FAB_SWING true = none → fieldOf (w ||| 0x10) 0 4 = p →
      (d.bit Reg.FAB_SWING 12 = false → d.swingNow = none → p ≤ 14 → d.portState p = 5 ∨ d.portState p = 0 →
        Becomes (.swingGo src w) d
          ((({ d.plainWrite Reg.FAB_SWING (w ||| 0x10) with swingNow := some p } : Dev).swingState p).linkCmd 15 3 p)) ∧
      (d.bit Reg.FAB_SWING 12 = true → Becomes (.swingGo src w) d (d.logDiscard Reg.FAB_SWING))) ∧
    ((d.swingState p).rtr = d.rtr.map (fun q => { q with
        outp := if q.outp = some p then some 15 else q.outp, port := if q.port = some p then some 15 else q.port }) ∧
      (d.swingState p).csr = d.csr ∧
      (d.portState p = 5 → (d.link p).replay ≠ [] → (d.swingState p).link 15 = { d.link p with swing := false })) ∧
    (d.swingNow = some p →
      (∀ arg, arg + p = 14 → Becomes (.swing arg) d (d.setLink 15 { d.link 15 with swing := true })) ∧
      (∀ arg, arg + p ≠ 14 → Becomes (.swing arg) d d) ∧
      ((d.link 15).swing = false → Becomes .swingComplete d d)) ∧
    (d.swingNow = some p → (d.link 15).swing = true →
      let e := ((({ d with swingNow := none } : Dev).setFld Reg.FAB_SWING 8 4 p).setBit Reg.FAB_SWING 12 true).rasSet 16
      let f := (e.setLink 15 { e.link 15 with swing := false }).setPort 15 (if d.fenced then 2 else 4)
      Becomes .swingComplete d (((f.setPort p 0).log 9 2 8 none p (f.fld (Reg.FAB_P_PEER p) 0 16)).resend 15)) ∧
    (d.refusal src Reg.FAB_SWING true = none →
      let q := d.fld Reg.FAB_SWING 8 4
      (d.bit Reg.FAB_SWING 12 = true → d.portState q = 2 ∨ d.portState q = 4 →
        let e := d.plainWrite Reg.FAB_SWING ((w ||| 0x20) &&& ~~~ 0x10)
        let f := (e.setBit Reg.FAB_SWING 12 false).setBit Reg.AON_RAS_STATUS 16 false
        Becomes (.swingRelease src w) d
          (({ f with rtr := f.rtr.map fun q => if q.outp = some 15 then q.unroute else q } : Dev).unadmit 15)) ∧
      (d.bit Reg.FAB_SWING 12 = false ∨ (d.portState q ≠ 2 ∧ d.portState q ≠ 4) →
        Becomes (.swingRelease src w) d (d.logDiscard Reg.FAB_SWING))) ∧
    (d.refusal src Reg.FAB_DISC_CTRL true = none →
      (d.disc = none → d.upPorts ≠ [] → ∃ e, Becomes (.discStart src w) d e ∧
        e.disc = some { epoch := fieldOf (w ||| 0x100000000) 0 32, ports := d.upPorts, since := d.time.toNat } ∧
        e.rtr.length = d.rtr.length + d.upPorts.length) ∧
      (d.disc = none → d.upPorts = [] → d.tablesWf = true → ∃ e, Becomes (.discStart src w) d e ∧ e.disc = none ∧
        e.fld Reg.FAB_DISC_STATUS 0 2 = 2 ∧ e.rtr = d.rtr) ∧
      (∀ k, d.disc = some k → Becomes (.discStart src w) d (d.logDiscard Reg.FAB_DISC_CTRL))) ∧
    ∀ k, d.disc = some k →
      (∀ q : Packet, d.takesAt q 0x19 = true → (d.held q).bad = false → q.vc = 0 → (d.held q).hdr.vc = 0 →
        let f := d.freeRegion (d.held q)
        let pay := (d.held q).pay
        let got := k.got ++ [(q.port, atLe pay 0 2, atLe pay 2 1)]
        (atLe pay 4 4 = k.epoch → k.ports.contains q.port = true → (k.got.any fun g => g.1 == q.port) = false →
          (got.length ≠ k.ports.length → Becomes (.disc q) d { f with disc := some { k with got := got } }) ∧
          (got.length = k.ports.length → Becomes (.disc q) d (f.discEnd { k with got := got }))) ∧
        (atLe pay 4 4 ≠ k.epoch → Becomes (.disc q) d f)) ∧
      (k.since + 160000 ≤ d.time.toNat → Becomes .discTimeout d (d.discEnd k)) ∧
      (d.time.toNat < k.since + 160000 → Becomes .discTimeout d d) ∧
      (d.discEnd k).disc = none

/-- The router (R611 to R619, R623, R625, R641, R642): a packet for this device is delivered; one that no port of a route leads on is
discarded and counted; one without credit waits; one that is routed takes its output, or is merged into one that waits there; it leaves
from there when the port takes it and has credit, unless a packet of a higher strict priority waits or the round robin serves another VC:
its credit is taken and its units join the stream of the port; one whose key the port does not pass is discarded; the input region it
came into is free; a combining entry ends after its time; a parked packet is performed.
The model's choices here: log entries 14, 22 and 128. -/
def Obligations.PacketForwarding : Prop :=
  ∀ (d : Dev) (k far : Nat) (p : RPkt),
    let gone : Dev := ({ d with rtr := d.rtr.eraseIdx k } : Dev).freeRegion p
    (d.rtr[k]? = some p → p.outp = none → p.hdr.ty ≠ 0x19 → p.hdr.ty ≠ 0x1A → p.hdr.rmode ≤ 1 →
      (p.hdr.dst = d.node → Becomes (.packetForward k far) d (gone.deliverHere { p with inReg := false })) ∧
      (∀ f, d.route p far = .drop f → Becomes (.packetForward k far) d (gone.addFld Reg.FAB_DROP (16 * f) 16 1)) ∧
      (d.route p far = .wait → Becomes (.packetForward k far) d d) ∧
      (∀ n h, d.route p far = .out n h →
        let merged := ({ d with rtr := d.rtr.eraseIdx k } : Dev).tryCombine n { p with hdr := h }
        (merged = none → Becomes (.packetForward k far) d { d with
          rtr := d.rtr.set k { p with hdr := h, outp := some n, was := some (p.hdr.esc, p.hdr.sub, p.hdr.hops) } }) ∧
        (∀ e, merged = some e → Becomes (.packetForward k far) d (e.freeRegion p)))) ∧
    (∀ n, d.rtr[k]? = some p → p.outp = some n →
      (d.portTakes n p.hdr = false →
        (d.portState n = 3 ∨ d.portState n = 5 → Becomes (.packetForward k far) d d) ∧
        (d.portState n ≠ 3 → d.portState n ≠ 5 → Becomes (.packetForward k far) d { d with rtr := d.rtr.set k p.unroute })) ∧
      (d.portTakes n p.hdr = true →
        (d.pkeyOk n p.hdr = false → Becomes (.packetForward k far) d (gone.addFld Reg.FAB_DROP 0 16 1)) ∧
        (d.pkeyOk n p.hdr = true →
          (d.hasCredit n p.hdr = false ∨ d.outranked n p.hdr.vc = true ∨ 160 ≤ (d.link n).waiting →
            Becomes (.packetForward k far) d d) ∧
          (d.hasCredit n p.hdr = true → d.outranked n p.hdr.vc = false → (d.link n).waiting < 160 →
            let leaves := fun (m : SMap Nat) =>
              ((({ gone with drr := m } : Dev).setCredit n p.hdr.vc p.hdr.region (d.creditOf n p.hdr.vc p.hdr.region - p.hdr.wire)).setLink n
                { d.link n with stream := (d.link n).stream ++ [(false, p.bytes)] }).pump n
            (p.hdr.vc < 2 → Becomes (.packetForward k far) d (leaves d.drr)) ∧
            (2 ≤ p.hdr.vc → d.drrServe n p = none → Becomes (.packetForward k far) d d) ∧
            (∀ m, 2 ≤ p.hdr.vc → d.drrServe n p = some m → Becomes (.packetForward k far) d (leaves m)))))) ∧
    (∀ c, mapFind d.combine k = some c →
      (c.since + d.deadTime c.far ≤ d.time.toNat → Becomes (.combineEntryTimeout k) d { d with combine := mapPut d.combine k none }) ∧
      (d.time.toNat < c.since + d.deadTime c.far → Becomes (.combineEntryTimeout k) d d)) ∧
    (∀ q, d.parked[k]? = some q → q.buf = none →
      Becomes (.parkedPacketPerform k) d
        ((({ d with parked := d.parked.eraseIdx k } : Dev).freeRegion q.pkt).deliverHere { q.pkt with inReg := false }))

/-- Where a packet of a device's own bench and of another goes (R615, R617, R618): inside the bench the port to its position; toward another
bench, with ESC set, the escape port of the route and no other, a span port adding one hop.
The model's choices here: log entry 14. -/
def Obligations.RoutesFollowTheTables : Prop :=
  ∀ (d : Dev) (p : RPkt) (far : Nat), p.hdr.dst ≠ d.node → d.swung = false →
    (benchOf p.hdr.dst = benchOf d.node → p.hdr.esc = 0 →
      let n := (p.hdr.dst % 16 + 16 - d.node % 16 + 15) % 16
      d.admitted n = true →
      (d.pkeyOk n p.hdr = false → d.route p far = .drop 0) ∧
      (d.pkeyOk n p.hdr = true → d.hasCredit n p.hdr = true → d.route p far = .out n p.hdr) ∧
      (d.pkeyOk n p.hdr = true → d.hasCredit n p.hdr = false → d.route p far = .wait)) ∧
    (benchOf p.hdr.dst ≠ benchOf d.node → p.hdr.esc = 1 → d.bit (Reg.FAB_ROUTE (benchOf p.hdr.dst)) 37 = true →
      let n := d.fld (Reg.FAB_ROUTE (benchOf p.hdr.dst)) 32 5
      16 ≤ n → d.admitted n = true →
      (p.hdr.hops = 31 → d.route p far = .drop 1) ∧
      (p.hdr.hops < 31 →
        let h := { p.hdr with hops := p.hdr.hops + 1, sub := if d.bit (Reg.FAB_P_CFG n) 1 then 1 else p.hdr.sub }
        (d.pkeyOk n h = true → d.hasCredit n h = true → d.route p far = .out n h) ∧
        (d.pkeyOk n h = true → d.hasCredit n h = false → d.route p far = .wait)))

/-! ### Packets at their destination -/

/-- Inbound requests (R612, R626, R628, R630, R634, R636): a request that a check turns away is answered by a NACK with the first code that
applies and changes nothing at its target; one that passes is performed with its sync operation and answered by an ACK, or by its data.
Either way it has left the input region it came into. While a stream is marked, every request of its job is refused with FROZEN.
The model's choices here: log entries 24, 26 and 112. -/
def Obligations.InboundRequests : Prop :=
  ∀ (d : Dev) (p : Packet),
    let q := { d.held p with inReg := false }
    let f := d.freeRegion (d.held p)
    let h := q.hdr
    let refused := fun (c : Instr) (ty : Nat) => d.takesHere p ty = true → ∀ code, f.inCheck q p.vc = .error code →
      Becomes c d ((f.refuse h code).inject ((f.refuse h code).respHdr h 0xB 0 code) [] false)
    refused (.write p) 1 ∧ refused (.writeShort p) 2 ∧ refused (.read p) 3 ∧ refused (.amo p) 4 ∧ refused (.amoFetch p) 5 ∧
    (∀ x ps, f.inCheck q p.vc = .ok (x, ps) →
      let ends := fun (e : Dev) => e.syncOp x h.sop h.sync h.sval h.len
      let acks := fun (e : Dev) => e.inject (f.respHdr h 8 0 0) [] false
      (d.takesHere p 1 = true → Becomes (.write p) d (acks (ends (f.storeLosing q.lost x ps q.pay)))) ∧
      (d.takesHere p 2 = true → Becomes (.writeShort p) d (acks (ends (f.storeLosing q.lost x ps (q.pay.take 8))))) ∧
      (d.takesHere p 3 = true →
        let g := f.hcPieces x ps true
        Becomes (.read p) d ((ends g).inject (g.respHdr h 9 h.len 0) (g.readPieces ps) (g.piecesPoisoned ps))) ∧
      (d.takesHere p 4 = true →
        let e := ends (f.amoApply x h.aop h.asz ps q.pay).2
        Becomes (.amo p) d (e.inject (e.respHdr h 8 0 0) [] false)) ∧
      (d.takesHere p 5 = true →
        let r := f.amoApply x h.aop h.asz ps q.pay
        Becomes (.amoFetch p) d ((ends r.2).inject ((ends r.2).respHdr h 0xA 1 0) (leBytes 16 r.1) false))) ∧
    (q.bad = true → f.inCheck q p.vc = .error 1) ∧
    (q.bad = false → typeOk h p.vc = true →
      (f.ctxOfJob h.job = none → f.inCheck q p.vc = .error 3) ∧
      ∀ x, f.ctxOfJob h.job = some x →
        (f.bit (Reg.FAB_CTX_ID x) 32 = true → f.inCheck q p.vc = .error 5) ∧
        (f.bit (Reg.FAB_CTX_ID x) 32 = false →
          ((f.ctx x).state = .loaded ∨ (f.ctx x).state = .closing ∨ (f.ctx x).state = .stopped ∨ (f.ctx x).state = .done ∨
            (f.ctx x).state = .frozen → f.inCheck q p.vc = .error 4) ∧
          ((f.ctx x).state = .running → f.fld (Reg.FAB_CTX_ID x) 16 16 ≠ h.pkey → f.inCheck q p.vc = .error 6)))

/-- Inbound answers and chunks (R127, R129, R612, R626, R627, R653 to R655, R684): an answer that names no transfer in flight, or a
generation that has passed, is counted in FAB_LATE and discarded; so is one whose master has faulted and one that its transfer does not
await; where the timeout of the transfer is due, the timeout wins; an ACK ends its transfer; a NACK faults its master; data is written
with its sync operation. A chunk that passes the checks is staged and answered by an ACK, and one that does not by a NACK.
The model's choices here: log entries 19, 31 and 102. -/
def Obligations.InboundAnswers : Prop :=
  ∀ (d : Dev) (p : Packet),
    let q := { d.held p with inReg := false }
    let f := d.freeRegion (d.held p)
    let h := q.hdr
    let late := f.addFld Reg.FAB_LATE 0 64 1
    let all := fun (e : Dev) =>
      (d.takesHere p 8 = true → Becomes (.ack p) d e) ∧ (d.takesHere p 9 = true → Becomes (.readResp p) d e) ∧
      (d.takesHere p 0xA = true → Becomes (.amoResp p) d e) ∧ (d.takesHere p 0xB = true → Becomes (.nack p) d e)
    (q.bad = false → vcLegal h.ty p.vc = true → h.proxy = 0 →
      (f.trkOf h.seq = none → all late) ∧
      ∀ k, f.trkOf h.seq = some k →
        let t := f.trk k
        (f.trkDue k = true → all (f.trkTimeout k)) ∧
        (f.trkDue k = false → f.masterFaulted t = true → all late) ∧
        (f.trkDue k = false → f.masterFaulted t = false →
          (d.takesHere p 8 = true →
            (t.rd = false → t.fetches = false → Becomes (.ack p) d (f.setTrk k { t with state := 3 })) ∧
            (t.rd = true ∨ t.fetches = true → Becomes (.ack p) d late)) ∧
          (d.takesHere p 0xB = true → Becomes (.nack p) d (f.failTrk k 0x53 (h.sval % 256 + h.src * 2 ^ 16) 0)) ∧
          (d.takesHere p 9 = true → t.rd = false → Becomes (.readResp p) d late) ∧
          (d.takesHere p 0xA = true → t.fetches = false → Becomes (.amoResp p) d late) ∧
          (∀ ps, f.translate t.ctx .w t.dva q.pay.length = .ok ps → q.poison = false → f.syncRefused t.ctx t.rop t.robj = false →
            let e := ((f.storeLosing q.lost t.ctx ps q.pay).syncOp t.ctx t.rop t.robj t.rval t.length).setTrk k { t with state := 3 }
            (d.takesHere p 9 = true → t.rd = true → Becomes (.readResp p) d e) ∧
            (d.takesHere p 0xA = true → t.fetches = true → Becomes (.amoResp p) d e)))) ∧
    (let head := f.inHead q p.vc
     let nacks := fun (code : Nat) => (f.refuse h code).inject ((f.refuse h code).respHdr h 0xB 0 code) [] false
     let both := fun (e : Dev) => (d.takesHere p 0x10 = true → Becomes (.coll p) d e) ∧ (d.takesHere p 0x11 = true → Becomes (.collLl p) d e)
     let keep := fun (x : Nat) (e : Dev) (b : Option Buf) =>
       let g : Dev := { e with staged := e.staged ++ [{ ctx := x, hdr := h, pay := q.pay, poison := q.poison, buf := b }] }
       g.inject (g.respHdr h 8 0 0) [] false
     (∀ code, head = .error code → both (nacks code)) ∧
     (∀ x, head = .ok x → f.ctagBad x h = true → both (nacks 0xC)) ∧
     (∀ x, head = .ok x → f.ctagBad x h = false →
       (q.pay = [] ∨ f.cabOn x p.vc = false → both (keep x f none)) ∧
       (q.pay ≠ [] → f.cabOn x p.vc = true →
         (∀ b e, f.cabAlloc x p.vc q.pay.length p.vc = (some b, e) → both (keep x (e.cabFill b q.pay) (some b))) ∧
         (∀ e, f.cabAlloc x p.vc q.pay.length p.vc = (none, e) →
           both { e with parked := e.parked ++ [{ buf := none, pkt := q }] }))))

/-- The bytes of a packet say everything of it (R604, R605, R608): a header with every field in its width is read back from its 32 bytes,
and a packet that leaves a port arrives at its peer with its header, payload and poison mark, bad exactly when it was sent bad, with what
its CRC is wrong by. -/
def Obligations.PacketBytesRoundTrip : Prop :=
  ∀ h : Hdr, h.ty < 2 ^ 5 → h.vc < 2 ^ 3 → h.esc < 2 → h.sub < 2 → h.hops < 2 ^ 6 → h.dst < 2 ^ 16 → h.src < 2 ^ 16 → h.pkey < 2 ^ 16 →
    h.job < 2 ^ 16 → h.len < 2 ^ 9 → h.rmode < 2 ^ 2 → h.sop < 2 ^ 4 → h.sync < 2 ^ 16 → h.mcast < 2 ^ 16 → h.addr < 2 ^ 48 →
    h.aop < 2 ^ 4 → h.asz < 2 ^ 2 → h.seq < 2 ^ 24 → h.proxy < 2 → h.sval < 2 ^ 32 → h.z = 0 →
    h.bytes.length = 32 ∧ hdrOf h.bytes = h ∧
    ∀ (q : RPkt) (port vc now : Nat), q.hdr = h → q.pay.length = 16 * h.units → q.flip < 2 ^ 32 →
      arrive { port := port, vc := vc, bytes := q.bytes } now =
        { port := some port, hdr := h, pay := q.pay, poison := q.poison, bad := q.bad, at_ := now, inReg := true,
          flip := if q.bad then (if q.flip = 0 then 2 ^ 32 - 1 else q.flip) else 0 }

/-! ### The time base and the edges -/

/-- The time base (R705 to R707): an exchange begins when INTERVAL has passed since the last, with a TIME packet to the parent's port where
that is up; a request is answered on its port with three stamps; a reply that answers the exchange gives the offset, which an UNSYNCED
device that no context steps on takes at once when it is positive and absorbs otherwise; an exchange with no reply counts as missed, and
16 of them in a row put a LOCKED device in HOLDOVER.
The model's choices here: log entries 1, 40 and 83. -/
def Obligations.TimeExchanges : Prop :=
  ∀ (d : Dev),
    let now := d.time.toNat
    let n := d.fld Reg.TRS_CFG 1 5
    (d.hubLocked = true → d.bit Reg.TRS_CFG 0 = false → d.trs.sent = none → (∀ t, d.trs.last = some t → t + d.trs.intv ≤ now) →
      let e : Dev := { d with trs := { d.trs with sent := some now, intv := d.fld Reg.TRS_CFG 8 24, port := n, last := some now } }
      (d.portState n = 2 ∨ d.portState n = 4 → Becomes .trestleExchange d (e.sendTime n [now])) ∧
      (d.portState n ≠ 2 → d.portState n ≠ 4 → Becomes .trestleExchange d e)) ∧
    (∀ t, d.trs.last = some t → now < t + d.trs.intv → Becomes .trestleExchange d d) ∧
    (∀ p : Packet, d.takesAt p 0x1A = true → (d.held p).bad = false → p.vc = 7 → (d.held p).hdr.vc = 7 →
      let f := d.freeRegion (d.held p)
      let pay := (d.held p).pay
      ((d.held p).hdr.len = 1 → Becomes (.time p) d (f.sendTime p.port [atLe pay 0 8, now, now])) ∧
      ((d.held p).hdr.len ≠ 1 → d.trs.sent = some (atLe pay 0 8) → d.trs.port = p.port →
        let off : Int := Int.tdiv (((atLe pay 8 8 : Int) - atLe pay 0 8) - ((now : Int) - atLe pay 16 8)) 2
        let e := (f.setFld Reg.TRS_SYNC 8 24 (wrapTo 24 (satSigned 24 off))).setFld Reg.TRS_SYNC 32 16 0
        Becomes (.time p) d ((e.applyOffset off).judge off)) ∧
      ((d.held p).hdr.len ≠ 1 → d.trs.sent ≠ some (atLe pay 0 8) → Becomes (.time p) d f)) ∧
    (∀ off : Int,
      (d.fld Reg.TRS_SYNC 0 2 = 0 → d.stepping = false → d.trs.stepped = false → 0 < off →
        d.applyOffset off = { d with time := d.time + BitVec.ofInt 64 off, trs := { d.trs with stepped := true, slew := 0 } }) ∧
      (off ≤ 0 ∨ d.stepping = true → d.applyOffset off = { d with trs := { d.trs with slew := off } })) ∧
    (∀ t, d.trs.sent = some t → t + d.trs.intv ≤ now →
      let e := ({ d with trs := { d.trs with sent := none, good := 0 } } : Dev).addFld Reg.TRS_SYNC 32 16 1
      (e.fld Reg.TRS_SYNC 0 2 = 1 → 16 ≤ e.fld Reg.TRS_SYNC 32 16 → Becomes .timeExchangeMissed d (e.setSync 2)) ∧
      (e.fld Reg.TRS_SYNC 32 16 < 16 → Becomes .timeExchangeMissed d e)) ∧
    (d.trs.sent = none → Becomes .timeExchangeMissed d d)

/-- The host interface (R793, R796 to R801): PF BAR2 reaches HBM and the capacity tier at the window's base, and an access elsewhere is
logged; a bound VF reads and writes the registers of its context's view and its context's memory through translation, an unbound one reads
zeros and writes nothing; a function reset clears the MSI-X state, and a reset of domain 24 its registers too, with no context changed.
The model's choices here: log entries 1, 41 and 90. -/
def Obligations.HostInterface : Prop :=
  ∀ (d : Dev), d.domOn 24 = true →
    (∀ (off n : Nat) (bs : Bytes),
      let a := d.pfAt off
      (off + bs.length ≤ 64 * 2 ^ 30 →
        (d.pfReaches a bs.length = true → Becomes (.pfBar2Access off n (some bs)) d (d.hubWrite a bs)) ∧
        (d.pfReaches a bs.length = false → Becomes (.pfBar2Access off n (some bs)) d (d.log 1 5 0xFF none 0 a))) ∧
      (off + n ≤ 64 * 2 ^ 30 →
        (d.pfReaches a n = true → d.poisoned a n = false → Becomes (.pfBar2Access off n none) d ((d.hcTouch 0 a n false).emit (.bar 0 (some (d.read a n))))) ∧
        (d.pfReaches a n = false → Becomes (.pfBar2Access off n none) d ((d.log 1 5 0xFF none 0 a).emit (.bar 0 none))))) ∧
    (∀ (n off : Nat), 1 ≤ n → n ≤ 8 → off < 0x10000 →
      (d.vfCtx n = none →
        Becomes (.vfBar0Access n off none) d (d.emit (.bar n (some (leBytes 8 0)))) ∧
        ∀ w, Becomes (.vfBar0Access n off (some w)) d d) ∧
      (∀ x, d.vfCtx n = some x →
        (∀ r, vfReg x off = some r → r ≠ Reg.AON_POWER → d.refusal .host r false = none →
          Becomes (.vfBar0Access n off none) d (d.emit (.bar n (some (leBytes 8 (d.readReg r).toNat))))) ∧
        (vfReg x off = none → off ≠ 0x20 → off ≠ 0x30 →
          Becomes (.vfBar0Access n off none) d ((d.log 1 5 0xFF none 0 off).emit (.bar n (some (leBytes 8 0)))) ∧
          ∀ w, Becomes (.vfBar0Access n off (some w)) d (d.log 1 5 0xFF none 0 off)) ∧
        (∀ w, Becomes (.vfBar0Access n 0x30 (some w)) d (d.wCtxCtrl .host x w)))) ∧
    (∀ (n off len : Nat) (bs : Bytes) (ps : List Piece), 1 ≤ n → n ≤ 8 →
      let va := d.vfAt n off
      (∀ x, d.vfCtx n = some x →
        (off + bs.length ≤ 2 ^ 34 →
          (d.translate x .w va bs.length = .ok ps → Becomes (.vfBar2Access n off len (some bs)) d ((d.writePieces x ps bs).hcPieces x ps false)) ∧
          (∀ e, d.translate x .w va bs.length = .error e → Becomes (.vfBar2Access n off len (some bs)) d (d.log 1 5 0xFF none 0 va))) ∧
        (off + len ≤ 2 ^ 34 → d.translate x .r va len = .ok ps → d.piecesPoisoned ps = false →
          Becomes (.vfBar2Access n off len none) d ((d.hcPieces x ps true).emit (.bar n (some (d.readPieces ps)))))) ∧
      (d.vfCtx n = none → off + bs.length ≤ 2 ^ 34 → Becomes (.vfBar2Access n off len (some bs)) d d)) ∧
    (∀ n, 1 ≤ n → n ≤ 8 → Becomes (.vfFlr n) d { d with
      msixMask := mapKeep (fun k => k / 16 != n) d.msixMask, msixPend := mapKeep (fun k => k / 16 != n) d.msixPend }) ∧
    (∃ e, Becomes .pfFlr d e ∧ Becomes .hotReset d e ∧ Becomes .hostLinkDown d e ∧ e.ctxs = d.ctxs ∧ e.mem = d.mem ∧
      e.msixMask = [] ∧ (∀ o, regDomain o = 24 → e.reg o = csrReset o) ∧ (∀ o, regDomain o ≠ 24 → e.reg o = d.reg o)) ∧
    ∀ speed width flit, 1 ≤ speed → speed ≤ 7 → width ∈ [1, 2, 4, 8, 16] →
      Becomes (.hostLinkUp speed width flit) d
        (((d.setFld Reg.HIF_LINK 0 3 speed).setFld Reg.HIF_LINK 8 5 width).setBit Reg.HIF_LINK 13 flit)

/-- The network ports (R803 to R813): a commit makes the eight staged words of a target or region take effect and resets its queue pair,
unless a reserved bit is set or the target or region is in use; an inbound write in sequence that fits its region is written at the
translated address with its sync operation and acknowledged, one out of sequence is discarded, one that does not fit is refused, and one
whose buffer is not free waits at the port, with those behind it; a request
without acknowledgement is sent again up to seven times; a refused one ends its transfer.
The model's choices here: log entries 31, 75, 76 and 115. -/
def Obligations.NetworkPorts : Prop :=
  ∀ (d : Dev),
    (∀ (src : Master) (t : Nat) (w : Word), t < 16 →
      let base := Reg.NET_TGT_W t 0
      let b := d.staged8 base w
      d.refusal src (base + 0x38) true = none →
        (d.tgtBusy t = false → tgtReserved b = false →
          Becomes (.netTgtCommit src t w) d (d.commitWords base t (atLe b 0x24 3) b)) ∧
        (d.tgtBusy t = true ∨ tgtReserved b = true → Becomes (.netTgtCommit src t w) d (d.logDiscard (base + 0x38)))) ∧
    (∀ (src : Master) (i : Nat) (w : Word), i < 16 →
      let base := Reg.NET_ING_W i 0
      let b := d.staged8 base w
      d.refusal src (base + 0x38) true = none →
        (d.ingBusy i = false → ingReserved b = false →
          Becomes (.netIngCommit src i w) d (d.commitWords base (16 + i) (atLe b 0x1C 3) b)) ∧
        (d.ingBusy i = true ∨ ingReserved b = true → Becomes (.netIngCommit src i w) d (d.logDiscard (base + 0x38)))) ∧
    (∀ p, p < 2 → d.domOn 23 = true → Becomes (.networkLinkDown p) d (d.setBit (Reg.NET_P_STATUS p) 0 false) ∧
      (d.tablesWf = true →
        ∃ e, Becomes (.networkLinkUp p 0) d e ∧ e.bit (Reg.NET_P_STATUS p) 0 = true ∧ e.bit (Reg.NET_P_STATUS p) 1 = false)) ∧
    (∀ p prio, p < 2 → prio < 8 → d.netUp p = true → Becomes (.priorityFlowControlFrame p prio true) d
      (((upFrom 0 16).filter fun t => netPort (d.tgt t) == p && netPrio (d.tgt t) == prio).foldl (fun e t => e.netPump t)
        { d with netPause := mapSet (fun _ => false) d.netPause (p * 8 + prio) true })) ∧
    (∀ k, k < 32 → d.domOn 23 = true →
      Becomes (.congestionNotificationPacket (0x10 + k)) d (d.setQp k { d.qp k with slow := (d.qp k).slow + 1 })) ∧
    (∀ (r : Rdma) (i : Nat), d.ingOf r = some i →
      let b := d.ing i
      let x := atLe b 1 1
      let q := d.qp (16 + i)
      let fits := bitsOf (atLe b 0 1) 0 1 = 1 ∧ r.rkey = atLe b 4 4 ∧ atLe b 8 8 ≤ r.addr ∧
        r.addr + r.data.length ≤ atLe b 8 8 + atLe b 0x10 8
      let nak := (d.addFld (Reg.NET_P_STATUS r.port) 32 32 1).emit (.rdma (netPort b) (atLe b 0x18 3) .nakAccess r.psn 0 0 [])
      Becomes (.invalidOpcodeIn r) d (d.emit (.rdma (netPort b) (atLe b 0x18 3) .nakInvalid r.psn 0 0 [])) ∧
      let waits := fun (e : Dev) (imm : Option Nat) => ({ e with netWait := e.netWait ++ [(r, imm)] } : Dev)
      (d.ingBusy i = true → Becomes (.rdmaWriteIn r) d (waits d none) ∧ ∀ imm, Becomes (.rdmaWriteImmIn r imm) d (waits d (some imm))) ∧
      (d.ingBusy i = false → r.psn ≠ q.psn → Becomes (.rdmaWriteIn r) d d ∧ ∀ imm, Becomes (.rdmaWriteImmIn r imm) d d) ∧
      (d.ingBusy i = false → r.psn = q.psn → ¬ fits → Becomes (.rdmaWriteIn r) d nak ∧ ∀ imm, Becomes (.rdmaWriteImmIn r imm) d nak) ∧
      (d.ingBusy i = false → r.psn = q.psn → fits → (d.ctx x).state = .running →
        ∀ ps, d.translate x .iw r.addr r.data.length = .ok ps → d.cabOn x 11 = true →
        (d.cabPick x 11 (min (max r.data.length 1) 4096) = none →
          let e := d.cabWait x 11 (min (max r.data.length 1) 4096)
          Becomes (.rdmaWriteIn r) d (waits e none)) ∧
        ∀ k e, d.cabAlloc x 11 (min (max r.data.length 1) 4096) 11 = (some k, e) →
        let f := (e.writeLosing r.lost x ps r.data).cabRelease k 11
        let ends := fun (g : Dev) => (g.setQp (16 + i) { q with psn := (q.psn + max 1 (ceilDiv r.data.length 4096)) % 2 ^ 24 }).emit
          (.rdma (netPort b) (atLe b 0x18 3) .ack r.psn 0 0 [])
        Becomes (.rdmaWriteIn r) d (ends f) ∧
        ∀ imm, d.immOk x imm r.data.length = true →
          Becomes (.rdmaWriteImmIn r imm) d (ends (f.syncOp x (bitsOf imm 16 4) (imm % 65536) 0 (r.data.length / 16))))) ∧
    ∀ (t : Nat) (m : NetMsg) (rest : List NetMsg), t < 16 → (d.qp t).msgs = m :: rest →
      (m.sent = true → Becomes (.rdmaNakIn t) d (d.netFail t m)) ∧
      (m.sent = false → Becomes (.rdmaNakIn t) d d) ∧
      (m.sent = true → m.at_ + 12800000 ≤ d.time.toNat →
        (7 ≤ m.tries → Becomes (.rdmaAckTimeout t) d (d.netFail t m)) ∧
        (m.tries < 7 → Becomes (.rdmaAckTimeout t) d
          ((d.setQp t { d.qp t with
            msgs := ({ m with tries := m.tries + 1 } :: rest).map fun k => { k with sent := false } }).netPump t))) ∧
      (∀ psn, ackedBy psn (d.qp t).msgs = [] → Becomes (.rdmaAckIn t psn) d d) ∧
      (∀ psn, ackedBy psn (d.qp t).msgs = [m] →
        Becomes (.rdmaAckIn t psn) d (((d.setQp t { d.qp t with msgs := rest }).endMsg m).netAcked t m)) ∧
      (∀ r data lost, d.restore = some r → r.tgt = t → m.kind = 3 → m.sent = true → m.len = data.length → r.out = none → r.man.length = 64 →
        Becomes (.rdmaReadRespIn ⟨t, lost⟩ data) d ((d.setQp t { d.qp t with msgs := rest }).restoreManifest { r with man := r.man ++ data }))

/-- Management (R818 to R826, R840, R841, R844, R852, R868, R869): each request on one of the three paths is answered on it; an update
starts on the slot that is not booted, stores its bytes, leaves the slot invalid until the last, and boots it once after activation; a
block of the identity memory is read and, where the writer may, written; a command of the register does the same; three failed recoveries
mark the I3C bus FAILED until REARM; a management port's access and a CSR message of the fabric manager are performed and answered.
The model's choices here: log entries 43, 44 and 91. -/
def Obligations.ManagementRequests : Prop :=
  ∀ (d : Dev) (path : Nat), path < 3 →
    let via := d.answerPath path
    let st := Reg.MGT_I3C_STATUS
    let answers := fun (c : Instr) (kind : Nat) (ok : Bytes → Prop) =>
      ∃ (bs : Bytes) (n : Nat), ok bs ∧ Becomes c d (({ d with freeCtr := n } : Dev).emit (.mgmt via kind 0 bs))
    answers (.mctpControl path) 0 (fun _ => True) ∧ answers (.pldmMonitoring path) 1 (fun _ => True) ∧
    Becomes (.getVersion path) d (d.emit (.mgmt via 5 0 [0x12, 0x13])) ∧
    answers (.getCapabilities path) 6 (fun _ => True) ∧ answers (.negotiateAlgorithms path) 7 (fun _ => True) ∧
    answers (.getDigests path) 8 (fun bs => bs.length = 48) ∧
    (∀ n, n < 65536 → answers (.getCertificate path n) 9 (fun bs => bs.length = n)) ∧
    answers (.challenge path) 10 (fun bs => bs.length = 96) ∧
    (∀ ix, 1 ≤ ix → ix ≤ 8 → answers (.getMeasurements path ix) 11 (fun bs => ∃ sig : Bytes, bs = d.mrBlock (ix - 1) ++ sig ∧ sig.length = 96)) ∧
    (∀ body bs e, d.mgmtAccess body = (bs, e) → Becomes (.mgmtPortCsr path body) d (e.answer path 13 0 bs)) ∧
    (∀ slot, slot < 2 → d.aon.upd = none →
      (d.boot.slot = some slot → Becomes (.requestUpdate path slot) d (d.emit (.mgmt via 2 1 []))) ∧
      (d.boot.slot ≠ some slot → Becomes (.requestUpdate path slot) d
        (({ d with aon := { d.aon with upd := some (slot, false) } } : Dev).emit (.mgmt via 2 0 [])))) ∧
    (∀ slot off data last, d.aon.upd = some (slot, false) → d.boot.slot ≠ some slot → off + data.length ≤ 2 ^ 24 →
      ∃ e, Becomes (.firmwareStoreWrite off data last) d e ∧ e.nv.fw = nvPut d.nv.fw (slot * 2 ^ 24 + off) data ∧
        (e.nv.writing.contains slot = !last) ∧ e.aon.upd = some (slot, last) ∧ e.csr = d.csr) ∧
    (∀ slot record, d.aon.upd = some (slot, true) → d.domOn 26 = true → Becomes (.activateFirmware path record) d
      (((({ d with aon := { d.aon with upd := none } } : Dev).setBit Reg.AON_FW_CTRL 1 true).mrExtend 7 (sha384 record)).answer path 4 0 [])) ∧
    (d.aon.upd = none → ∀ record, Becomes (.activateFirmware path record) d (d.emit (.mgmt via 4 1 []))) ∧
    (∀ blk, blk < 1024 → d.aon.idmQ = [] → Becomes (.identityMemoryMsg path blk none) d
      (d.emit (.mgmt via 12 0 (nvGet d.nv.idm (64 * blk) 64)))) ∧
    (∀ blk bs, idmWritable 0 blk = false → Becomes (.identityMemoryMsg path blk (some bs)) d (d.emit (.mgmt via 12 1 []))) ∧
    (∀ q t bs, d.aon.idmQ = q :: t → q.data = some bs → q.path = some path → t = [] → ∃ e, Becomes .idmWriteComplete d e ∧
      e.nv.idm = nvPut d.nv.idm (64 * q.block) bs ∧ e.out = d.out ++ [.mgmt via 12 0 []]) ∧
    (∀ (src : Master) (w : Word), d.refusal src Reg.MGT_IDM_CMD true = none → d.fld Reg.MGT_IDM_CMD 16 2 = 3 →
      Becomes (.idmRead src w) d (d.logDiscard Reg.MGT_IDM_CMD) ∧ Becomes (.idmWrite src w) d (d.logDiscard Reg.MGT_IDM_CMD)) ∧
    (∀ (w : Word), d.refusal .bureau Reg.MGT_IDM_CMD true = none → d.fld Reg.MGT_IDM_CMD 16 2 ≠ 3 →
      fieldOf (w ||| 0x3000) 0 10 < 128 → Becomes (.idmWrite .bureau w) d ((d.plainWrite Reg.MGT_IDM_CMD (w ||| 0x3000)).idmStatus 2)) ∧
    (∀ (src : Master) (w : Word), d.refusal src Reg.MGT_IDM_CMD true = none → d.fld Reg.MGT_IDM_CMD 16 2 ≠ 3 → d.aon.idmQ = [] →
      let rd := d.plainWrite Reg.MGT_IDM_CMD ((w ||| 0x2000) &&& ~~~ 0x1000)
      let wr := d.plainWrite Reg.MGT_IDM_CMD (w ||| 0x3000)
      let blk := fieldOf w 0 10
      let data := (upFrom 0 8).flatMap fun k => leBytes 8 (wr.reg (Reg.MGT_IDM_DATA k)).toNat
      Becomes (.idmRead src w) d (((upFrom 0 8).foldl
        (fun e k => e.setReg (Reg.MGT_IDM_DATA k) (BitVec.ofNat 64 (atLe (nvGet d.nv.idm (64 * blk) 64) (8 * k) 8)))
        (rd.setFld Reg.MGT_IDM_CMD 16 2 3)).setFld Reg.MGT_IDM_CMD 16 2 0) ∧
      (idmWritable (idmWho src) blk = true → Becomes (.idmWrite src w) d
        { wr.setFld Reg.MGT_IDM_CMD 16 2 3 with aon := { d.aon with
            idmQ := [{ by_ := idmWho src, path := none, block := blk, data := some data }] } })) ∧
    (∀ addr, d.i3cFailed = false → Becomes (.entdaa addr) d (d.setFld st 4 7 addr)) ∧
    (d.fld st 0 2 ≤ 1 → Becomes .i3cStuckDetect d ((d.setFld st 0 2 2).emit .i3cRecover)) ∧
    (d.fld st 0 2 = 2 →
      Becomes (.i3cRecoveryEnd true) d ((d.setFld st 0 2 0).setFld st 2 2 0) ∧
      (d.fld st 2 2 < 2 → Becomes (.i3cRecoveryEnd false) d ((d.setFld st 2 2 (d.fld st 2 2 + 1)).setFld st 0 2 0)) ∧
      (d.fld st 2 2 = 2 → Becomes (.i3cRecoveryEnd false) d (((d.setFld st 2 2 3).setFld st 0 2 3).log 0xB 1 3 none 0 0))) ∧
    (∀ (src : Master) (w : Word), d.refusal src Reg.MGT_I3C_CTRL true = none →
      (d.i3cFailed = true → Becomes (.rearm src w true) d ((d.setFld st 0 2 0).setFld st 2 2 0)) ∧
      Becomes (.rearm src w false) d (d.logDiscard Reg.MGT_I3C_CTRL)) ∧
    (∀ p : Packet, d.takesHere p 0x18 = true → (d.held p).bad = false → d.boot.slot.isSome = true →
      let f := d.freeRegion (d.held p)
      let pay := (d.held p).pay
      (atLe pay 0 1 = 3 → (d.held p).hdr.src = d.fld Reg.BUR_FM 0 16 → ∀ bs e, f.mgmtAccess (pay.drop 4) = (bs, e) →
        Becomes (.mgmtCsr p) d (e.sendMgmt (d.held p).hdr.src ([4, 0, 0, 0] ++ bs))) ∧
      (atLe pay 0 1 = 5 → Becomes (.mgmtSwing p) d { f with swingMsg := some ((d.held p).hdr.src, atLe pay 4 1, atLe pay 5 1) }))

/-! ### Reset, power-up and power -/

/-- Reset and power-up (R763 to R765, R828 to R840, R846, R849): power-on leaves every register but AON_FW_CTRL at its reset value and
nothing in memory; PERST# resets the package unless a sensor is too hot; the events of the sequence power what they name and set PHASE; a
slot is booted that is valid, the other where the active one is not; once the last domains are up the device is READY with BUR_ADMIT at
its value, and the fields that the Bureau set are written again when a domain comes on later (R895); CONFIRM makes the booted slot active,
and without it the Bureau restarts. An uncorrectable error of an on-chip memory without a poison unit is counted (R763 to R765): of Bureau
SRAM it restarts the Bureau; of an entry with an owner it freezes that context with SOURCE DOMAIN, and an entry with none takes its reset
value; of a cluster's arrays it freezes the context that runs there; of a hub cache line it drops the line and no data.
The model's choices here: log entries 1, 5, 6, 7, 37, 93, 94 (domain 26 coming on again) and 97. -/
def Obligations.PowerUp : Prop :=
  ∀ (d : Dev),
    let fw := Reg.AON_FW_CTRL
    let st := Reg.BUR_STATUS
    (d.boot.pwrGood = false → ∃ e, Becomes .pwrGoodRise d e ∧ (∀ o, o ≠ fw → e.reg o = csrReset o) ∧ e.reg fw = d.reg fw ∧ e.mem = [] ∧
      e.poison = [] ∧ e.ctxs = [] ∧ e.time = 0 ∧ e.nv = d.nv ∧ e.boot = {}) ∧
    (d.boot.pwrGood = true → Becomes .pwrGoodRise d d ∧
      Becomes .pwrGoodFall d { d with boot := { d.boot with pwrGood := false, flight := d.inFlight } }) ∧
    (d.boot.perst = false →
      let e := ({ d with boot := { d.boot with perst := true } } : Dev)
      (d.anyAt 85 = false → Becomes .perstAssert d e.coldReset) ∧
      (d.anyAt 85 = true → Becomes .perstAssert d { e with boot := { e.boot with coldWait := true } })) ∧
    (d.tablesWf = true → d.coldReset.boot.slot = none ∧ d.coldReset.nv = d.nv ∧ d.coldReset.ctxs = [] ∧
      ∀ n, n < 27 → d.coldReset.domOn n = false) ∧
    (d.boot.perst = true → d.boot.pwrGood = true →
      let e := ({ d with boot := { d.boot with perst := false } } : Dev)
      (d.boot.coldWait = false → Becomes .perstDeassert d (e.setStage 1)) ∧ (d.boot.coldWait = true → Becomes .perstDeassert d e)) ∧
    (d.boot.stage = 1 → d.boot.pwrGood = true →
      Becomes .hubPllLock d (([16, 17, 24, 26].foldl Dev.domUp { d with hubLocked := true }).setStage 2)) ∧
    (d.tablesWf = true → ∀ n, n < 27 → (d.domUp n).domOn n = true ∧
      (d.domUp 21).fld Reg.FAB_NODE 0 16 = leNat (nvGet d.nv.idm 4096 2) % 65536) ∧
    (d.boot.stage = 2 → d.nv.repair = [] → d.tablesWf = true →
      (∃ e, Becomes (.clusterBistDone []) d e ∧ e.boot.stage = 3 ∧ (∀ k, k < 2 → e.reg (Reg.BUR_SPARE_MAP k) = 0)) ∧
      ∀ c, c < 128 → ∃ e, Becomes (.clusterBistDone [c]) d e ∧ e.boot.stage = 3 ∧ e.nv.repair = [(0, c)] ∧
        e.fld (Reg.BUR_SPARE_MAP (c / 64)) (8 * (c / 16 % 4)) 8 = c % 16 + 16 ∧ e.bit Reg.AON_RAS_STATUS (c / 16) = true) ∧
    (d.boot.stage = 3 → d.boot.restart = false → d.domOn 26 = true → d.tablesWf = true →
      let a := d.fwActive
      (d.bit fw 1 = false → d.slotValid a = true → ∃ e, Becomes .firmwareSlotSelect d e ∧ e.boot.slot = some a ∧ e.boot.stage = 4 ∧
        e.fld st 8 8 = 1 ∧ e.fwActive = a) ∧
      (d.bit fw 1 = true → d.slotValid (1 - a) = true → ∃ e, Becomes .firmwareSlotSelect d e ∧ e.boot.slot = some (1 - a) ∧
        e.bit fw 1 = false ∧ e.bit fw 2 = true ∧ e.fwActive = a) ∧
      (d.bit fw 1 = false → d.slotValid a = false → d.slotValid (1 - a) = true → ∃ e, Becomes .firmwareSlotSelect d e ∧
        e.boot.slot = some (1 - a) ∧ e.fwActive = 1 - a ∧ e.bit fw 3 = true) ∧
      (d.slotValid 0 = false → d.slotValid 1 = false → ∃ e, Becomes .firmwareSlotSelect d e ∧ e.boot.stage = 9 ∧
        ∀ n, n < 27 → e.domOn n = false)) ∧
    (d.boot.stage = 4 → d.nv.repair = [] → d.bit Reg.AON_THERM 16 = false → d.tablesWf = true → ∃ e, Becomes (.hbmTrainingDone []) d e ∧ e.boot.stage = 5 ∧
      e.fld st 8 8 = 2 ∧ e.domOn 21 = true ∧ ∀ n ∈ upFrom 0 16 ++ [20], e.domOn n = true ∨ n ∈ e.boot.rising) ∧
    (d.boot.stage = 6 → d.nv.repair = [] → d.tablesWf = true → ∀ code, leNat (nvGet d.nv.idm 4098 1) = code → 1 ≤ code → code ≤ 4 →
      leNat (nvGet d.nv.idm 4099 1) ≠ 1 → ∀ dies bpd upb endur wrong, ∃ e, Becomes (.capacityTrainingDone 0 dies bpd upb endur wrong) d e ∧
        e.boot.stage = 7 ∧ e.fld st 8 8 = 4 ∧ e.domOn 22 = true ∧ e.fld Reg.TIER_CAP_CFG 0 3 = code) ∧
    (∀ n, n ∈ d.boot.rising → n ≠ 21 → n ≠ 22 →
      let e := (d.domUp n).endRise n
      (e.boot.stage ≠ 5 → e.boot.stage ≠ 7 → n ≠ 26 → Becomes (.domainUsable n) d e) ∧
      (n = 26 → e.boot.stage = 8 → Becomes (.domainUsable n) d { e with boot := { e.boot with slot := none, restart := true } }) ∧
      (e.boot.stage = 5 → n ≠ 26 → (∀ k ∈ upFrom 0 16 ++ [20], e.domOn k = true) → Becomes (.domainUsable n) d ((e.setPhase 3).setStage 6)) ∧
      (e.boot.stage = 7 → n ≠ 26 → (∀ k ∈ [18, 19, 23, 25], e.domOn k = true) → e.boot.restart = false →
        Becomes (.domainUsable n) d ((e.keepConfig.setStage 8).setReady))) ∧
    (d.tablesWf = true → ∀ n o r, n < 26 → regAt o = some r → regDomain o = n → r.w1s = 0 → r.w1c = 0 →
      ((d.keepConfig.regsOff n).reconfigure n).reg o &&& BitVec.ofNat 64 r.rw = d.reg o &&& BitVec.ofNat 64 r.rw) ∧
    (d.tablesWf = true → d.setReady.bit st 0 = true ∧ d.setReady.reg Reg.BUR_ADMIT = 0x0003FFFF0003FFFD) ∧
    (∀ (src : Master) (w : Word), d.refusal src fw true = none →
      (src ≠ .bureau → Becomes (.confirm src w) d (d.logDiscard fw)) ∧
      (src = .bureau → 10 ≤ fieldOf (w ||| 0x10) 16 16 → fieldOf (w ||| 0x10) 16 16 ≤ 3600 → d.tablesWf = true →
        ∀ k, k < 2 → d.boot.slot = some k → ∃ e, Becomes (.confirm src w) d e ∧ e.fwActive = k ∧ e.bit fw 2 = false ∧ e.bit fw 3 = false ∧
          e.fld fw 16 16 = fieldOf (w ||| 0x10) 16 16)) ∧
    (∀ k, d.boot.slot = some k → d.bit fw 2 = true → d.boot.released + d.fld fw 16 16 * 1600000000 ≤ d.time.toNat →
      Becomes .confirmTimeout d ((d.setBit fw 2 false).log 0xA 3 0xFF none 0 k).bureauRestart) ∧
    (d.domOn 26 = true → Becomes (.bureauSramUncorrectable .bureau) d ((d.addFld Reg.AON_ECC_UE 0 16 1).log 3 0 0 none 0 0).bureauRestart) ∧
    (d.domOn 21 = true → ∀ i, i < 65536 →
      ((d.obj i).owned = true →
        Becomes (.bureauSramUncorrectable (.syncObj i)) d ((d.countSram 0xFF i).freeze (d.obj i).ctx 0xB 21 0 0 0 0)) ∧
      ((d.obj i).owned = false → Becomes (.bureauSramUncorrectable (.syncObj i)) d ((d.countSram 0xFF i).setObj i {}))) ∧
    (d.domOn 21 = true → ∀ k, k < 262144 →
      ((d.trk k).state ≠ 0 →
        Becomes (.bureauSramUncorrectable (.tracker k)) d ((d.countSram 0xFF k).freeze (d.trk k).ctx 0xB 21 0 0 0 0)) ∧
      ((d.trk k).state = 0 → Becomes (.bureauSramUncorrectable (.tracker k)) d ((d.countSram 0xFF k).setTrk k {}))) ∧
    (d.domOn 21 = true → ∀ x p i, x < 8 → p < 8 → i < d.fld (Reg.CAB_CTX_P_STATE x p) 32 15 → i < 16384 → d.loaded x = true →
      Becomes (.bureauSramUncorrectable (.cabinet x p i)) d ((d.countSram 0xFF i).freeze x 0xB 21 0 0 0 0)) ∧
    (d.domOn 20 = true → ∀ i, i < 65536 → ∀ x, d.biasOwner i = some x →
      Becomes (.bureauSramUncorrectable (.bias i)) d ((d.countSram 0xFF i).freeze x 0xB 20 0 0 0 0)) ∧
    (∀ c n, c < 128 → n < 1048576 → d.domOn (c / 8) = true →
      Becomes (.bureauSramUncorrectable (.cluster c n)) d
        (((d.countSram 0xFF c).keepUe (spadAddr c (0x800000 + 8 * n))).freeze (d.clu c).ctx 0xB (c / 8) 0 0 0 0).declare) ∧
    (d.domOn 21 = true → ∀ l, ∃ e, Becomes (.bureauSramUncorrectable (.cacheLine l)) d e ∧ e.mem = d.mem ∧
      (d.tablesWf = true → ∀ k ∈ mapGet (fun _ => []) e.cache (l % 98304), k.line ≠ l)) ∧
    (d.tablesWf = true → d.bureauRestart.boot.slot = none ∧ d.bureauRestart.boot.restart = true ∧
      ∀ x, x < 8 → (d.ctx x).state.active = true → (d.bureauRestart.ctx x).state = .frozen)

/-- Power (R61, R747, R842, R847 to R861, R864, R866 to R868): a power command that a condition turns away leaves its code and is logged,
one that is accepted powers its domain off or starts it; the always-on controller's operations begin with their effect and end with
their code; f follows the limits; a sample of the sensors is stored, and the fourth in a row at 105 degrees shuts the package down.
The model's choices here: log entries 46, 47, 94 and 95. -/
def Obligations.PowerControl : Prop :=
  ∀ (d : Dev) (src : Master),
    let s := Reg.AON_OP_STATUS
    let ds := Reg.PWR_DOMAIN_STATUS
    (∀ w : Word, d.refusal src Reg.PWR_DOMAIN_CTRL true = none →
      (d.bit ds 28 = true → Becomes (.pwrDomainOff src w) d (d.logDiscard Reg.PWR_DOMAIN_CTRL) ∧
        Becomes (.pwrDomainOn src w) d (d.logDiscard Reg.PWR_DOMAIN_CTRL) ∧ Becomes (.pwrDomainReset src w) d (d.logDiscard Reg.PWR_DOMAIN_CTRL)) ∧
      (d.bit ds 28 = false →
        let p := fun (m : Word) => d.plainWrite Reg.PWR_DOMAIN_CTRL (w ||| m)
        let n := fun (m : Word) => fieldOf (w ||| m) 0 5
        let off := fun (m : Word) => bitOf (w ||| m) 8
        let on := fun (m : Word) => bitOf (w ||| m) 9
        let res := fun (m : Word) => bitOf (w ||| m) 10
        let code := fun (m : Word) => (p m).domCode (n m) (off m) (on m) (res m)
        let e := fun (m : Word) => ((p m).setFld ds 32 8 (code m)).setFld ds 40 5 (n m)
        (code 0x100 = 0 → Becomes (.pwrDomainOff src w) d ((e 0x100).domOff (n 0x100))) ∧
        (code 0x100 ≠ 0 → Becomes (.pwrDomainOff src w) d ((e 0x100).log 8 (code 0x100) 2 none (n 0x100) (w ||| 0x100).toNat)) ∧
        (code 0x200 = 0 → (e 0x200).domOn (n 0x200) = false →
          Becomes (.pwrDomainOn src w) d (((e 0x200).rise (n 0x200)).setBit ds 28 true)) ∧
        (code 0x400 = 0 → (e 0x400).domOn (n 0x400) = true →
          Becomes (.pwrDomainReset src w) d ((((e 0x400).domOff (n 0x400)).rise (n 0x400)).setBit ds 28 true)))) ∧
    (∀ n, (n = 24 ∨ n = 26 ∨ 27 ≤ n → d.domCode n true false false = 8) ∧
      (n < 27 → n ≠ 24 → n ≠ 26 → (d.domHeld n = true → d.domCode n true false false = 9) ∧
        (d.domHeld n = false → (∃ k, k < 27 ∧ prereq k = some n ∧ d.domOn k = true) → d.domCode n true false false = 0xA) ∧
        (∀ k, prereq n = some k → d.domOn k = false → d.domCode n false true false = 0xB))) ∧
    (d.refusal src Reg.AON_OP true = none →
      (src = .host → Becomes (.coldReset src) d (d.logRefusal 4 Reg.AON_OP)) ∧
      (src ≠ .host → d.bit s 16 = true → Becomes (.quote src) d (d.logDiscard Reg.AON_OP)) ∧
      (src ≠ .host → d.bit s 16 = false →
        let b := fun (op : Nat) => ((d.setFld s 0 8 op).setFld s 8 8 0).setBit s 16 true
        let runs := fun (e : Dev) (op arg code : Nat) =>
          ({ e with aon := { e.aon with op := some { op := op, arg := arg, code := code, since := e.time.toNat } } } : Dev)
        (∀ x, x < 8 → (d.ctx x).state.active = true → Becomes (.aonTeardown src x) d
          (runs ((((b 1).setBit s 17 false).freeze x 0xA 0 0 0 0 0).endHold x) 1 x 0)) ∧
        (∀ n, n < 32 →
          Becomes (.linkDisable src n) d (runs ({ b 2 with linkOff := mapSet (fun _ => false) d.linkOff n true }.portDown n) 2 n 0) ∧
          Becomes (.linkEnable src n) d (runs ({ b 3 with linkOff := mapSet (fun _ => false) d.linkOff n false }.trainPorts) 3 n 0)) ∧
        (∀ n, n < 27 → (n ≠ 26 → Becomes (.domainReset src n) d (runs ((((b 4).freezeUsers n).domOff n).rise n) 4 n 0)) ∧
          Becomes (.domainOff src n) d (runs ((dependents n ++ [n]).foldl (fun e k => (e.freezeUsers k).domOff k) (b 5)) 5 n 0) ∧
          ((∀ k, prereq n = some k → (b 6).domOn k = true) → (b 6).bit Reg.AON_THERM 16 = false →
            Becomes (.domainOn src n) d (runs ((b 6).rise n) 6 n 0))) ∧
        Becomes (.quote src) d (runs (b 7).quote 7 0 0) ∧ Becomes (.thermalShutdown src) d (runs (b 8).thermalOff 8 0 0) ∧
        ((b 9).anyAt 85 = false → Becomes (.coldReset src) d (runs (b 9) 9 0 0).coldReset))) ∧
    (d.tablesWf = true → d.thermalOff.aon.thermtrip = true ∧ d.thermalOff.bit Reg.AON_THERM 16 = true ∧
      ∀ n, n < 27 → d.thermalOff.domOn n = false) ∧
    (∀ o, d.aon.op = some o →
      (d.aonEnded o = true →
        Becomes .aonOpComplete d (({ d with aon := { d.aon with op := none } }.setFld s 8 8 o.code).setBit s 16 false)) ∧
      (d.aonEnded o = false → Becomes .aonOpComplete d d) ∧
      (o.op = 1 → d.loaded o.arg = true → o.since + 160000000 ≤ d.time.toNat →
        let ns := (upFrom 0 27).filter (d.uses o.arg)
        21 ∈ ns ∧ Becomes .teardownEscalate d ((ns.foldl Dev.aonReset (ns.foldl Dev.freezeUsers d)).setBit s 17 true))) ∧
    (∀ w : Word, d.refusal .bureau Reg.AON_MR_EXTC true = none →
      let m := fieldOf (w ||| 8) 0 3
      (3 ≤ m → Becomes (.mrExtend .bureau w) d ((d.plainWrite Reg.AON_MR_EXTC (w ||| 8)).mrExtend m
        ((upFrom 0 6).flatMap fun k => leBytes 8 (d.reg (Reg.AON_MR_EXT k)).toNat))) ∧
      (m < 3 → Becomes (.mrExtend .bureau w) d (d.logDiscard Reg.AON_MR_EXTC))) ∧
    (d.tablesWf = true →
      let t := toSigned 16 (d.fld Reg.AON_THERM 32 16)
      let lim : Int := d.fld Reg.AON_THERM 0 8
      let p := d.fld Reg.AON_POWER 0 16
      let cap := d.fld Reg.PWR_CAP 0 12
      let fT := clampClk (if lim * 16 ≤ t then d.aon.fT - 50 else if t < (lim - 5) * 16 then d.aon.fT + 50 else d.aon.fT)
      let fP := clampClk (if cap < p then d.aon.fP - 50 else if p + 50 < cap then d.aon.fP + 50 else d.aon.fP)
      ∃ e, Becomes .clockControlTick d e ∧ e.aon.fT = fT ∧ e.aon.fP = fP ∧
        e.fld Reg.PWR_CLK 16 11 = (if d.braked then 600 else min (d.fld Reg.PWR_CLK 0 11) (min fT fP))) ∧
    Becomes .pwrbrkAssert d (d.setClk 600 4) ∧
    (d.braked = true → Becomes .pwrbrkRelease d (({ d with aon := { d.aon with fT := 600, fP := 600 } } : Dev).setClk 600 0)) ∧
    (∀ (ts : List Nat) (power : Nat), d.tablesWf = true → d.aon.hots = [] → d.boot.coldWait = false →
      (∀ k, k < 34 → toSigned 16 (ts.getD k 0) < 1680) →
      ∃ e, Becomes (.sensorSample ts power) d e ∧ e.aon.hots = [] ∧ e.fld Reg.AON_POWER 0 16 = power % 65536 ∧
        (∀ k, k < 34 → e.fld (Reg.AON_TEMP (k / 4)) (16 * (k % 4)) 16 = ts.getD k 0 % 65536) ∧
        e.fld Reg.AON_THERM 32 16 = (hottest ts).2 % 65536) ∧
    (∀ (ts : List Nat) (power k : Nat), d.tablesWf = true → d.aon.hots = [(k, 3)] → k < 34 → d.boot.coldWait = false →
      1680 ≤ toSigned 16 (ts.getD k 0) → d.bit Reg.AON_THERM 16 = false →
      ∃ e, Becomes (.sensorSample ts power) d e ∧ e.aon.thermtrip = true ∧ ∀ n, n < 27 → e.domOn n = false) ∧
    (d.hubLocked = true → d.tablesWf = true → ∃ e, Becomes .hubPllLockLoss d e ∧ e.hubLocked = false ∧
      ∀ x, x < 8 → (d.ctx x).state.active = true → (e.ctx x).state = .frozen) ∧
    (d.hubLocked = false → 2 ≤ d.boot.stage → Becomes .hubPllRelock d ({ d with hubLocked := true } : Dev).unsync) ∧
    (∀ g, g < 16 → d.pll g = .locked → Becomes (.groupPllLockLoss g) d ((d.setPll g .locking).log 6 2 0xFF none g 0)) ∧
    (0 < d.fld Reg.BUR_FM 32 16 → d.boot.slot.isSome = true → d.aon.telLast + d.fld Reg.BUR_FM 32 16 * 1600000 ≤ d.time.toNat →
      Becomes .telemetrySend d (({ d with aon := { d.aon with telLast := d.time.toNat } } : Dev).inject
        { ty := 0x1B, vc := 7, dst := d.fld Reg.BUR_FM 16 16, src := d.node, pkey := 0xFFFF, len := 8 } d.teleBody false) ∧
      d.teleBody.length = 128) ∧
    ∀ (a : Nat) (e : Ecc) (weak : Bool), inHbm a 1 = true ∨ d.inCap a 1 = true ∨ inSpad a 1 = true →
      (d.windowOpen (scrubWindow a).1 (scrubWindow a).2 = true →
        Becomes (.scrubRead false a e weak) d (d.eccEvent e (eccLane a) (a / poisonUnit a * poisonUnit a)).declare) ∧
      (d.windowOpen (scrubWindow a).1 (scrubWindow a).2 = false → Becomes (.scrubRead false a e weak) d d)
end

