-- ==== Sys2Proof/Laws/Map.lean ====
section
/-!
SUPPORT. Laws of the sparse tables: what a read finds after a write, and that every operation keeps the canonical form.
-/

namespace Sys2Proof.Machine

/-- Keys that rise above a bound are not at or below it. -/
theorem mapFind_above {α : Type} (m : SMap α) (b k : Nat) (h : keysRise (b :: m.map Prod.fst) = true) (hk : k ≤ b) :
    mapFind m k = none := by
  induction m generalizing b with
  | nil => rfl
  | cons e t ih =>
    simp only [List.map_cons, keysRise, Bool.and_eq_true, decide_eq_true_eq] at h
    have := ih e.1 h.2 (by omega)
    simp [mapFind, this]
    omega

/-- Keys that rise above a bound rise. -/
theorem keysRise_tail (b : Nat) (l : List Nat) (h : keysRise (b :: l) = true) : keysRise l = true := by
  cases l with
  | nil => rfl
  | cons a t => simp only [keysRise, Bool.and_eq_true] at h; exact h.2

/-- A read of the key just put finds what was put. -/
theorem mapFind_mapPut_same {α : Type} (m : SMap α) (k : Nat) (o : Option α) (h : keysRise (m.map Prod.fst) = true) :
    mapFind (mapPut m k o) k = o := by
  induction m with
  | nil => cases o <;> simp [mapPut, mapFind]
  | cons e t ih =>
    obtain ⟨k', v'⟩ := e
    have ht := keysRise_tail k' _ h
    unfold mapPut
    split
    · cases o with
      | none =>
        have hf := mapFind_above t k' k h (by omega)
        simp [mapFind, hf]; omega
      | some v => simp [mapFind]
    · split
      · subst_vars
        cases o with
        | none => exact mapFind_above t k' k' h (Nat.le_refl k')
        | some v => simp [mapFind]
      · have : k' ≠ k := by omega
        simp [mapFind, this, ih ht]

/-- A put leaves every other key. -/
theorem mapFind_mapPut_other {α : Type} (m : SMap α) (k j : Nat) (o : Option α) (h : j ≠ k) :
    mapFind (mapPut m k o) j = mapFind m j := by
  induction m with
  | nil => cases o <;> simp [mapPut, mapFind, Ne.symm h]
  | cons e t ih =>
    obtain ⟨k', v'⟩ := e
    unfold mapPut
    split
    · cases o <;> simp [mapFind, Ne.symm h]
    · split
      · subst_vars
        cases o <;> simp [mapFind, Ne.symm h]
      · simp [mapFind, ih]

/-- A put keeps the keys rising, above any bound that it respects. -/
theorem keysRise_mapPut {α : Type} (m : SMap α) (b k : Nat) (o : Option α) (hb : b < k) (h : keysRise (b :: m.map Prod.fst) = true) :
    keysRise (b :: (mapPut m k o).map Prod.fst) = true := by
  induction m generalizing b with
  | nil => cases o <;> simp [mapPut, keysRise, hb]
  | cons e t ih =>
    obtain ⟨k', v'⟩ := e
    simp only [List.map_cons, keysRise, Bool.and_eq_true, decide_eq_true_eq] at h
    unfold mapPut
    split
    · cases o <;> simp [keysRise, *]
    · split
      · subst_vars
        cases o with
        | none =>
          cases t with
          | nil => rfl
          | cons e' t' =>
            have h2 := h.2
            simp only [List.map_cons, keysRise, Bool.and_eq_true, decide_eq_true_eq] at h2 ⊢
            exact ⟨by omega, h2.2⟩
        | some v => simp [keysRise, h]
      · simp only [List.map_cons, keysRise, Bool.and_eq_true, decide_eq_true_eq]
        exact ⟨h.1, ih k' (by omega) h.2⟩

/-- A put keeps the keys rising. -/
theorem keysRise_put {α : Type} (m : SMap α) (k : Nat) (o : Option α) (h : keysRise (m.map Prod.fst) = true) :
    keysRise ((mapPut m k o).map Prod.fst) = true := by
  cases m with
  | nil => cases o <;> rfl
  | cons e t =>
    obtain ⟨k', v'⟩ := e
    unfold mapPut
    split
    · cases o with
      | none => exact h
      | some v =>
        simp only [List.map_cons, keysRise, Bool.and_eq_true, decide_eq_true_eq]
        exact ⟨by assumption, h⟩
    · split
      · cases o with
        | none => exact keysRise_tail k' _ h
        | some v => subst_vars; exact h
      · simp only [List.map_cons]
        exact keysRise_mapPut t k' k o (by omega) h

/-- A member of a table after a put is an old one, or the one put. -/
theorem mem_mapPut {α : Type} (m : SMap α) (k : Nat) (o : Option α) (e : Nat × α) (h : e ∈ mapPut m k o) :
    e ∈ m ∨ ∃ v, o = some v ∧ e = (k, v) := by
  induction m with
  | nil => cases o <;> simp_all [mapPut]
  | cons e' t ih =>
    obtain ⟨k', v'⟩ := e'
    unfold mapPut at h
    split at h
    · cases o with
      | none => exact .inl h
      | some v =>
        rcases List.mem_cons.1 h with h | h
        · exact .inr ⟨v, rfl, h⟩
        · exact .inl h
    · split at h
      · cases o with
        | none => exact .inl (List.mem_cons_of_mem _ h)
        | some v =>
          rcases List.mem_cons.1 h with h | h
          · exact .inr ⟨v, rfl, h⟩
          · exact .inl (List.mem_cons_of_mem _ h)
      · rcases List.mem_cons.1 h with h | h
        · exact .inl (h ▸ List.mem_cons_self)
        · rcases ih h with h | h
          · exact .inl (List.mem_cons_of_mem _ h)
          · exact .inr h

/-- A write keeps the canonical form. -/
theorem mapWf_mapSet {α : Type} [DecidableEq α] (dflt : Nat → α) (m : SMap α) (k : Nat) (v : α) (h : mapWf dflt m = true) :
    mapWf dflt (mapSet dflt m k v) = true := by
  unfold mapWf at h ⊢
  simp only [Bool.and_eq_true, List.all_eq_true, decide_eq_true_eq] at h ⊢
  refine ⟨keysRise_put m k _ h.1, ?_⟩
  intro e he
  rcases mem_mapPut m k _ e he with he | ⟨w, hw, rfl⟩
  · exact h.2 e he
  · split at hw
    · cases hw
    · cases hw; assumption

/-- Every table put into canonical form has it. -/
theorem mapWf_mapCanon {α : Type} [DecidableEq α] (dflt : Nat → α) (m : SMap α) : mapWf dflt (mapCanon dflt m) = true := by
  induction m with
  | nil => rfl
  | cons e t ih => exact mapWf_mapSet dflt _ _ _ ih

/-- A read after a write of the same key, in a canonical table. -/
theorem mapGet_mapSet_same {α : Type} [DecidableEq α] (dflt : Nat → α) (m : SMap α) (k : Nat) (v : α) (h : keysRise (m.map Prod.fst) = true) :
    mapGet dflt (mapSet dflt m k v) k = v := by
  unfold mapGet mapSet
  rw [mapFind_mapPut_same m k _ h]
  split <;> simp_all

/-- A write leaves every other key. -/
theorem mapGet_mapSet_other {α : Type} [DecidableEq α] (dflt : Nat → α) (m : SMap α) (k j : Nat) (v : α) (h : j ≠ k) :
    mapGet dflt (mapSet dflt m k v) j = mapGet dflt m j := by
  unfold mapGet mapSet
  rw [mapFind_mapPut_other m k j _ h]

/-- Canonical form changes no read. -/
theorem mapGet_mapCanon {α : Type} [DecidableEq α] (dflt : Nat → α) (m : SMap α) (k : Nat) : mapGet dflt (mapCanon dflt m) k = mapGet dflt m k := by
  induction m with
  | nil => rfl
  | cons e t ih =>
    have hw : keysRise ((mapCanon dflt t).map Prod.fst) = true := by
      have := mapWf_mapCanon dflt t
      simp only [mapWf, Bool.and_eq_true] at this
      exact this.1
    change mapGet dflt (mapSet dflt (mapCanon dflt t) e.1 e.2) k = _
    by_cases hk : k = e.1
    · subst hk
      rw [mapGet_mapSet_same dflt _ _ _ hw]
      simp [mapGet, mapFind]
    · rw [mapGet_mapSet_other dflt _ _ _ _ hk, ih]
      simp [mapGet, mapFind, Ne.symm hk]

/-- A table in canonical form is its own canonical form: a write in front of all keys of a canonical table. -/
theorem mapSet_front {α : Type} [DecidableEq α] (dflt : Nat → α) (m : SMap α) (k : Nat) (v : α) (hv : v ≠ dflt k)
    (h : keysRise (k :: m.map Prod.fst) = true) : mapSet dflt m k v = (k, v) :: m := by
  unfold mapSet
  rw [if_neg hv]
  cases m with
  | nil => rfl
  | cons e t =>
    simp only [List.map_cons, keysRise, Bool.and_eq_true, decide_eq_true_eq] at h
    simp [mapPut, h.1]

/-- Canonical form is kept. -/
theorem mapCanon_of_wf {α : Type} [DecidableEq α] (dflt : Nat → α) (m : SMap α) (h : mapWf dflt m = true) : mapCanon dflt m = m := by
  induction m with
  | nil => rfl
  | cons e t ih =>
    simp only [mapWf, Bool.and_eq_true, List.all_cons, decide_eq_true_eq, List.map_cons] at h
    have ht : mapWf dflt t = true := by
      simp only [mapWf, Bool.and_eq_true]
      exact ⟨keysRise_tail _ _ h.1, h.2.2⟩
    change mapSet dflt (mapCanon dflt t) e.1 e.2 = _
    rw [ih ht, mapSet_front dflt t e.1 e.2 h.2.1 h.1]

/-- Keeping some keys. -/
theorem mapFind_mapKeep {α : Type} (keep : Nat → Bool) (m : SMap α) (k : Nat) :
    mapFind (mapKeep keep m) k = if keep k then mapFind m k else none := by
  induction m with
  | nil => simp [mapKeep, mapFind]
  | cons e t ih =>
    unfold mapKeep at ih ⊢
    by_cases he : e.1 = k
    · subst he
      cases hk : keep e.1 <;> simp_all [mapFind]
    · cases hk : keep e.1 <;> simp_all [mapFind]

/-- A bound below a rising list bounds the list with members left out. -/
theorem keysRise_filter {α : Type} (keep : Nat × α → Bool) (m : SMap α) (b : Nat) (h : keysRise (b :: m.map Prod.fst) = true) :
    keysRise (b :: (m.filter keep).map Prod.fst) = true := by
  induction m generalizing b with
  | nil => rfl
  | cons e t ih =>
    simp only [List.map_cons, keysRise, Bool.and_eq_true, decide_eq_true_eq] at h
    cases hk : keep e
    · rw [List.filter_cons_of_neg (by simp [hk])]
      refine ih b ?_
      cases t with
      | nil => rfl
      | cons e' t' =>
        have h2 := h.2
        simp only [List.map_cons, keysRise, Bool.and_eq_true, decide_eq_true_eq] at h2 ⊢
        exact ⟨by omega, h2.2⟩
    · rw [List.filter_cons_of_pos hk]
      simp only [List.map_cons, keysRise, Bool.and_eq_true, decide_eq_true_eq]
      exact ⟨h.1, ih e.1 h.2⟩

/-- Keeping some keys keeps the canonical form. -/
theorem mapWf_mapKeep {α : Type} [DecidableEq α] (dflt : Nat → α) (keep : Nat → Bool) (m : SMap α) (h : mapWf dflt m = true) :
    mapWf dflt (mapKeep keep m) = true := by
  simp only [mapWf, Bool.and_eq_true, List.all_eq_true, decide_eq_true_eq] at h ⊢
  refine ⟨?_, fun e he => h.2 e (List.mem_filter.1 he).1⟩
  unfold mapKeep
  induction m with
  | nil => rfl
  | cons e t ih =>
    have ht := keysRise_filter (fun e => keep e.1) t e.1 h.1
    cases hk : keep e.1
    · rw [List.filter_cons_of_neg (by simp [hk])]
      exact keysRise_tail e.1 _ ht
    · rw [List.filter_cons_of_pos (by simp [hk])]
      exact ht

/-- A read of two tables after each other finds the first entry. -/
theorem mapFind_append {α : Type} (p q : SMap α) (k : Nat) : mapFind (p ++ q) k = (mapFind p k).or (mapFind q k) := by
  induction p with
  | nil => simp [mapFind]
  | cons e t ih =>
    simp only [List.cons_append, mapFind]
    split <;> simp [ih]

/-- The entries of written bytes name no byte outside them. -/
theorem mapFind_memFresh_other (bs : Bytes) : ∀ (a k : Nat), (k < a ∨ a + bs.length ≤ k) → mapFind (memFresh a bs) k = none := by
  induction bs with
  | nil => intros; rfl
  | cons b t ih =>
    intro a k h
    simp only [List.length_cons] at h
    have := ih (a + 1) k (by omega)
    unfold memFresh
    split
    · exact this
    · simp only [mapFind]
      rw [if_neg (by omega), this]

/-- The entry of a written byte: none where an unlisted byte reads so. -/
theorem mapFind_memFresh_at (bs : Bytes) : ∀ (a i : Nat) (h : i < bs.length),
    (mapFind (memFresh a bs) (a + i)).getD (memDefault (a + i)) = bs[i] := by
  induction bs with
  | nil => intro a i h; exact absurd h (by simp)
  | cons b t ih =>
    intro a i h
    unfold memFresh
    cases i with
    | zero =>
      have none_ := mapFind_memFresh_other t (a + 1) a (.inl (by omega))
      split
      · simp_all
      · simp [mapFind]
    | succ j =>
      have := ih (a + 1) j (by simpa using h)
      rw [show a + 1 + j = a + (j + 1) by omega] at this
      split
      · simpa using this
      · simp only [mapFind]
        rw [if_neg (by omega)]
        simpa using this

/-- Every entry of written bytes lies among them and is no default. -/
theorem memFresh_mem (bs : Bytes) : ∀ (a : Nat) (e : Host.Cell), e ∈ memFresh a bs →
    a ≤ e.1 ∧ e.1 < a + bs.length ∧ e.2 ≠ memDefault e.1 := by
  induction bs with
  | nil => intro a e h; simp [memFresh] at h
  | cons b t ih =>
    intro a e h
    simp only [List.length_cons]
    unfold memFresh at h
    split at h
    · have := ih (a + 1) e h
      exact ⟨by omega, by omega, this.2.2⟩
    · rename_i hb
      rcases List.mem_cons.1 h with rfl | h
      · exact ⟨Nat.le_refl _, by omega, hb⟩
      · have := ih (a + 1) e h
        exact ⟨by omega, by omega, this.2.2⟩

/-- Keys that rise rise above every bound below them. -/
theorem keysRise_above (b : Nat) (l : List Nat) (h : keysRise l = true) (hb : ∀ k ∈ l, b < k) : keysRise (b :: l) = true := by
  cases l with
  | nil => rfl
  | cons a t => simp [keysRise, hb a (by simp), h]

/-- Rising keys after rising keys below them rise. -/
theorem keysRise_append (p q : List Nat) (hp : keysRise p = true) (hq : keysRise q = true) (h : ∀ a ∈ p, ∀ b ∈ q, a < b) :
    keysRise (p ++ q) = true := by
  induction p with
  | nil => exact hq
  | cons a t ih =>
    have ht := ih (keysRise_tail a t hp) fun x hx y hy => h x (by simp [hx]) y hy
    rw [List.cons_append]
    cases t with
    | nil => exact keysRise_above a q hq fun y hy => h a (by simp) y hy
    | cons c t =>
      simp only [keysRise, Bool.and_eq_true, decide_eq_true_eq, List.cons_append] at hp ht ⊢
      exact ⟨hp.1, ht⟩

/-- The entries of written bytes rise. -/
theorem memFresh_rise (bs : Bytes) : ∀ a : Nat, keysRise ((memFresh a bs).map Prod.fst) = true := by
  induction bs with
  | nil => intro a; rfl
  | cons b t ih =>
    intro a
    unfold memFresh
    split
    · exact ih (a + 1)
    · rw [List.map_cons]
      refine keysRise_above a _ (ih (a + 1)) fun k hk => ?_
      obtain ⟨e, he, rfl⟩ := List.mem_map.1 hk
      have := memFresh_mem t (a + 1) e he
      omega

/-- Writing bytes keeps the canonical form of memory. -/
theorem memSets_wf (m : List Host.Cell) (a : Nat) (bs : Bytes) (h : Memory.wf m = true) :
    Memory.wf (memSets m a bs) = true := by
  have low := mapWf_mapKeep memDefault (fun k => decide (k < a)) m h
  have high := mapWf_mapKeep memDefault (fun k => decide (a + bs.length ≤ k)) m h
  simp only [Memory.wf, mapWf, Bool.and_eq_true, List.all_eq_true, decide_eq_true_eq] at low high ⊢
  have inLow : ∀ e ∈ mapKeep (fun k => decide (k < a)) m, e.1 < a := fun e he => by
    simpa using (List.mem_filter.1 he).2
  have inHigh : ∀ e ∈ mapKeep (fun k => decide (a + bs.length ≤ k)) m, a + bs.length ≤ e.1 := fun e he => by
    simpa using (List.mem_filter.1 he).2
  constructor
  · simp only [memSets, List.map_append]
    refine keysRise_append _ _ (keysRise_append _ _ low.1 (memFresh_rise bs a) ?_) high.1 ?_
    · intro x hx y hy
      obtain ⟨e, he, rfl⟩ := List.mem_map.1 hx
      obtain ⟨f, hf, rfl⟩ := List.mem_map.1 hy
      have := inLow e he
      have := memFresh_mem bs a f hf
      omega
    · intro x hx y hy
      obtain ⟨f, hf, rfl⟩ := List.mem_map.1 hy
      have := inHigh f hf
      rcases List.mem_append.1 hx with hx | hx
      · obtain ⟨e, he, rfl⟩ := List.mem_map.1 hx
        have := inLow e he
        omega
      · obtain ⟨e, he, rfl⟩ := List.mem_map.1 hx
        have := memFresh_mem bs a e he
        omega
  · intro e he
    rcases List.mem_append.1 he with he | he
    · rcases List.mem_append.1 he with he | he
      · exact low.2 e he
      · exact (memFresh_mem bs a e he).2.2
    · exact high.2 e he

/-- The memory of every state that a command leaves is canonical. -/
theorem settle_mem_wf (d : Dev) : Memory.wf d.settle.mem = true := mapWf_mapCanon memDefault d.mem

end Sys2Proof.Machine
end

