-- ==== Sys2Proof/Laws/State.lean ====
section
/-!
SUPPORT. What each update of the block leaves: one lemma per field and per reader, so that no later proof unfolds a record update.
-/

namespace Sys2Proof.Machine

/-! ### setReg -/

@[simp] theorem Dev.setReg_time (d : Dev) (off : Nat) (v : Word) : (d.setReg off v).time = d.time := rfl
@[simp] theorem Dev.setReg_hubLocked (d : Dev) (off : Nat) (v : Word) : (d.setReg off v).hubLocked = d.hubLocked := rfl
@[simp] theorem Dev.setReg_mem (d : Dev) (off : Nat) (v : Word) : (d.setReg off v).mem = d.mem := rfl
@[simp] theorem Dev.setReg_poison (d : Dev) (off : Nat) (v : Word) : (d.setReg off v).poison = d.poison := rfl
@[simp] theorem Dev.setReg_out (d : Dev) (off : Nat) (v : Word) : (d.setReg off v).out = d.out := rfl
@[simp] theorem Dev.setReg_freeCtr (d : Dev) (off : Nat) (v : Word) : (d.setReg off v).freeCtr = d.freeCtr := rfl
@[simp] theorem Dev.setReg_planCmd (d : Dev) (off : Nat) (v : Word) : (d.setReg off v).planCmd = d.planCmd := rfl
@[simp] theorem Dev.setReg_ctxs (d : Dev) (off : Nat) (v : Word) : (d.setReg off v).ctxs = d.ctxs := rfl
@[simp] theorem Dev.setReg_objs (d : Dev) (off : Nat) (v : Word) : (d.setReg off v).objs = d.objs := rfl
@[simp] theorem Dev.setReg_syncQ (d : Dev) (off : Nat) (v : Word) : (d.setReg off v).syncQ = d.syncQ := rfl
@[simp] theorem Dev.setReg_trks (d : Dev) (off : Nat) (v : Word) : (d.setReg off v).trks = d.trks := rfl
@[simp] theorem Dev.setReg_seqs (d : Dev) (off : Nat) (v : Word) : (d.setReg off v).seqs = d.seqs := rfl
@[simp] theorem Dev.setReg_clus (d : Dev) (off : Nat) (v : Word) : (d.setReg off v).clus = d.clus := rfl
@[simp] theorem Dev.setReg_descs (d : Dev) (off : Nat) (v : Word) : (d.setReg off v).descs = d.descs := rfl
@[simp] theorem Dev.setReg_plls (d : Dev) (off : Nat) (v : Word) : (d.setReg off v).plls = d.plls := rfl
@[simp] theorem Dev.setReg_windows (d : Dev) (off : Nat) (v : Word) : (d.setReg off v).windows = d.windows := rfl
@[simp] theorem Dev.setReg_run (d : Dev) (off : Nat) (v : Word) : (d.setReg off v).run = d.run := rfl
@[simp] theorem Dev.setReg_trkGen (d : Dev) (off : Nat) (v : Word) : (d.setReg off v).trkGen = d.trkGen := rfl
@[simp] theorem Dev.setReg_lwrites (d : Dev) (off : Nat) (v : Word) : (d.setReg off v).lwrites = d.lwrites := rfl
@[simp] theorem Dev.setReg_tierEnts (d : Dev) (off : Nat) (v : Word) : (d.setReg off v).tierEnts = d.tierEnts := rfl
@[simp] theorem Dev.setReg_prefetch (d : Dev) (off : Nat) (v : Word) : (d.setReg off v).prefetch = d.prefetch := rfl
@[simp] theorem Dev.setReg_rtr (d : Dev) (off : Nat) (v : Word) : (d.setReg off v).rtr = d.rtr := rfl
@[simp] theorem Dev.setReg_combine (d : Dev) (off : Nat) (v : Word) : (d.setReg off v).combine = d.combine := rfl
@[simp] theorem Dev.setReg_mcast (d : Dev) (off : Nat) (v : Word) : (d.setReg off v).mcast = d.mcast := rfl
@[simp] theorem Dev.setReg_links (d : Dev) (off : Nat) (v : Word) : (d.setReg off v).links = d.links := rfl
@[simp] theorem Dev.setReg_credit (d : Dev) (off : Nat) (v : Word) : (d.setReg off v).credit = d.credit := rfl
@[simp] theorem Dev.setReg_drr (d : Dev) (off : Nat) (v : Word) : (d.setReg off v).drr = d.drr := rfl
@[simp] theorem Dev.setReg_creditDue (d : Dev) (off : Nat) (v : Word) : (d.setReg off v).creditDue = d.creditDue := rfl
@[simp] theorem Dev.setReg_disc (d : Dev) (off : Nat) (v : Word) : (d.setReg off v).disc = d.disc := rfl
@[simp] theorem Dev.setReg_swingNow (d : Dev) (off : Nat) (v : Word) : (d.setReg off v).swingNow = d.swingNow := rfl
@[simp] theorem Dev.setReg_swingMsg (d : Dev) (off : Nat) (v : Word) : (d.setReg off v).swingMsg = d.swingMsg := rfl
@[simp] theorem Dev.setReg_linkOff (d : Dev) (off : Nat) (v : Word) : (d.setReg off v).linkOff = d.linkOff := rfl
@[simp] theorem Dev.setReg_parked (d : Dev) (off : Nat) (v : Word) : (d.setReg off v).parked = d.parked := rfl
@[simp] theorem Dev.setReg_cabRec (d : Dev) (off : Nat) (v : Word) : (d.setReg off v).cabRec = d.cabRec := rfl
@[simp] theorem Dev.setReg_jobs (d : Dev) (off : Nat) (v : Word) : (d.setReg off v).jobs = d.jobs := rfl
@[simp] theorem Dev.setReg_cache (d : Dev) (off : Nat) (v : Word) : (d.setReg off v).cache = d.cache := rfl
@[simp] theorem Dev.setReg_biasWritten (d : Dev) (off : Nat) (v : Word) : (d.setReg off v).biasWritten = d.biasWritten := rfl
@[simp] theorem Dev.setReg_placeTab (d : Dev) (off : Nat) (v : Word) : (d.setReg off v).placeTab = d.placeTab := rfl
@[simp] theorem Dev.setReg_placePend (d : Dev) (off : Nat) (v : Word) : (d.setReg off v).placePend = d.placePend := rfl
@[simp] theorem Dev.setReg_colls (d : Dev) (off : Nat) (v : Word) : (d.setReg off v).colls = d.colls := rfl
@[simp] theorem Dev.setReg_collSeq (d : Dev) (off : Nat) (v : Word) : (d.setReg off v).collSeq = d.collSeq := rfl
@[simp] theorem Dev.setReg_staged (d : Dev) (off : Nat) (v : Word) : (d.setReg off v).staged = d.staged := rfl
@[simp] theorem Dev.setReg_chest (d : Dev) (off : Nat) (v : Word) : (d.setReg off v).chest = d.chest := rfl
@[simp] theorem Dev.setReg_nsCmd (d : Dev) (off : Nat) (v : Word) : (d.setReg off v).nsCmd = d.nsCmd := rfl
@[simp] theorem Dev.setReg_qps (d : Dev) (off : Nat) (v : Word) : (d.setReg off v).qps = d.qps := rfl
@[simp] theorem Dev.setReg_netPause (d : Dev) (off : Nat) (v : Word) : (d.setReg off v).netPause = d.netPause := rfl
@[simp] theorem Dev.setReg_netStage (d : Dev) (off : Nat) (v : Word) : (d.setReg off v).netStage = d.netStage := rfl
@[simp] theorem Dev.setReg_snaps (d : Dev) (off : Nat) (v : Word) : (d.setReg off v).snaps = d.snaps := rfl
@[simp] theorem Dev.setReg_restore (d : Dev) (off : Nat) (v : Word) : (d.setReg off v).restore = d.restore := rfl
@[simp] theorem Dev.setReg_trs (d : Dev) (off : Nat) (v : Word) : (d.setReg off v).trs = d.trs := rfl
@[simp] theorem Dev.setReg_placeCmd (d : Dev) (off : Nat) (v : Word) : (d.setReg off v).placeCmd = d.placeCmd := rfl
@[simp] theorem Dev.setReg_msixMask (d : Dev) (off : Nat) (v : Word) : (d.setReg off v).msixMask = d.msixMask := rfl
@[simp] theorem Dev.setReg_msixPend (d : Dev) (off : Nat) (v : Word) : (d.setReg off v).msixPend = d.msixPend := rfl
@[simp] theorem Dev.setReg_boot (d : Dev) (off : Nat) (v : Word) : (d.setReg off v).boot = d.boot := rfl
@[simp] theorem Dev.setReg_nv (d : Dev) (off : Nat) (v : Word) : (d.setReg off v).nv = d.nv := rfl
@[simp] theorem Dev.setReg_aon (d : Dev) (off : Nat) (v : Word) : (d.setReg off v).aon = d.aon := rfl
@[simp] theorem Dev.setReg_slots (d : Dev) (off : Nat) (v : Word) : (d.setReg off v).slots = d.slots := rfl
@[simp] theorem Dev.setReg_cabPend (d : Dev) (off : Nat) (v : Word) : (d.setReg off v).cabPend = d.cabPend := rfl
@[simp] theorem Dev.setReg_netWait (d : Dev) (off : Nat) (v : Word) : (d.setReg off v).netWait = d.netWait := rfl
@[simp] theorem Dev.setReg_ctx_read (d : Dev) (off : Nat) (v : Word) (y : Nat) : (d.setReg off v).ctx y = d.ctx y := rfl
@[simp] theorem Dev.setReg_clu_read (d : Dev) (off : Nat) (v : Word) (j : Nat) : (d.setReg off v).clu j = d.clu j := rfl
@[simp] theorem Dev.setReg_obj_read (d : Dev) (off : Nat) (v : Word) (j : Nat) : (d.setReg off v).obj j = d.obj j := rfl
@[simp] theorem Dev.setReg_trk_read (d : Dev) (off : Nat) (v : Word) (j : Nat) : (d.setReg off v).trk j = d.trk j := rfl
@[simp] theorem Dev.setReg_seqr_read (d : Dev) (off : Nat) (v : Word) (e y : Nat) : (d.setReg off v).seqr e y = d.seqr e y := rfl
@[simp] theorem Dev.setReg_byte_read (d : Dev) (off : Nat) (v : Word) (b : Nat) : (d.setReg off v).byte b = d.byte b := rfl
@[simp] theorem Dev.setReg_gen_read (d : Dev) (off : Nat) (v : Word) (j : Nat) : (d.setReg off v).gen j = d.gen j := rfl

/-! ### setCtx -/

@[simp] theorem Dev.setCtx_time (d : Dev) (x : Nat) (c : Ctx) : (d.setCtx x c).time = d.time := rfl
@[simp] theorem Dev.setCtx_hubLocked (d : Dev) (x : Nat) (c : Ctx) : (d.setCtx x c).hubLocked = d.hubLocked := rfl
@[simp] theorem Dev.setCtx_csr (d : Dev) (x : Nat) (c : Ctx) : (d.setCtx x c).csr = d.csr := rfl
@[simp] theorem Dev.setCtx_mem (d : Dev) (x : Nat) (c : Ctx) : (d.setCtx x c).mem = d.mem := rfl
@[simp] theorem Dev.setCtx_poison (d : Dev) (x : Nat) (c : Ctx) : (d.setCtx x c).poison = d.poison := rfl
@[simp] theorem Dev.setCtx_out (d : Dev) (x : Nat) (c : Ctx) : (d.setCtx x c).out = d.out := rfl
@[simp] theorem Dev.setCtx_freeCtr (d : Dev) (x : Nat) (c : Ctx) : (d.setCtx x c).freeCtr = d.freeCtr := rfl
@[simp] theorem Dev.setCtx_planCmd (d : Dev) (x : Nat) (c : Ctx) : (d.setCtx x c).planCmd = d.planCmd := rfl
@[simp] theorem Dev.setCtx_objs (d : Dev) (x : Nat) (c : Ctx) : (d.setCtx x c).objs = d.objs := rfl
@[simp] theorem Dev.setCtx_syncQ (d : Dev) (x : Nat) (c : Ctx) : (d.setCtx x c).syncQ = d.syncQ := rfl
@[simp] theorem Dev.setCtx_trks (d : Dev) (x : Nat) (c : Ctx) : (d.setCtx x c).trks = d.trks := rfl
@[simp] theorem Dev.setCtx_seqs (d : Dev) (x : Nat) (c : Ctx) : (d.setCtx x c).seqs = d.seqs := rfl
@[simp] theorem Dev.setCtx_clus (d : Dev) (x : Nat) (c : Ctx) : (d.setCtx x c).clus = d.clus := rfl
@[simp] theorem Dev.setCtx_descs (d : Dev) (x : Nat) (c : Ctx) : (d.setCtx x c).descs = d.descs := rfl
@[simp] theorem Dev.setCtx_plls (d : Dev) (x : Nat) (c : Ctx) : (d.setCtx x c).plls = d.plls := rfl
@[simp] theorem Dev.setCtx_windows (d : Dev) (x : Nat) (c : Ctx) : (d.setCtx x c).windows = d.windows := rfl
@[simp] theorem Dev.setCtx_run (d : Dev) (x : Nat) (c : Ctx) : (d.setCtx x c).run = d.run := rfl
@[simp] theorem Dev.setCtx_trkGen (d : Dev) (x : Nat) (c : Ctx) : (d.setCtx x c).trkGen = d.trkGen := rfl
@[simp] theorem Dev.setCtx_lwrites (d : Dev) (x : Nat) (c : Ctx) : (d.setCtx x c).lwrites = d.lwrites := rfl
@[simp] theorem Dev.setCtx_tierEnts (d : Dev) (x : Nat) (c : Ctx) : (d.setCtx x c).tierEnts = d.tierEnts := rfl
@[simp] theorem Dev.setCtx_prefetch (d : Dev) (x : Nat) (c : Ctx) : (d.setCtx x c).prefetch = d.prefetch := rfl
@[simp] theorem Dev.setCtx_rtr (d : Dev) (x : Nat) (c : Ctx) : (d.setCtx x c).rtr = d.rtr := rfl
@[simp] theorem Dev.setCtx_combine (d : Dev) (x : Nat) (c : Ctx) : (d.setCtx x c).combine = d.combine := rfl
@[simp] theorem Dev.setCtx_mcast (d : Dev) (x : Nat) (c : Ctx) : (d.setCtx x c).mcast = d.mcast := rfl
@[simp] theorem Dev.setCtx_links (d : Dev) (x : Nat) (c : Ctx) : (d.setCtx x c).links = d.links := rfl
@[simp] theorem Dev.setCtx_credit (d : Dev) (x : Nat) (c : Ctx) : (d.setCtx x c).credit = d.credit := rfl
@[simp] theorem Dev.setCtx_drr (d : Dev) (x : Nat) (c : Ctx) : (d.setCtx x c).drr = d.drr := rfl
@[simp] theorem Dev.setCtx_creditDue (d : Dev) (x : Nat) (c : Ctx) : (d.setCtx x c).creditDue = d.creditDue := rfl
@[simp] theorem Dev.setCtx_disc (d : Dev) (x : Nat) (c : Ctx) : (d.setCtx x c).disc = d.disc := rfl
@[simp] theorem Dev.setCtx_swingNow (d : Dev) (x : Nat) (c : Ctx) : (d.setCtx x c).swingNow = d.swingNow := rfl
@[simp] theorem Dev.setCtx_swingMsg (d : Dev) (x : Nat) (c : Ctx) : (d.setCtx x c).swingMsg = d.swingMsg := rfl
@[simp] theorem Dev.setCtx_linkOff (d : Dev) (x : Nat) (c : Ctx) : (d.setCtx x c).linkOff = d.linkOff := rfl
@[simp] theorem Dev.setCtx_parked (d : Dev) (x : Nat) (c : Ctx) : (d.setCtx x c).parked = d.parked := rfl
@[simp] theorem Dev.setCtx_cabRec (d : Dev) (x : Nat) (c : Ctx) : (d.setCtx x c).cabRec = d.cabRec := rfl
@[simp] theorem Dev.setCtx_jobs (d : Dev) (x : Nat) (c : Ctx) : (d.setCtx x c).jobs = d.jobs := rfl
@[simp] theorem Dev.setCtx_cache (d : Dev) (x : Nat) (c : Ctx) : (d.setCtx x c).cache = d.cache := rfl
@[simp] theorem Dev.setCtx_biasWritten (d : Dev) (x : Nat) (c : Ctx) : (d.setCtx x c).biasWritten = d.biasWritten := rfl
@[simp] theorem Dev.setCtx_placeTab (d : Dev) (x : Nat) (c : Ctx) : (d.setCtx x c).placeTab = d.placeTab := rfl
@[simp] theorem Dev.setCtx_placePend (d : Dev) (x : Nat) (c : Ctx) : (d.setCtx x c).placePend = d.placePend := rfl
@[simp] theorem Dev.setCtx_colls (d : Dev) (x : Nat) (c : Ctx) : (d.setCtx x c).colls = d.colls := rfl
@[simp] theorem Dev.setCtx_collSeq (d : Dev) (x : Nat) (c : Ctx) : (d.setCtx x c).collSeq = d.collSeq := rfl
@[simp] theorem Dev.setCtx_staged (d : Dev) (x : Nat) (c : Ctx) : (d.setCtx x c).staged = d.staged := rfl
@[simp] theorem Dev.setCtx_chest (d : Dev) (x : Nat) (c : Ctx) : (d.setCtx x c).chest = d.chest := rfl
@[simp] theorem Dev.setCtx_nsCmd (d : Dev) (x : Nat) (c : Ctx) : (d.setCtx x c).nsCmd = d.nsCmd := rfl
@[simp] theorem Dev.setCtx_qps (d : Dev) (x : Nat) (c : Ctx) : (d.setCtx x c).qps = d.qps := rfl
@[simp] theorem Dev.setCtx_netPause (d : Dev) (x : Nat) (c : Ctx) : (d.setCtx x c).netPause = d.netPause := rfl
@[simp] theorem Dev.setCtx_netStage (d : Dev) (x : Nat) (c : Ctx) : (d.setCtx x c).netStage = d.netStage := rfl
@[simp] theorem Dev.setCtx_snaps (d : Dev) (x : Nat) (c : Ctx) : (d.setCtx x c).snaps = d.snaps := rfl
@[simp] theorem Dev.setCtx_restore (d : Dev) (x : Nat) (c : Ctx) : (d.setCtx x c).restore = d.restore := rfl
@[simp] theorem Dev.setCtx_trs (d : Dev) (x : Nat) (c : Ctx) : (d.setCtx x c).trs = d.trs := rfl
@[simp] theorem Dev.setCtx_placeCmd (d : Dev) (x : Nat) (c : Ctx) : (d.setCtx x c).placeCmd = d.placeCmd := rfl
@[simp] theorem Dev.setCtx_msixMask (d : Dev) (x : Nat) (c : Ctx) : (d.setCtx x c).msixMask = d.msixMask := rfl
@[simp] theorem Dev.setCtx_msixPend (d : Dev) (x : Nat) (c : Ctx) : (d.setCtx x c).msixPend = d.msixPend := rfl
@[simp] theorem Dev.setCtx_boot (d : Dev) (x : Nat) (c : Ctx) : (d.setCtx x c).boot = d.boot := rfl
@[simp] theorem Dev.setCtx_nv (d : Dev) (x : Nat) (c : Ctx) : (d.setCtx x c).nv = d.nv := rfl
@[simp] theorem Dev.setCtx_aon (d : Dev) (x : Nat) (c : Ctx) : (d.setCtx x c).aon = d.aon := rfl
@[simp] theorem Dev.setCtx_slots (d : Dev) (x : Nat) (c : Ctx) : (d.setCtx x c).slots = d.slots := rfl
@[simp] theorem Dev.setCtx_cabPend (d : Dev) (x : Nat) (c : Ctx) : (d.setCtx x c).cabPend = d.cabPend := rfl
@[simp] theorem Dev.setCtx_netWait (d : Dev) (x : Nat) (c : Ctx) : (d.setCtx x c).netWait = d.netWait := rfl
@[simp] theorem Dev.setCtx_reg_read (d : Dev) (x : Nat) (c : Ctx) (p : Nat) : (d.setCtx x c).reg p = d.reg p := rfl
@[simp] theorem Dev.setCtx_fld_read (d : Dev) (x : Nat) (c : Ctx) (p lo w : Nat) : (d.setCtx x c).fld p lo w = d.fld p lo w := rfl
@[simp] theorem Dev.setCtx_bit_read (d : Dev) (x : Nat) (c : Ctx) (p n : Nat) : (d.setCtx x c).bit p n = d.bit p n := rfl
@[simp] theorem Dev.setCtx_clu_read (d : Dev) (x : Nat) (c : Ctx) (j : Nat) : (d.setCtx x c).clu j = d.clu j := rfl
@[simp] theorem Dev.setCtx_obj_read (d : Dev) (x : Nat) (c : Ctx) (j : Nat) : (d.setCtx x c).obj j = d.obj j := rfl
@[simp] theorem Dev.setCtx_trk_read (d : Dev) (x : Nat) (c : Ctx) (j : Nat) : (d.setCtx x c).trk j = d.trk j := rfl
@[simp] theorem Dev.setCtx_seqr_read (d : Dev) (x : Nat) (c : Ctx) (e y : Nat) : (d.setCtx x c).seqr e y = d.seqr e y := rfl
@[simp] theorem Dev.setCtx_byte_read (d : Dev) (x : Nat) (c : Ctx) (b : Nat) : (d.setCtx x c).byte b = d.byte b := rfl
@[simp] theorem Dev.setCtx_gen_read (d : Dev) (x : Nat) (c : Ctx) (j : Nat) : (d.setCtx x c).gen j = d.gen j := rfl

/-! ### setClu -/

@[simp] theorem Dev.setClu_time (d : Dev) (c : Nat) (k : Cluster) : (d.setClu c k).time = d.time := rfl
@[simp] theorem Dev.setClu_hubLocked (d : Dev) (c : Nat) (k : Cluster) : (d.setClu c k).hubLocked = d.hubLocked := rfl
@[simp] theorem Dev.setClu_csr (d : Dev) (c : Nat) (k : Cluster) : (d.setClu c k).csr = d.csr := rfl
@[simp] theorem Dev.setClu_mem (d : Dev) (c : Nat) (k : Cluster) : (d.setClu c k).mem = d.mem := rfl
@[simp] theorem Dev.setClu_poison (d : Dev) (c : Nat) (k : Cluster) : (d.setClu c k).poison = d.poison := rfl
@[simp] theorem Dev.setClu_out (d : Dev) (c : Nat) (k : Cluster) : (d.setClu c k).out = d.out := rfl
@[simp] theorem Dev.setClu_freeCtr (d : Dev) (c : Nat) (k : Cluster) : (d.setClu c k).freeCtr = d.freeCtr := rfl
@[simp] theorem Dev.setClu_planCmd (d : Dev) (c : Nat) (k : Cluster) : (d.setClu c k).planCmd = d.planCmd := rfl
@[simp] theorem Dev.setClu_ctxs (d : Dev) (c : Nat) (k : Cluster) : (d.setClu c k).ctxs = d.ctxs := rfl
@[simp] theorem Dev.setClu_objs (d : Dev) (c : Nat) (k : Cluster) : (d.setClu c k).objs = d.objs := rfl
@[simp] theorem Dev.setClu_syncQ (d : Dev) (c : Nat) (k : Cluster) : (d.setClu c k).syncQ = d.syncQ := rfl
@[simp] theorem Dev.setClu_trks (d : Dev) (c : Nat) (k : Cluster) : (d.setClu c k).trks = d.trks := rfl
@[simp] theorem Dev.setClu_seqs (d : Dev) (c : Nat) (k : Cluster) : (d.setClu c k).seqs = d.seqs := rfl
@[simp] theorem Dev.setClu_descs (d : Dev) (c : Nat) (k : Cluster) : (d.setClu c k).descs = d.descs := rfl
@[simp] theorem Dev.setClu_plls (d : Dev) (c : Nat) (k : Cluster) : (d.setClu c k).plls = d.plls := rfl
@[simp] theorem Dev.setClu_windows (d : Dev) (c : Nat) (k : Cluster) : (d.setClu c k).windows = d.windows := rfl
@[simp] theorem Dev.setClu_run (d : Dev) (c : Nat) (k : Cluster) : (d.setClu c k).run = d.run := rfl
@[simp] theorem Dev.setClu_trkGen (d : Dev) (c : Nat) (k : Cluster) : (d.setClu c k).trkGen = d.trkGen := rfl
@[simp] theorem Dev.setClu_lwrites (d : Dev) (c : Nat) (k : Cluster) : (d.setClu c k).lwrites = d.lwrites := rfl
@[simp] theorem Dev.setClu_tierEnts (d : Dev) (c : Nat) (k : Cluster) : (d.setClu c k).tierEnts = d.tierEnts := rfl
@[simp] theorem Dev.setClu_prefetch (d : Dev) (c : Nat) (k : Cluster) : (d.setClu c k).prefetch = d.prefetch := rfl
@[simp] theorem Dev.setClu_rtr (d : Dev) (c : Nat) (k : Cluster) : (d.setClu c k).rtr = d.rtr := rfl
@[simp] theorem Dev.setClu_combine (d : Dev) (c : Nat) (k : Cluster) : (d.setClu c k).combine = d.combine := rfl
@[simp] theorem Dev.setClu_mcast (d : Dev) (c : Nat) (k : Cluster) : (d.setClu c k).mcast = d.mcast := rfl
@[simp] theorem Dev.setClu_links (d : Dev) (c : Nat) (k : Cluster) : (d.setClu c k).links = d.links := rfl
@[simp] theorem Dev.setClu_credit (d : Dev) (c : Nat) (k : Cluster) : (d.setClu c k).credit = d.credit := rfl
@[simp] theorem Dev.setClu_drr (d : Dev) (c : Nat) (k : Cluster) : (d.setClu c k).drr = d.drr := rfl
@[simp] theorem Dev.setClu_creditDue (d : Dev) (c : Nat) (k : Cluster) : (d.setClu c k).creditDue = d.creditDue := rfl
@[simp] theorem Dev.setClu_disc (d : Dev) (c : Nat) (k : Cluster) : (d.setClu c k).disc = d.disc := rfl
@[simp] theorem Dev.setClu_swingNow (d : Dev) (c : Nat) (k : Cluster) : (d.setClu c k).swingNow = d.swingNow := rfl
@[simp] theorem Dev.setClu_swingMsg (d : Dev) (c : Nat) (k : Cluster) : (d.setClu c k).swingMsg = d.swingMsg := rfl
@[simp] theorem Dev.setClu_linkOff (d : Dev) (c : Nat) (k : Cluster) : (d.setClu c k).linkOff = d.linkOff := rfl
@[simp] theorem Dev.setClu_parked (d : Dev) (c : Nat) (k : Cluster) : (d.setClu c k).parked = d.parked := rfl
@[simp] theorem Dev.setClu_cabRec (d : Dev) (c : Nat) (k : Cluster) : (d.setClu c k).cabRec = d.cabRec := rfl
@[simp] theorem Dev.setClu_jobs (d : Dev) (c : Nat) (k : Cluster) : (d.setClu c k).jobs = d.jobs := rfl
@[simp] theorem Dev.setClu_cache (d : Dev) (c : Nat) (k : Cluster) : (d.setClu c k).cache = d.cache := rfl
@[simp] theorem Dev.setClu_biasWritten (d : Dev) (c : Nat) (k : Cluster) : (d.setClu c k).biasWritten = d.biasWritten := rfl
@[simp] theorem Dev.setClu_placeTab (d : Dev) (c : Nat) (k : Cluster) : (d.setClu c k).placeTab = d.placeTab := rfl
@[simp] theorem Dev.setClu_placePend (d : Dev) (c : Nat) (k : Cluster) : (d.setClu c k).placePend = d.placePend := rfl
@[simp] theorem Dev.setClu_colls (d : Dev) (c : Nat) (k : Cluster) : (d.setClu c k).colls = d.colls := rfl
@[simp] theorem Dev.setClu_collSeq (d : Dev) (c : Nat) (k : Cluster) : (d.setClu c k).collSeq = d.collSeq := rfl
@[simp] theorem Dev.setClu_staged (d : Dev) (c : Nat) (k : Cluster) : (d.setClu c k).staged = d.staged := rfl
@[simp] theorem Dev.setClu_chest (d : Dev) (c : Nat) (k : Cluster) : (d.setClu c k).chest = d.chest := rfl
@[simp] theorem Dev.setClu_nsCmd (d : Dev) (c : Nat) (k : Cluster) : (d.setClu c k).nsCmd = d.nsCmd := rfl
@[simp] theorem Dev.setClu_qps (d : Dev) (c : Nat) (k : Cluster) : (d.setClu c k).qps = d.qps := rfl
@[simp] theorem Dev.setClu_netPause (d : Dev) (c : Nat) (k : Cluster) : (d.setClu c k).netPause = d.netPause := rfl
@[simp] theorem Dev.setClu_netStage (d : Dev) (c : Nat) (k : Cluster) : (d.setClu c k).netStage = d.netStage := rfl
@[simp] theorem Dev.setClu_snaps (d : Dev) (c : Nat) (k : Cluster) : (d.setClu c k).snaps = d.snaps := rfl
@[simp] theorem Dev.setClu_restore (d : Dev) (c : Nat) (k : Cluster) : (d.setClu c k).restore = d.restore := rfl
@[simp] theorem Dev.setClu_trs (d : Dev) (c : Nat) (k : Cluster) : (d.setClu c k).trs = d.trs := rfl
@[simp] theorem Dev.setClu_placeCmd (d : Dev) (c : Nat) (k : Cluster) : (d.setClu c k).placeCmd = d.placeCmd := rfl
@[simp] theorem Dev.setClu_msixMask (d : Dev) (c : Nat) (k : Cluster) : (d.setClu c k).msixMask = d.msixMask := rfl
@[simp] theorem Dev.setClu_msixPend (d : Dev) (c : Nat) (k : Cluster) : (d.setClu c k).msixPend = d.msixPend := rfl
@[simp] theorem Dev.setClu_boot (d : Dev) (c : Nat) (k : Cluster) : (d.setClu c k).boot = d.boot := rfl
@[simp] theorem Dev.setClu_nv (d : Dev) (c : Nat) (k : Cluster) : (d.setClu c k).nv = d.nv := rfl
@[simp] theorem Dev.setClu_aon (d : Dev) (c : Nat) (k : Cluster) : (d.setClu c k).aon = d.aon := rfl
@[simp] theorem Dev.setClu_slots (d : Dev) (c : Nat) (k : Cluster) : (d.setClu c k).slots = d.slots := rfl
@[simp] theorem Dev.setClu_cabPend (d : Dev) (c : Nat) (k : Cluster) : (d.setClu c k).cabPend = d.cabPend := rfl
@[simp] theorem Dev.setClu_netWait (d : Dev) (c : Nat) (k : Cluster) : (d.setClu c k).netWait = d.netWait := rfl
@[simp] theorem Dev.setClu_reg_read (d : Dev) (c : Nat) (k : Cluster) (p : Nat) : (d.setClu c k).reg p = d.reg p := rfl
@[simp] theorem Dev.setClu_fld_read (d : Dev) (c : Nat) (k : Cluster) (p lo w : Nat) : (d.setClu c k).fld p lo w = d.fld p lo w := rfl
@[simp] theorem Dev.setClu_bit_read (d : Dev) (c : Nat) (k : Cluster) (p n : Nat) : (d.setClu c k).bit p n = d.bit p n := rfl
@[simp] theorem Dev.setClu_ctx_read (d : Dev) (c : Nat) (k : Cluster) (y : Nat) : (d.setClu c k).ctx y = d.ctx y := rfl
@[simp] theorem Dev.setClu_obj_read (d : Dev) (c : Nat) (k : Cluster) (j : Nat) : (d.setClu c k).obj j = d.obj j := rfl
@[simp] theorem Dev.setClu_trk_read (d : Dev) (c : Nat) (k : Cluster) (j : Nat) : (d.setClu c k).trk j = d.trk j := rfl
@[simp] theorem Dev.setClu_seqr_read (d : Dev) (c : Nat) (k : Cluster) (e y : Nat) : (d.setClu c k).seqr e y = d.seqr e y := rfl
@[simp] theorem Dev.setClu_byte_read (d : Dev) (c : Nat) (k : Cluster) (b : Nat) : (d.setClu c k).byte b = d.byte b := rfl
@[simp] theorem Dev.setClu_gen_read (d : Dev) (c : Nat) (k : Cluster) (j : Nat) : (d.setClu c k).gen j = d.gen j := rfl

/-! ### setObj -/

@[simp] theorem Dev.setObj_time (d : Dev) (i : Nat) (o : SyncObj) : (d.setObj i o).time = d.time := rfl
@[simp] theorem Dev.setObj_hubLocked (d : Dev) (i : Nat) (o : SyncObj) : (d.setObj i o).hubLocked = d.hubLocked := rfl
@[simp] theorem Dev.setObj_csr (d : Dev) (i : Nat) (o : SyncObj) : (d.setObj i o).csr = d.csr := rfl
@[simp] theorem Dev.setObj_mem (d : Dev) (i : Nat) (o : SyncObj) : (d.setObj i o).mem = d.mem := rfl
@[simp] theorem Dev.setObj_poison (d : Dev) (i : Nat) (o : SyncObj) : (d.setObj i o).poison = d.poison := rfl
@[simp] theorem Dev.setObj_out (d : Dev) (i : Nat) (o : SyncObj) : (d.setObj i o).out = d.out := rfl
@[simp] theorem Dev.setObj_freeCtr (d : Dev) (i : Nat) (o : SyncObj) : (d.setObj i o).freeCtr = d.freeCtr := rfl
@[simp] theorem Dev.setObj_planCmd (d : Dev) (i : Nat) (o : SyncObj) : (d.setObj i o).planCmd = d.planCmd := rfl
@[simp] theorem Dev.setObj_ctxs (d : Dev) (i : Nat) (o : SyncObj) : (d.setObj i o).ctxs = d.ctxs := rfl
@[simp] theorem Dev.setObj_syncQ (d : Dev) (i : Nat) (o : SyncObj) : (d.setObj i o).syncQ = d.syncQ := rfl
@[simp] theorem Dev.setObj_trks (d : Dev) (i : Nat) (o : SyncObj) : (d.setObj i o).trks = d.trks := rfl
@[simp] theorem Dev.setObj_seqs (d : Dev) (i : Nat) (o : SyncObj) : (d.setObj i o).seqs = d.seqs := rfl
@[simp] theorem Dev.setObj_clus (d : Dev) (i : Nat) (o : SyncObj) : (d.setObj i o).clus = d.clus := rfl
@[simp] theorem Dev.setObj_descs (d : Dev) (i : Nat) (o : SyncObj) : (d.setObj i o).descs = d.descs := rfl
@[simp] theorem Dev.setObj_plls (d : Dev) (i : Nat) (o : SyncObj) : (d.setObj i o).plls = d.plls := rfl
@[simp] theorem Dev.setObj_windows (d : Dev) (i : Nat) (o : SyncObj) : (d.setObj i o).windows = d.windows := rfl
@[simp] theorem Dev.setObj_run (d : Dev) (i : Nat) (o : SyncObj) : (d.setObj i o).run = d.run := rfl
@[simp] theorem Dev.setObj_trkGen (d : Dev) (i : Nat) (o : SyncObj) : (d.setObj i o).trkGen = d.trkGen := rfl
@[simp] theorem Dev.setObj_lwrites (d : Dev) (i : Nat) (o : SyncObj) : (d.setObj i o).lwrites = d.lwrites := rfl
@[simp] theorem Dev.setObj_tierEnts (d : Dev) (i : Nat) (o : SyncObj) : (d.setObj i o).tierEnts = d.tierEnts := rfl
@[simp] theorem Dev.setObj_prefetch (d : Dev) (i : Nat) (o : SyncObj) : (d.setObj i o).prefetch = d.prefetch := rfl
@[simp] theorem Dev.setObj_rtr (d : Dev) (i : Nat) (o : SyncObj) : (d.setObj i o).rtr = d.rtr := rfl
@[simp] theorem Dev.setObj_combine (d : Dev) (i : Nat) (o : SyncObj) : (d.setObj i o).combine = d.combine := rfl
@[simp] theorem Dev.setObj_mcast (d : Dev) (i : Nat) (o : SyncObj) : (d.setObj i o).mcast = d.mcast := rfl
@[simp] theorem Dev.setObj_links (d : Dev) (i : Nat) (o : SyncObj) : (d.setObj i o).links = d.links := rfl
@[simp] theorem Dev.setObj_credit (d : Dev) (i : Nat) (o : SyncObj) : (d.setObj i o).credit = d.credit := rfl
@[simp] theorem Dev.setObj_drr (d : Dev) (i : Nat) (o : SyncObj) : (d.setObj i o).drr = d.drr := rfl
@[simp] theorem Dev.setObj_creditDue (d : Dev) (i : Nat) (o : SyncObj) : (d.setObj i o).creditDue = d.creditDue := rfl
@[simp] theorem Dev.setObj_disc (d : Dev) (i : Nat) (o : SyncObj) : (d.setObj i o).disc = d.disc := rfl
@[simp] theorem Dev.setObj_swingNow (d : Dev) (i : Nat) (o : SyncObj) : (d.setObj i o).swingNow = d.swingNow := rfl
@[simp] theorem Dev.setObj_swingMsg (d : Dev) (i : Nat) (o : SyncObj) : (d.setObj i o).swingMsg = d.swingMsg := rfl
@[simp] theorem Dev.setObj_linkOff (d : Dev) (i : Nat) (o : SyncObj) : (d.setObj i o).linkOff = d.linkOff := rfl
@[simp] theorem Dev.setObj_parked (d : Dev) (i : Nat) (o : SyncObj) : (d.setObj i o).parked = d.parked := rfl
@[simp] theorem Dev.setObj_cabRec (d : Dev) (i : Nat) (o : SyncObj) : (d.setObj i o).cabRec = d.cabRec := rfl
@[simp] theorem Dev.setObj_jobs (d : Dev) (i : Nat) (o : SyncObj) : (d.setObj i o).jobs = d.jobs := rfl
@[simp] theorem Dev.setObj_cache (d : Dev) (i : Nat) (o : SyncObj) : (d.setObj i o).cache = d.cache := rfl
@[simp] theorem Dev.setObj_biasWritten (d : Dev) (i : Nat) (o : SyncObj) : (d.setObj i o).biasWritten = d.biasWritten := rfl
@[simp] theorem Dev.setObj_placeTab (d : Dev) (i : Nat) (o : SyncObj) : (d.setObj i o).placeTab = d.placeTab := rfl
@[simp] theorem Dev.setObj_placePend (d : Dev) (i : Nat) (o : SyncObj) : (d.setObj i o).placePend = d.placePend := rfl
@[simp] theorem Dev.setObj_colls (d : Dev) (i : Nat) (o : SyncObj) : (d.setObj i o).colls = d.colls := rfl
@[simp] theorem Dev.setObj_collSeq (d : Dev) (i : Nat) (o : SyncObj) : (d.setObj i o).collSeq = d.collSeq := rfl
@[simp] theorem Dev.setObj_staged (d : Dev) (i : Nat) (o : SyncObj) : (d.setObj i o).staged = d.staged := rfl
@[simp] theorem Dev.setObj_chest (d : Dev) (i : Nat) (o : SyncObj) : (d.setObj i o).chest = d.chest := rfl
@[simp] theorem Dev.setObj_nsCmd (d : Dev) (i : Nat) (o : SyncObj) : (d.setObj i o).nsCmd = d.nsCmd := rfl
@[simp] theorem Dev.setObj_qps (d : Dev) (i : Nat) (o : SyncObj) : (d.setObj i o).qps = d.qps := rfl
@[simp] theorem Dev.setObj_netPause (d : Dev) (i : Nat) (o : SyncObj) : (d.setObj i o).netPause = d.netPause := rfl
@[simp] theorem Dev.setObj_netStage (d : Dev) (i : Nat) (o : SyncObj) : (d.setObj i o).netStage = d.netStage := rfl
@[simp] theorem Dev.setObj_snaps (d : Dev) (i : Nat) (o : SyncObj) : (d.setObj i o).snaps = d.snaps := rfl
@[simp] theorem Dev.setObj_restore (d : Dev) (i : Nat) (o : SyncObj) : (d.setObj i o).restore = d.restore := rfl
@[simp] theorem Dev.setObj_trs (d : Dev) (i : Nat) (o : SyncObj) : (d.setObj i o).trs = d.trs := rfl
@[simp] theorem Dev.setObj_placeCmd (d : Dev) (i : Nat) (o : SyncObj) : (d.setObj i o).placeCmd = d.placeCmd := rfl
@[simp] theorem Dev.setObj_msixMask (d : Dev) (i : Nat) (o : SyncObj) : (d.setObj i o).msixMask = d.msixMask := rfl
@[simp] theorem Dev.setObj_msixPend (d : Dev) (i : Nat) (o : SyncObj) : (d.setObj i o).msixPend = d.msixPend := rfl
@[simp] theorem Dev.setObj_boot (d : Dev) (i : Nat) (o : SyncObj) : (d.setObj i o).boot = d.boot := rfl
@[simp] theorem Dev.setObj_nv (d : Dev) (i : Nat) (o : SyncObj) : (d.setObj i o).nv = d.nv := rfl
@[simp] theorem Dev.setObj_aon (d : Dev) (i : Nat) (o : SyncObj) : (d.setObj i o).aon = d.aon := rfl
@[simp] theorem Dev.setObj_slots (d : Dev) (i : Nat) (o : SyncObj) : (d.setObj i o).slots = d.slots := rfl
@[simp] theorem Dev.setObj_cabPend (d : Dev) (i : Nat) (o : SyncObj) : (d.setObj i o).cabPend = d.cabPend := rfl
@[simp] theorem Dev.setObj_netWait (d : Dev) (i : Nat) (o : SyncObj) : (d.setObj i o).netWait = d.netWait := rfl
@[simp] theorem Dev.setObj_reg_read (d : Dev) (i : Nat) (o : SyncObj) (p : Nat) : (d.setObj i o).reg p = d.reg p := rfl
@[simp] theorem Dev.setObj_fld_read (d : Dev) (i : Nat) (o : SyncObj) (p lo w : Nat) : (d.setObj i o).fld p lo w = d.fld p lo w := rfl
@[simp] theorem Dev.setObj_bit_read (d : Dev) (i : Nat) (o : SyncObj) (p n : Nat) : (d.setObj i o).bit p n = d.bit p n := rfl
@[simp] theorem Dev.setObj_ctx_read (d : Dev) (i : Nat) (o : SyncObj) (y : Nat) : (d.setObj i o).ctx y = d.ctx y := rfl
@[simp] theorem Dev.setObj_clu_read (d : Dev) (i : Nat) (o : SyncObj) (j : Nat) : (d.setObj i o).clu j = d.clu j := rfl
@[simp] theorem Dev.setObj_trk_read (d : Dev) (i : Nat) (o : SyncObj) (j : Nat) : (d.setObj i o).trk j = d.trk j := rfl
@[simp] theorem Dev.setObj_seqr_read (d : Dev) (i : Nat) (o : SyncObj) (e y : Nat) : (d.setObj i o).seqr e y = d.seqr e y := rfl
@[simp] theorem Dev.setObj_byte_read (d : Dev) (i : Nat) (o : SyncObj) (b : Nat) : (d.setObj i o).byte b = d.byte b := rfl
@[simp] theorem Dev.setObj_gen_read (d : Dev) (i : Nat) (o : SyncObj) (j : Nat) : (d.setObj i o).gen j = d.gen j := rfl

/-! ### setTrk -/

@[simp] theorem Dev.setTrk_time (d : Dev) (k : Nat) (t : Tracker) : (d.setTrk k t).time = d.time := rfl
@[simp] theorem Dev.setTrk_hubLocked (d : Dev) (k : Nat) (t : Tracker) : (d.setTrk k t).hubLocked = d.hubLocked := rfl
@[simp] theorem Dev.setTrk_csr (d : Dev) (k : Nat) (t : Tracker) : (d.setTrk k t).csr = d.csr := rfl
@[simp] theorem Dev.setTrk_mem (d : Dev) (k : Nat) (t : Tracker) : (d.setTrk k t).mem = d.mem := rfl
@[simp] theorem Dev.setTrk_poison (d : Dev) (k : Nat) (t : Tracker) : (d.setTrk k t).poison = d.poison := rfl
@[simp] theorem Dev.setTrk_out (d : Dev) (k : Nat) (t : Tracker) : (d.setTrk k t).out = d.out := rfl
@[simp] theorem Dev.setTrk_freeCtr (d : Dev) (k : Nat) (t : Tracker) : (d.setTrk k t).freeCtr = d.freeCtr := rfl
@[simp] theorem Dev.setTrk_planCmd (d : Dev) (k : Nat) (t : Tracker) : (d.setTrk k t).planCmd = d.planCmd := rfl
@[simp] theorem Dev.setTrk_ctxs (d : Dev) (k : Nat) (t : Tracker) : (d.setTrk k t).ctxs = d.ctxs := rfl
@[simp] theorem Dev.setTrk_objs (d : Dev) (k : Nat) (t : Tracker) : (d.setTrk k t).objs = d.objs := rfl
@[simp] theorem Dev.setTrk_syncQ (d : Dev) (k : Nat) (t : Tracker) : (d.setTrk k t).syncQ = d.syncQ := rfl
@[simp] theorem Dev.setTrk_seqs (d : Dev) (k : Nat) (t : Tracker) : (d.setTrk k t).seqs = d.seqs := rfl
@[simp] theorem Dev.setTrk_clus (d : Dev) (k : Nat) (t : Tracker) : (d.setTrk k t).clus = d.clus := rfl
@[simp] theorem Dev.setTrk_descs (d : Dev) (k : Nat) (t : Tracker) : (d.setTrk k t).descs = d.descs := rfl
@[simp] theorem Dev.setTrk_plls (d : Dev) (k : Nat) (t : Tracker) : (d.setTrk k t).plls = d.plls := rfl
@[simp] theorem Dev.setTrk_windows (d : Dev) (k : Nat) (t : Tracker) : (d.setTrk k t).windows = d.windows := rfl
@[simp] theorem Dev.setTrk_run (d : Dev) (k : Nat) (t : Tracker) : (d.setTrk k t).run = d.run := rfl
@[simp] theorem Dev.setTrk_trkGen (d : Dev) (k : Nat) (t : Tracker) : (d.setTrk k t).trkGen = d.trkGen := rfl
@[simp] theorem Dev.setTrk_lwrites (d : Dev) (k : Nat) (t : Tracker) : (d.setTrk k t).lwrites = d.lwrites := rfl
@[simp] theorem Dev.setTrk_tierEnts (d : Dev) (k : Nat) (t : Tracker) : (d.setTrk k t).tierEnts = d.tierEnts := rfl
@[simp] theorem Dev.setTrk_prefetch (d : Dev) (k : Nat) (t : Tracker) : (d.setTrk k t).prefetch = d.prefetch := rfl
@[simp] theorem Dev.setTrk_rtr (d : Dev) (k : Nat) (t : Tracker) : (d.setTrk k t).rtr = d.rtr := rfl
@[simp] theorem Dev.setTrk_combine (d : Dev) (k : Nat) (t : Tracker) : (d.setTrk k t).combine = d.combine := rfl
@[simp] theorem Dev.setTrk_mcast (d : Dev) (k : Nat) (t : Tracker) : (d.setTrk k t).mcast = d.mcast := rfl
@[simp] theorem Dev.setTrk_links (d : Dev) (k : Nat) (t : Tracker) : (d.setTrk k t).links = d.links := rfl
@[simp] theorem Dev.setTrk_credit (d : Dev) (k : Nat) (t : Tracker) : (d.setTrk k t).credit = d.credit := rfl
@[simp] theorem Dev.setTrk_drr (d : Dev) (k : Nat) (t : Tracker) : (d.setTrk k t).drr = d.drr := rfl
@[simp] theorem Dev.setTrk_creditDue (d : Dev) (k : Nat) (t : Tracker) : (d.setTrk k t).creditDue = d.creditDue := rfl
@[simp] theorem Dev.setTrk_disc (d : Dev) (k : Nat) (t : Tracker) : (d.setTrk k t).disc = d.disc := rfl
@[simp] theorem Dev.setTrk_swingNow (d : Dev) (k : Nat) (t : Tracker) : (d.setTrk k t).swingNow = d.swingNow := rfl
@[simp] theorem Dev.setTrk_swingMsg (d : Dev) (k : Nat) (t : Tracker) : (d.setTrk k t).swingMsg = d.swingMsg := rfl
@[simp] theorem Dev.setTrk_linkOff (d : Dev) (k : Nat) (t : Tracker) : (d.setTrk k t).linkOff = d.linkOff := rfl
@[simp] theorem Dev.setTrk_parked (d : Dev) (k : Nat) (t : Tracker) : (d.setTrk k t).parked = d.parked := rfl
@[simp] theorem Dev.setTrk_cabRec (d : Dev) (k : Nat) (t : Tracker) : (d.setTrk k t).cabRec = d.cabRec := rfl
@[simp] theorem Dev.setTrk_jobs (d : Dev) (k : Nat) (t : Tracker) : (d.setTrk k t).jobs = d.jobs := rfl
@[simp] theorem Dev.setTrk_cache (d : Dev) (k : Nat) (t : Tracker) : (d.setTrk k t).cache = d.cache := rfl
@[simp] theorem Dev.setTrk_biasWritten (d : Dev) (k : Nat) (t : Tracker) : (d.setTrk k t).biasWritten = d.biasWritten := rfl
@[simp] theorem Dev.setTrk_placeTab (d : Dev) (k : Nat) (t : Tracker) : (d.setTrk k t).placeTab = d.placeTab := rfl
@[simp] theorem Dev.setTrk_placePend (d : Dev) (k : Nat) (t : Tracker) : (d.setTrk k t).placePend = d.placePend := rfl
@[simp] theorem Dev.setTrk_colls (d : Dev) (k : Nat) (t : Tracker) : (d.setTrk k t).colls = d.colls := rfl
@[simp] theorem Dev.setTrk_collSeq (d : Dev) (k : Nat) (t : Tracker) : (d.setTrk k t).collSeq = d.collSeq := rfl
@[simp] theorem Dev.setTrk_staged (d : Dev) (k : Nat) (t : Tracker) : (d.setTrk k t).staged = d.staged := rfl
@[simp] theorem Dev.setTrk_chest (d : Dev) (k : Nat) (t : Tracker) : (d.setTrk k t).chest = d.chest := rfl
@[simp] theorem Dev.setTrk_nsCmd (d : Dev) (k : Nat) (t : Tracker) : (d.setTrk k t).nsCmd = d.nsCmd := rfl
@[simp] theorem Dev.setTrk_qps (d : Dev) (k : Nat) (t : Tracker) : (d.setTrk k t).qps = d.qps := rfl
@[simp] theorem Dev.setTrk_netPause (d : Dev) (k : Nat) (t : Tracker) : (d.setTrk k t).netPause = d.netPause := rfl
@[simp] theorem Dev.setTrk_netStage (d : Dev) (k : Nat) (t : Tracker) : (d.setTrk k t).netStage = d.netStage := rfl
@[simp] theorem Dev.setTrk_snaps (d : Dev) (k : Nat) (t : Tracker) : (d.setTrk k t).snaps = d.snaps := rfl
@[simp] theorem Dev.setTrk_restore (d : Dev) (k : Nat) (t : Tracker) : (d.setTrk k t).restore = d.restore := rfl
@[simp] theorem Dev.setTrk_trs (d : Dev) (k : Nat) (t : Tracker) : (d.setTrk k t).trs = d.trs := rfl
@[simp] theorem Dev.setTrk_placeCmd (d : Dev) (k : Nat) (t : Tracker) : (d.setTrk k t).placeCmd = d.placeCmd := rfl
@[simp] theorem Dev.setTrk_msixMask (d : Dev) (k : Nat) (t : Tracker) : (d.setTrk k t).msixMask = d.msixMask := rfl
@[simp] theorem Dev.setTrk_msixPend (d : Dev) (k : Nat) (t : Tracker) : (d.setTrk k t).msixPend = d.msixPend := rfl
@[simp] theorem Dev.setTrk_boot (d : Dev) (k : Nat) (t : Tracker) : (d.setTrk k t).boot = d.boot := rfl
@[simp] theorem Dev.setTrk_nv (d : Dev) (k : Nat) (t : Tracker) : (d.setTrk k t).nv = d.nv := rfl
@[simp] theorem Dev.setTrk_aon (d : Dev) (k : Nat) (t : Tracker) : (d.setTrk k t).aon = d.aon := rfl
@[simp] theorem Dev.setTrk_slots (d : Dev) (k : Nat) (t : Tracker) : (d.setTrk k t).slots = d.slots := rfl
@[simp] theorem Dev.setTrk_cabPend (d : Dev) (k : Nat) (t : Tracker) : (d.setTrk k t).cabPend = d.cabPend := rfl
@[simp] theorem Dev.setTrk_netWait (d : Dev) (k : Nat) (t : Tracker) : (d.setTrk k t).netWait = d.netWait := rfl
@[simp] theorem Dev.setTrk_reg_read (d : Dev) (k : Nat) (t : Tracker) (p : Nat) : (d.setTrk k t).reg p = d.reg p := rfl
@[simp] theorem Dev.setTrk_fld_read (d : Dev) (k : Nat) (t : Tracker) (p lo w : Nat) : (d.setTrk k t).fld p lo w = d.fld p lo w := rfl
@[simp] theorem Dev.setTrk_bit_read (d : Dev) (k : Nat) (t : Tracker) (p n : Nat) : (d.setTrk k t).bit p n = d.bit p n := rfl
@[simp] theorem Dev.setTrk_ctx_read (d : Dev) (k : Nat) (t : Tracker) (y : Nat) : (d.setTrk k t).ctx y = d.ctx y := rfl
@[simp] theorem Dev.setTrk_clu_read (d : Dev) (k : Nat) (t : Tracker) (j : Nat) : (d.setTrk k t).clu j = d.clu j := rfl
@[simp] theorem Dev.setTrk_obj_read (d : Dev) (k : Nat) (t : Tracker) (j : Nat) : (d.setTrk k t).obj j = d.obj j := rfl
@[simp] theorem Dev.setTrk_seqr_read (d : Dev) (k : Nat) (t : Tracker) (e y : Nat) : (d.setTrk k t).seqr e y = d.seqr e y := rfl
@[simp] theorem Dev.setTrk_byte_read (d : Dev) (k : Nat) (t : Tracker) (b : Nat) : (d.setTrk k t).byte b = d.byte b := rfl
@[simp] theorem Dev.setTrk_gen_read (d : Dev) (k : Nat) (t : Tracker) (j : Nat) : (d.setTrk k t).gen j = d.gen j := rfl

/-! ### setSeqr -/

@[simp] theorem Dev.setSeqr_time (d : Dev) (c x : Nat) (r : SeqRegs) : (d.setSeqr c x r).time = d.time := rfl
@[simp] theorem Dev.setSeqr_hubLocked (d : Dev) (c x : Nat) (r : SeqRegs) : (d.setSeqr c x r).hubLocked = d.hubLocked := rfl
@[simp] theorem Dev.setSeqr_csr (d : Dev) (c x : Nat) (r : SeqRegs) : (d.setSeqr c x r).csr = d.csr := rfl
@[simp] theorem Dev.setSeqr_mem (d : Dev) (c x : Nat) (r : SeqRegs) : (d.setSeqr c x r).mem = d.mem := rfl
@[simp] theorem Dev.setSeqr_poison (d : Dev) (c x : Nat) (r : SeqRegs) : (d.setSeqr c x r).poison = d.poison := rfl
@[simp] theorem Dev.setSeqr_out (d : Dev) (c x : Nat) (r : SeqRegs) : (d.setSeqr c x r).out = d.out := rfl
@[simp] theorem Dev.setSeqr_freeCtr (d : Dev) (c x : Nat) (r : SeqRegs) : (d.setSeqr c x r).freeCtr = d.freeCtr := rfl
@[simp] theorem Dev.setSeqr_planCmd (d : Dev) (c x : Nat) (r : SeqRegs) : (d.setSeqr c x r).planCmd = d.planCmd := rfl
@[simp] theorem Dev.setSeqr_ctxs (d : Dev) (c x : Nat) (r : SeqRegs) : (d.setSeqr c x r).ctxs = d.ctxs := rfl
@[simp] theorem Dev.setSeqr_objs (d : Dev) (c x : Nat) (r : SeqRegs) : (d.setSeqr c x r).objs = d.objs := rfl
@[simp] theorem Dev.setSeqr_syncQ (d : Dev) (c x : Nat) (r : SeqRegs) : (d.setSeqr c x r).syncQ = d.syncQ := rfl
@[simp] theorem Dev.setSeqr_trks (d : Dev) (c x : Nat) (r : SeqRegs) : (d.setSeqr c x r).trks = d.trks := rfl
@[simp] theorem Dev.setSeqr_clus (d : Dev) (c x : Nat) (r : SeqRegs) : (d.setSeqr c x r).clus = d.clus := rfl
@[simp] theorem Dev.setSeqr_descs (d : Dev) (c x : Nat) (r : SeqRegs) : (d.setSeqr c x r).descs = d.descs := rfl
@[simp] theorem Dev.setSeqr_plls (d : Dev) (c x : Nat) (r : SeqRegs) : (d.setSeqr c x r).plls = d.plls := rfl
@[simp] theorem Dev.setSeqr_windows (d : Dev) (c x : Nat) (r : SeqRegs) : (d.setSeqr c x r).windows = d.windows := rfl
@[simp] theorem Dev.setSeqr_run (d : Dev) (c x : Nat) (r : SeqRegs) : (d.setSeqr c x r).run = d.run := rfl
@[simp] theorem Dev.setSeqr_trkGen (d : Dev) (c x : Nat) (r : SeqRegs) : (d.setSeqr c x r).trkGen = d.trkGen := rfl
@[simp] theorem Dev.setSeqr_lwrites (d : Dev) (c x : Nat) (r : SeqRegs) : (d.setSeqr c x r).lwrites = d.lwrites := rfl
@[simp] theorem Dev.setSeqr_tierEnts (d : Dev) (c x : Nat) (r : SeqRegs) : (d.setSeqr c x r).tierEnts = d.tierEnts := rfl
@[simp] theorem Dev.setSeqr_prefetch (d : Dev) (c x : Nat) (r : SeqRegs) : (d.setSeqr c x r).prefetch = d.prefetch := rfl
@[simp] theorem Dev.setSeqr_rtr (d : Dev) (c x : Nat) (r : SeqRegs) : (d.setSeqr c x r).rtr = d.rtr := rfl
@[simp] theorem Dev.setSeqr_combine (d : Dev) (c x : Nat) (r : SeqRegs) : (d.setSeqr c x r).combine = d.combine := rfl
@[simp] theorem Dev.setSeqr_mcast (d : Dev) (c x : Nat) (r : SeqRegs) : (d.setSeqr c x r).mcast = d.mcast := rfl
@[simp] theorem Dev.setSeqr_links (d : Dev) (c x : Nat) (r : SeqRegs) : (d.setSeqr c x r).links = d.links := rfl
@[simp] theorem Dev.setSeqr_credit (d : Dev) (c x : Nat) (r : SeqRegs) : (d.setSeqr c x r).credit = d.credit := rfl
@[simp] theorem Dev.setSeqr_drr (d : Dev) (c x : Nat) (r : SeqRegs) : (d.setSeqr c x r).drr = d.drr := rfl
@[simp] theorem Dev.setSeqr_creditDue (d : Dev) (c x : Nat) (r : SeqRegs) : (d.setSeqr c x r).creditDue = d.creditDue := rfl
@[simp] theorem Dev.setSeqr_disc (d : Dev) (c x : Nat) (r : SeqRegs) : (d.setSeqr c x r).disc = d.disc := rfl
@[simp] theorem Dev.setSeqr_swingNow (d : Dev) (c x : Nat) (r : SeqRegs) : (d.setSeqr c x r).swingNow = d.swingNow := rfl
@[simp] theorem Dev.setSeqr_swingMsg (d : Dev) (c x : Nat) (r : SeqRegs) : (d.setSeqr c x r).swingMsg = d.swingMsg := rfl
@[simp] theorem Dev.setSeqr_linkOff (d : Dev) (c x : Nat) (r : SeqRegs) : (d.setSeqr c x r).linkOff = d.linkOff := rfl
@[simp] theorem Dev.setSeqr_parked (d : Dev) (c x : Nat) (r : SeqRegs) : (d.setSeqr c x r).parked = d.parked := rfl
@[simp] theorem Dev.setSeqr_cabRec (d : Dev) (c x : Nat) (r : SeqRegs) : (d.setSeqr c x r).cabRec = d.cabRec := rfl
@[simp] theorem Dev.setSeqr_jobs (d : Dev) (c x : Nat) (r : SeqRegs) : (d.setSeqr c x r).jobs = d.jobs := rfl
@[simp] theorem Dev.setSeqr_cache (d : Dev) (c x : Nat) (r : SeqRegs) : (d.setSeqr c x r).cache = d.cache := rfl
@[simp] theorem Dev.setSeqr_biasWritten (d : Dev) (c x : Nat) (r : SeqRegs) : (d.setSeqr c x r).biasWritten = d.biasWritten := rfl
@[simp] theorem Dev.setSeqr_placeTab (d : Dev) (c x : Nat) (r : SeqRegs) : (d.setSeqr c x r).placeTab = d.placeTab := rfl
@[simp] theorem Dev.setSeqr_placePend (d : Dev) (c x : Nat) (r : SeqRegs) : (d.setSeqr c x r).placePend = d.placePend := rfl
@[simp] theorem Dev.setSeqr_colls (d : Dev) (c x : Nat) (r : SeqRegs) : (d.setSeqr c x r).colls = d.colls := rfl
@[simp] theorem Dev.setSeqr_collSeq (d : Dev) (c x : Nat) (r : SeqRegs) : (d.setSeqr c x r).collSeq = d.collSeq := rfl
@[simp] theorem Dev.setSeqr_staged (d : Dev) (c x : Nat) (r : SeqRegs) : (d.setSeqr c x r).staged = d.staged := rfl
@[simp] theorem Dev.setSeqr_chest (d : Dev) (c x : Nat) (r : SeqRegs) : (d.setSeqr c x r).chest = d.chest := rfl
@[simp] theorem Dev.setSeqr_nsCmd (d : Dev) (c x : Nat) (r : SeqRegs) : (d.setSeqr c x r).nsCmd = d.nsCmd := rfl
@[simp] theorem Dev.setSeqr_qps (d : Dev) (c x : Nat) (r : SeqRegs) : (d.setSeqr c x r).qps = d.qps := rfl
@[simp] theorem Dev.setSeqr_netPause (d : Dev) (c x : Nat) (r : SeqRegs) : (d.setSeqr c x r).netPause = d.netPause := rfl
@[simp] theorem Dev.setSeqr_netStage (d : Dev) (c x : Nat) (r : SeqRegs) : (d.setSeqr c x r).netStage = d.netStage := rfl
@[simp] theorem Dev.setSeqr_snaps (d : Dev) (c x : Nat) (r : SeqRegs) : (d.setSeqr c x r).snaps = d.snaps := rfl
@[simp] theorem Dev.setSeqr_restore (d : Dev) (c x : Nat) (r : SeqRegs) : (d.setSeqr c x r).restore = d.restore := rfl
@[simp] theorem Dev.setSeqr_trs (d : Dev) (c x : Nat) (r : SeqRegs) : (d.setSeqr c x r).trs = d.trs := rfl
@[simp] theorem Dev.setSeqr_placeCmd (d : Dev) (c x : Nat) (r : SeqRegs) : (d.setSeqr c x r).placeCmd = d.placeCmd := rfl
@[simp] theorem Dev.setSeqr_msixMask (d : Dev) (c x : Nat) (r : SeqRegs) : (d.setSeqr c x r).msixMask = d.msixMask := rfl
@[simp] theorem Dev.setSeqr_msixPend (d : Dev) (c x : Nat) (r : SeqRegs) : (d.setSeqr c x r).msixPend = d.msixPend := rfl
@[simp] theorem Dev.setSeqr_boot (d : Dev) (c x : Nat) (r : SeqRegs) : (d.setSeqr c x r).boot = d.boot := rfl
@[simp] theorem Dev.setSeqr_nv (d : Dev) (c x : Nat) (r : SeqRegs) : (d.setSeqr c x r).nv = d.nv := rfl
@[simp] theorem Dev.setSeqr_aon (d : Dev) (c x : Nat) (r : SeqRegs) : (d.setSeqr c x r).aon = d.aon := rfl
@[simp] theorem Dev.setSeqr_slots (d : Dev) (c x : Nat) (r : SeqRegs) : (d.setSeqr c x r).slots = d.slots := rfl
@[simp] theorem Dev.setSeqr_cabPend (d : Dev) (c x : Nat) (r : SeqRegs) : (d.setSeqr c x r).cabPend = d.cabPend := rfl
@[simp] theorem Dev.setSeqr_netWait (d : Dev) (c x : Nat) (r : SeqRegs) : (d.setSeqr c x r).netWait = d.netWait := rfl
@[simp] theorem Dev.setSeqr_reg_read (d : Dev) (c x : Nat) (r : SeqRegs) (p : Nat) : (d.setSeqr c x r).reg p = d.reg p := rfl
@[simp] theorem Dev.setSeqr_fld_read (d : Dev) (c x : Nat) (r : SeqRegs) (p lo w : Nat) : (d.setSeqr c x r).fld p lo w = d.fld p lo w := rfl
@[simp] theorem Dev.setSeqr_bit_read (d : Dev) (c x : Nat) (r : SeqRegs) (p n : Nat) : (d.setSeqr c x r).bit p n = d.bit p n := rfl
@[simp] theorem Dev.setSeqr_ctx_read (d : Dev) (c x : Nat) (r : SeqRegs) (y : Nat) : (d.setSeqr c x r).ctx y = d.ctx y := rfl
@[simp] theorem Dev.setSeqr_clu_read (d : Dev) (c x : Nat) (r : SeqRegs) (j : Nat) : (d.setSeqr c x r).clu j = d.clu j := rfl
@[simp] theorem Dev.setSeqr_obj_read (d : Dev) (c x : Nat) (r : SeqRegs) (j : Nat) : (d.setSeqr c x r).obj j = d.obj j := rfl
@[simp] theorem Dev.setSeqr_trk_read (d : Dev) (c x : Nat) (r : SeqRegs) (j : Nat) : (d.setSeqr c x r).trk j = d.trk j := rfl
@[simp] theorem Dev.setSeqr_byte_read (d : Dev) (c x : Nat) (r : SeqRegs) (b : Nat) : (d.setSeqr c x r).byte b = d.byte b := rfl
@[simp] theorem Dev.setSeqr_gen_read (d : Dev) (c x : Nat) (r : SeqRegs) (j : Nat) : (d.setSeqr c x r).gen j = d.gen j := rfl

/-! ### emit -/

@[simp] theorem Dev.emit_time (d : Dev) (o : Out) : (d.emit o).time = d.time := rfl
@[simp] theorem Dev.emit_hubLocked (d : Dev) (o : Out) : (d.emit o).hubLocked = d.hubLocked := rfl
@[simp] theorem Dev.emit_csr (d : Dev) (o : Out) : (d.emit o).csr = d.csr := rfl
@[simp] theorem Dev.emit_mem (d : Dev) (o : Out) : (d.emit o).mem = d.mem := rfl
@[simp] theorem Dev.emit_poison (d : Dev) (o : Out) : (d.emit o).poison = d.poison := rfl
@[simp] theorem Dev.emit_freeCtr (d : Dev) (o : Out) : (d.emit o).freeCtr = d.freeCtr := rfl
@[simp] theorem Dev.emit_planCmd (d : Dev) (o : Out) : (d.emit o).planCmd = d.planCmd := rfl
@[simp] theorem Dev.emit_ctxs (d : Dev) (o : Out) : (d.emit o).ctxs = d.ctxs := rfl
@[simp] theorem Dev.emit_objs (d : Dev) (o : Out) : (d.emit o).objs = d.objs := rfl
@[simp] theorem Dev.emit_syncQ (d : Dev) (o : Out) : (d.emit o).syncQ = d.syncQ := rfl
@[simp] theorem Dev.emit_trks (d : Dev) (o : Out) : (d.emit o).trks = d.trks := rfl
@[simp] theorem Dev.emit_seqs (d : Dev) (o : Out) : (d.emit o).seqs = d.seqs := rfl
@[simp] theorem Dev.emit_clus (d : Dev) (o : Out) : (d.emit o).clus = d.clus := rfl
@[simp] theorem Dev.emit_descs (d : Dev) (o : Out) : (d.emit o).descs = d.descs := rfl
@[simp] theorem Dev.emit_plls (d : Dev) (o : Out) : (d.emit o).plls = d.plls := rfl
@[simp] theorem Dev.emit_windows (d : Dev) (o : Out) : (d.emit o).windows = d.windows := rfl
@[simp] theorem Dev.emit_run (d : Dev) (o : Out) : (d.emit o).run = d.run := rfl
@[simp] theorem Dev.emit_trkGen (d : Dev) (o : Out) : (d.emit o).trkGen = d.trkGen := rfl
@[simp] theorem Dev.emit_lwrites (d : Dev) (o : Out) : (d.emit o).lwrites = d.lwrites := rfl
@[simp] theorem Dev.emit_tierEnts (d : Dev) (o : Out) : (d.emit o).tierEnts = d.tierEnts := rfl
@[simp] theorem Dev.emit_prefetch (d : Dev) (o : Out) : (d.emit o).prefetch = d.prefetch := rfl
@[simp] theorem Dev.emit_rtr (d : Dev) (o : Out) : (d.emit o).rtr = d.rtr := rfl
@[simp] theorem Dev.emit_combine (d : Dev) (o : Out) : (d.emit o).combine = d.combine := rfl
@[simp] theorem Dev.emit_mcast (d : Dev) (o : Out) : (d.emit o).mcast = d.mcast := rfl
@[simp] theorem Dev.emit_links (d : Dev) (o : Out) : (d.emit o).links = d.links := rfl
@[simp] theorem Dev.emit_credit (d : Dev) (o : Out) : (d.emit o).credit = d.credit := rfl
@[simp] theorem Dev.emit_drr (d : Dev) (o : Out) : (d.emit o).drr = d.drr := rfl
@[simp] theorem Dev.emit_creditDue (d : Dev) (o : Out) : (d.emit o).creditDue = d.creditDue := rfl
@[simp] theorem Dev.emit_disc (d : Dev) (o : Out) : (d.emit o).disc = d.disc := rfl
@[simp] theorem Dev.emit_swingNow (d : Dev) (o : Out) : (d.emit o).swingNow = d.swingNow := rfl
@[simp] theorem Dev.emit_swingMsg (d : Dev) (o : Out) : (d.emit o).swingMsg = d.swingMsg := rfl
@[simp] theorem Dev.emit_linkOff (d : Dev) (o : Out) : (d.emit o).linkOff = d.linkOff := rfl
@[simp] theorem Dev.emit_parked (d : Dev) (o : Out) : (d.emit o).parked = d.parked := rfl
@[simp] theorem Dev.emit_cabRec (d : Dev) (o : Out) : (d.emit o).cabRec = d.cabRec := rfl
@[simp] theorem Dev.emit_jobs (d : Dev) (o : Out) : (d.emit o).jobs = d.jobs := rfl
@[simp] theorem Dev.emit_cache (d : Dev) (o : Out) : (d.emit o).cache = d.cache := rfl
@[simp] theorem Dev.emit_biasWritten (d : Dev) (o : Out) : (d.emit o).biasWritten = d.biasWritten := rfl
@[simp] theorem Dev.emit_placeTab (d : Dev) (o : Out) : (d.emit o).placeTab = d.placeTab := rfl
@[simp] theorem Dev.emit_placePend (d : Dev) (o : Out) : (d.emit o).placePend = d.placePend := rfl
@[simp] theorem Dev.emit_colls (d : Dev) (o : Out) : (d.emit o).colls = d.colls := rfl
@[simp] theorem Dev.emit_collSeq (d : Dev) (o : Out) : (d.emit o).collSeq = d.collSeq := rfl
@[simp] theorem Dev.emit_staged (d : Dev) (o : Out) : (d.emit o).staged = d.staged := rfl
@[simp] theorem Dev.emit_chest (d : Dev) (o : Out) : (d.emit o).chest = d.chest := rfl
@[simp] theorem Dev.emit_nsCmd (d : Dev) (o : Out) : (d.emit o).nsCmd = d.nsCmd := rfl
@[simp] theorem Dev.emit_qps (d : Dev) (o : Out) : (d.emit o).qps = d.qps := rfl
@[simp] theorem Dev.emit_netPause (d : Dev) (o : Out) : (d.emit o).netPause = d.netPause := rfl
@[simp] theorem Dev.emit_netStage (d : Dev) (o : Out) : (d.emit o).netStage = d.netStage := rfl
@[simp] theorem Dev.emit_snaps (d : Dev) (o : Out) : (d.emit o).snaps = d.snaps := rfl
@[simp] theorem Dev.emit_restore (d : Dev) (o : Out) : (d.emit o).restore = d.restore := rfl
@[simp] theorem Dev.emit_trs (d : Dev) (o : Out) : (d.emit o).trs = d.trs := rfl
@[simp] theorem Dev.emit_placeCmd (d : Dev) (o : Out) : (d.emit o).placeCmd = d.placeCmd := rfl
@[simp] theorem Dev.emit_msixMask (d : Dev) (o : Out) : (d.emit o).msixMask = d.msixMask := rfl
@[simp] theorem Dev.emit_msixPend (d : Dev) (o : Out) : (d.emit o).msixPend = d.msixPend := rfl
@[simp] theorem Dev.emit_boot (d : Dev) (o : Out) : (d.emit o).boot = d.boot := rfl
@[simp] theorem Dev.emit_nv (d : Dev) (o : Out) : (d.emit o).nv = d.nv := rfl
@[simp] theorem Dev.emit_aon (d : Dev) (o : Out) : (d.emit o).aon = d.aon := rfl
@[simp] theorem Dev.emit_slots (d : Dev) (o : Out) : (d.emit o).slots = d.slots := rfl
@[simp] theorem Dev.emit_cabPend (d : Dev) (o : Out) : (d.emit o).cabPend = d.cabPend := rfl
@[simp] theorem Dev.emit_netWait (d : Dev) (o : Out) : (d.emit o).netWait = d.netWait := rfl
@[simp] theorem Dev.emit_reg_read (d : Dev) (o : Out) (p : Nat) : (d.emit o).reg p = d.reg p := rfl
@[simp] theorem Dev.emit_fld_read (d : Dev) (o : Out) (p lo w : Nat) : (d.emit o).fld p lo w = d.fld p lo w := rfl
@[simp] theorem Dev.emit_bit_read (d : Dev) (o : Out) (p n : Nat) : (d.emit o).bit p n = d.bit p n := rfl
@[simp] theorem Dev.emit_ctx_read (d : Dev) (o : Out) (y : Nat) : (d.emit o).ctx y = d.ctx y := rfl
@[simp] theorem Dev.emit_clu_read (d : Dev) (o : Out) (j : Nat) : (d.emit o).clu j = d.clu j := rfl
@[simp] theorem Dev.emit_obj_read (d : Dev) (o : Out) (j : Nat) : (d.emit o).obj j = d.obj j := rfl
@[simp] theorem Dev.emit_trk_read (d : Dev) (o : Out) (j : Nat) : (d.emit o).trk j = d.trk j := rfl
@[simp] theorem Dev.emit_seqr_read (d : Dev) (o : Out) (e y : Nat) : (d.emit o).seqr e y = d.seqr e y := rfl
@[simp] theorem Dev.emit_byte_read (d : Dev) (o : Out) (b : Nat) : (d.emit o).byte b = d.byte b := rfl
@[simp] theorem Dev.emit_gen_read (d : Dev) (o : Out) (j : Nat) : (d.emit o).gen j = d.gen j := rfl

/-! ### write -/

@[simp] theorem Dev.write_time (d : Dev) (a : Nat) (bs : Bytes) : (d.write a bs).time = d.time := rfl
@[simp] theorem Dev.write_hubLocked (d : Dev) (a : Nat) (bs : Bytes) : (d.write a bs).hubLocked = d.hubLocked := rfl
@[simp] theorem Dev.write_csr (d : Dev) (a : Nat) (bs : Bytes) : (d.write a bs).csr = d.csr := rfl
@[simp] theorem Dev.write_out (d : Dev) (a : Nat) (bs : Bytes) : (d.write a bs).out = d.out := rfl
@[simp] theorem Dev.write_freeCtr (d : Dev) (a : Nat) (bs : Bytes) : (d.write a bs).freeCtr = d.freeCtr := rfl
@[simp] theorem Dev.write_planCmd (d : Dev) (a : Nat) (bs : Bytes) : (d.write a bs).planCmd = d.planCmd := rfl
@[simp] theorem Dev.write_ctxs (d : Dev) (a : Nat) (bs : Bytes) : (d.write a bs).ctxs = d.ctxs := rfl
@[simp] theorem Dev.write_objs (d : Dev) (a : Nat) (bs : Bytes) : (d.write a bs).objs = d.objs := rfl
@[simp] theorem Dev.write_syncQ (d : Dev) (a : Nat) (bs : Bytes) : (d.write a bs).syncQ = d.syncQ := rfl
@[simp] theorem Dev.write_trks (d : Dev) (a : Nat) (bs : Bytes) : (d.write a bs).trks = d.trks := rfl
@[simp] theorem Dev.write_seqs (d : Dev) (a : Nat) (bs : Bytes) : (d.write a bs).seqs = d.seqs := rfl
@[simp] theorem Dev.write_clus (d : Dev) (a : Nat) (bs : Bytes) : (d.write a bs).clus = d.clus := rfl
@[simp] theorem Dev.write_descs (d : Dev) (a : Nat) (bs : Bytes) : (d.write a bs).descs = d.descs := rfl
@[simp] theorem Dev.write_plls (d : Dev) (a : Nat) (bs : Bytes) : (d.write a bs).plls = d.plls := rfl
@[simp] theorem Dev.write_windows (d : Dev) (a : Nat) (bs : Bytes) : (d.write a bs).windows = d.windows := rfl
@[simp] theorem Dev.write_run (d : Dev) (a : Nat) (bs : Bytes) : (d.write a bs).run = d.run := rfl
@[simp] theorem Dev.write_trkGen (d : Dev) (a : Nat) (bs : Bytes) : (d.write a bs).trkGen = d.trkGen := rfl
@[simp] theorem Dev.write_lwrites (d : Dev) (a : Nat) (bs : Bytes) : (d.write a bs).lwrites = d.lwrites := rfl
@[simp] theorem Dev.write_tierEnts (d : Dev) (a : Nat) (bs : Bytes) : (d.write a bs).tierEnts = d.tierEnts := rfl
@[simp] theorem Dev.write_prefetch (d : Dev) (a : Nat) (bs : Bytes) : (d.write a bs).prefetch = d.prefetch := rfl
@[simp] theorem Dev.write_rtr (d : Dev) (a : Nat) (bs : Bytes) : (d.write a bs).rtr = d.rtr := rfl
@[simp] theorem Dev.write_combine (d : Dev) (a : Nat) (bs : Bytes) : (d.write a bs).combine = d.combine := rfl
@[simp] theorem Dev.write_mcast (d : Dev) (a : Nat) (bs : Bytes) : (d.write a bs).mcast = d.mcast := rfl
@[simp] theorem Dev.write_links (d : Dev) (a : Nat) (bs : Bytes) : (d.write a bs).links = d.links := rfl
@[simp] theorem Dev.write_credit (d : Dev) (a : Nat) (bs : Bytes) : (d.write a bs).credit = d.credit := rfl
@[simp] theorem Dev.write_drr (d : Dev) (a : Nat) (bs : Bytes) : (d.write a bs).drr = d.drr := rfl
@[simp] theorem Dev.write_creditDue (d : Dev) (a : Nat) (bs : Bytes) : (d.write a bs).creditDue = d.creditDue := rfl
@[simp] theorem Dev.write_disc (d : Dev) (a : Nat) (bs : Bytes) : (d.write a bs).disc = d.disc := rfl
@[simp] theorem Dev.write_swingNow (d : Dev) (a : Nat) (bs : Bytes) : (d.write a bs).swingNow = d.swingNow := rfl
@[simp] theorem Dev.write_swingMsg (d : Dev) (a : Nat) (bs : Bytes) : (d.write a bs).swingMsg = d.swingMsg := rfl
@[simp] theorem Dev.write_linkOff (d : Dev) (a : Nat) (bs : Bytes) : (d.write a bs).linkOff = d.linkOff := rfl
@[simp] theorem Dev.write_parked (d : Dev) (a : Nat) (bs : Bytes) : (d.write a bs).parked = d.parked := rfl
@[simp] theorem Dev.write_cabRec (d : Dev) (a : Nat) (bs : Bytes) : (d.write a bs).cabRec = d.cabRec := rfl
@[simp] theorem Dev.write_jobs (d : Dev) (a : Nat) (bs : Bytes) : (d.write a bs).jobs = d.jobs := rfl
@[simp] theorem Dev.write_cache (d : Dev) (a : Nat) (bs : Bytes) : (d.write a bs).cache = d.cache := rfl
@[simp] theorem Dev.write_biasWritten (d : Dev) (a : Nat) (bs : Bytes) : (d.write a bs).biasWritten = d.biasWritten := rfl
@[simp] theorem Dev.write_placeTab (d : Dev) (a : Nat) (bs : Bytes) : (d.write a bs).placeTab = d.placeTab := rfl
@[simp] theorem Dev.write_placePend (d : Dev) (a : Nat) (bs : Bytes) : (d.write a bs).placePend = d.placePend := rfl
@[simp] theorem Dev.write_colls (d : Dev) (a : Nat) (bs : Bytes) : (d.write a bs).colls = d.colls := rfl
@[simp] theorem Dev.write_collSeq (d : Dev) (a : Nat) (bs : Bytes) : (d.write a bs).collSeq = d.collSeq := rfl
@[simp] theorem Dev.write_staged (d : Dev) (a : Nat) (bs : Bytes) : (d.write a bs).staged = d.staged := rfl
@[simp] theorem Dev.write_chest (d : Dev) (a : Nat) (bs : Bytes) : (d.write a bs).chest = d.chest := rfl
@[simp] theorem Dev.write_nsCmd (d : Dev) (a : Nat) (bs : Bytes) : (d.write a bs).nsCmd = d.nsCmd := rfl
@[simp] theorem Dev.write_qps (d : Dev) (a : Nat) (bs : Bytes) : (d.write a bs).qps = d.qps := rfl
@[simp] theorem Dev.write_netPause (d : Dev) (a : Nat) (bs : Bytes) : (d.write a bs).netPause = d.netPause := rfl
@[simp] theorem Dev.write_netStage (d : Dev) (a : Nat) (bs : Bytes) : (d.write a bs).netStage = d.netStage := rfl
@[simp] theorem Dev.write_snaps (d : Dev) (a : Nat) (bs : Bytes) : (d.write a bs).snaps = d.snaps := rfl
@[simp] theorem Dev.write_restore (d : Dev) (a : Nat) (bs : Bytes) : (d.write a bs).restore = d.restore := rfl
@[simp] theorem Dev.write_trs (d : Dev) (a : Nat) (bs : Bytes) : (d.write a bs).trs = d.trs := rfl
@[simp] theorem Dev.write_placeCmd (d : Dev) (a : Nat) (bs : Bytes) : (d.write a bs).placeCmd = d.placeCmd := rfl
@[simp] theorem Dev.write_msixMask (d : Dev) (a : Nat) (bs : Bytes) : (d.write a bs).msixMask = d.msixMask := rfl
@[simp] theorem Dev.write_msixPend (d : Dev) (a : Nat) (bs : Bytes) : (d.write a bs).msixPend = d.msixPend := rfl
@[simp] theorem Dev.write_boot (d : Dev) (a : Nat) (bs : Bytes) : (d.write a bs).boot = d.boot := rfl
@[simp] theorem Dev.write_nv (d : Dev) (a : Nat) (bs : Bytes) : (d.write a bs).nv = d.nv := rfl
@[simp] theorem Dev.write_aon (d : Dev) (a : Nat) (bs : Bytes) : (d.write a bs).aon = d.aon := rfl
@[simp] theorem Dev.write_slots (d : Dev) (a : Nat) (bs : Bytes) : (d.write a bs).slots = d.slots := rfl
@[simp] theorem Dev.write_cabPend (d : Dev) (a : Nat) (bs : Bytes) : (d.write a bs).cabPend = d.cabPend := rfl
@[simp] theorem Dev.write_netWait (d : Dev) (a : Nat) (bs : Bytes) : (d.write a bs).netWait = d.netWait := rfl
@[simp] theorem Dev.write_reg_read (d : Dev) (a : Nat) (bs : Bytes) (p : Nat) : (d.write a bs).reg p = d.reg p := rfl
@[simp] theorem Dev.write_fld_read (d : Dev) (a : Nat) (bs : Bytes) (p lo w : Nat) : (d.write a bs).fld p lo w = d.fld p lo w := rfl
@[simp] theorem Dev.write_bit_read (d : Dev) (a : Nat) (bs : Bytes) (p n : Nat) : (d.write a bs).bit p n = d.bit p n := rfl
@[simp] theorem Dev.write_ctx_read (d : Dev) (a : Nat) (bs : Bytes) (y : Nat) : (d.write a bs).ctx y = d.ctx y := rfl
@[simp] theorem Dev.write_clu_read (d : Dev) (a : Nat) (bs : Bytes) (j : Nat) : (d.write a bs).clu j = d.clu j := rfl
@[simp] theorem Dev.write_obj_read (d : Dev) (a : Nat) (bs : Bytes) (j : Nat) : (d.write a bs).obj j = d.obj j := rfl
@[simp] theorem Dev.write_trk_read (d : Dev) (a : Nat) (bs : Bytes) (j : Nat) : (d.write a bs).trk j = d.trk j := rfl
@[simp] theorem Dev.write_seqr_read (d : Dev) (a : Nat) (bs : Bytes) (e y : Nat) : (d.write a bs).seqr e y = d.seqr e y := rfl
@[simp] theorem Dev.write_gen_read (d : Dev) (a : Nat) (bs : Bytes) (j : Nat) : (d.write a bs).gen j = d.gen j := rfl

/-! ### settle -/

@[simp] theorem Dev.settle_time (d : Dev) : (d.settle).time = d.time := rfl
@[simp] theorem Dev.settle_hubLocked (d : Dev) : (d.settle).hubLocked = d.hubLocked := rfl
@[simp] theorem Dev.settle_out (d : Dev) : (d.settle).out = d.out := rfl
@[simp] theorem Dev.settle_freeCtr (d : Dev) : (d.settle).freeCtr = d.freeCtr := rfl
@[simp] theorem Dev.settle_planCmd (d : Dev) : (d.settle).planCmd = d.planCmd := rfl
@[simp] theorem Dev.settle_syncQ (d : Dev) : (d.settle).syncQ = d.syncQ := rfl
@[simp] theorem Dev.settle_descs (d : Dev) : (d.settle).descs = d.descs := rfl
@[simp] theorem Dev.settle_plls (d : Dev) : (d.settle).plls = d.plls := rfl
@[simp] theorem Dev.settle_windows (d : Dev) : (d.settle).windows = d.windows := rfl
@[simp] theorem Dev.settle_run (d : Dev) : (d.settle).run = d.run := rfl
@[simp] theorem Dev.settle_trkGen (d : Dev) : (d.settle).trkGen = d.trkGen := rfl
@[simp] theorem Dev.settle_lwrites (d : Dev) : (d.settle).lwrites = d.lwrites := rfl
@[simp] theorem Dev.settle_tierEnts (d : Dev) : (d.settle).tierEnts = d.tierEnts := rfl
@[simp] theorem Dev.settle_prefetch (d : Dev) : (d.settle).prefetch = d.prefetch := rfl
@[simp] theorem Dev.settle_rtr (d : Dev) : (d.settle).rtr = d.rtr := rfl
@[simp] theorem Dev.settle_combine (d : Dev) : (d.settle).combine = d.combine := rfl
@[simp] theorem Dev.settle_mcast (d : Dev) : (d.settle).mcast = d.mcast := rfl
@[simp] theorem Dev.settle_links (d : Dev) : (d.settle).links = d.links := rfl
@[simp] theorem Dev.settle_credit (d : Dev) : (d.settle).credit = d.credit := rfl
@[simp] theorem Dev.settle_drr (d : Dev) : (d.settle).drr = d.drr := rfl
@[simp] theorem Dev.settle_creditDue (d : Dev) : (d.settle).creditDue = d.creditDue := rfl
@[simp] theorem Dev.settle_disc (d : Dev) : (d.settle).disc = d.disc := rfl
@[simp] theorem Dev.settle_swingNow (d : Dev) : (d.settle).swingNow = d.swingNow := rfl
@[simp] theorem Dev.settle_swingMsg (d : Dev) : (d.settle).swingMsg = d.swingMsg := rfl
@[simp] theorem Dev.settle_linkOff (d : Dev) : (d.settle).linkOff = d.linkOff := rfl
@[simp] theorem Dev.settle_parked (d : Dev) : (d.settle).parked = d.parked := rfl
@[simp] theorem Dev.settle_cabRec (d : Dev) : (d.settle).cabRec = d.cabRec := rfl
@[simp] theorem Dev.settle_jobs (d : Dev) : (d.settle).jobs = d.jobs := rfl
@[simp] theorem Dev.settle_cache (d : Dev) : (d.settle).cache = d.cache := rfl
@[simp] theorem Dev.settle_biasWritten (d : Dev) : (d.settle).biasWritten = d.biasWritten := rfl
@[simp] theorem Dev.settle_placeTab (d : Dev) : (d.settle).placeTab = d.placeTab := rfl
@[simp] theorem Dev.settle_placePend (d : Dev) : (d.settle).placePend = d.placePend := rfl
@[simp] theorem Dev.settle_colls (d : Dev) : (d.settle).colls = d.colls := rfl
@[simp] theorem Dev.settle_collSeq (d : Dev) : (d.settle).collSeq = d.collSeq := rfl
@[simp] theorem Dev.settle_staged (d : Dev) : (d.settle).staged = d.staged := rfl
@[simp] theorem Dev.settle_chest (d : Dev) : (d.settle).chest = d.chest := rfl
@[simp] theorem Dev.settle_nsCmd (d : Dev) : (d.settle).nsCmd = d.nsCmd := rfl
@[simp] theorem Dev.settle_qps (d : Dev) : (d.settle).qps = d.qps := rfl
@[simp] theorem Dev.settle_netPause (d : Dev) : (d.settle).netPause = d.netPause := rfl
@[simp] theorem Dev.settle_netStage (d : Dev) : (d.settle).netStage = d.netStage := rfl
@[simp] theorem Dev.settle_snaps (d : Dev) : (d.settle).snaps = d.snaps := rfl
@[simp] theorem Dev.settle_restore (d : Dev) : (d.settle).restore = d.restore := rfl
@[simp] theorem Dev.settle_trs (d : Dev) : (d.settle).trs = d.trs := rfl
@[simp] theorem Dev.settle_placeCmd (d : Dev) : (d.settle).placeCmd = d.placeCmd := rfl
@[simp] theorem Dev.settle_msixMask (d : Dev) : (d.settle).msixMask = d.msixMask := rfl
@[simp] theorem Dev.settle_msixPend (d : Dev) : (d.settle).msixPend = d.msixPend := rfl
@[simp] theorem Dev.settle_boot (d : Dev) : (d.settle).boot = d.boot := rfl
@[simp] theorem Dev.settle_nv (d : Dev) : (d.settle).nv = d.nv := rfl
@[simp] theorem Dev.settle_aon (d : Dev) : (d.settle).aon = d.aon := rfl
@[simp] theorem Dev.settle_slots (d : Dev) : (d.settle).slots = d.slots := rfl
@[simp] theorem Dev.settle_cabPend (d : Dev) : (d.settle).cabPend = d.cabPend := rfl
@[simp] theorem Dev.settle_netWait (d : Dev) : (d.settle).netWait = d.netWait := rfl
@[simp] theorem Dev.settle_gen_read (d : Dev) (j : Nat) : (d.settle).gen j = d.gen j := rfl

/-! ### Reads after canonical form -/

/-- Canonical form changes no register. -/
@[simp] theorem Dev.settle_reg (d : Dev) (o : Nat) : d.settle.reg o = d.reg o := mapGet_mapCanon csrReset d.csr o

/-- Canonical form changes no field of a register. -/
@[simp] theorem Dev.settle_fld (d : Dev) (o lo w : Nat) : d.settle.fld o lo w = d.fld o lo w := by
  simp [Dev.fld]

/-- Canonical form changes no bit of a register. -/
@[simp] theorem Dev.settle_bit (d : Dev) (o i : Nat) : d.settle.bit o i = d.bit o i := by
  simp [Dev.bit]

/-- Canonical form changes no byte of memory. -/
@[simp] theorem Dev.settle_byte (d : Dev) (a : Nat) : d.settle.byte a = d.byte a := mapGet_mapCanon memDefault d.mem a

/-- A write of one register leaves every other. -/
theorem Dev.setReg_other (d : Dev) (o p : Nat) (v : Word) (h : p ≠ o) : (d.setReg o v).reg p = d.reg p :=
  mapGet_mapSet_other csrReset d.csr o p v h

/-- A register reads what was written, in a canonical register file. -/
theorem Dev.setReg_same (d : Dev) (o : Nat) (v : Word) (h : mapWf csrReset d.csr = true) : (d.setReg o v).reg o = v := by
  simp only [mapWf, Bool.and_eq_true] at h
  exact mapGet_mapSet_same csrReset d.csr o v h.1

/-- Bytes written leave every byte outside them. -/
theorem memSets_other (m : List Host.Cell) (a b : Nat) (bs : Bytes) (h : b < a ∨ a + bs.length ≤ b) :
    mapGet memDefault (memSets m a bs) b = mapGet memDefault m b := by
  simp only [mapGet, memSets, mapFind_append, mapFind_mapKeep, mapFind_memFresh_other bs a b h]
  rcases h with h | h
  · simp [h, show ¬ a + bs.length ≤ b by omega]
  · simp [h, show ¬ b < a by omega]

/-- A byte written reads back. -/
theorem memSets_at (m : List Host.Cell) (a i : Nat) (bs : Bytes) (h : i < bs.length) :
    mapGet memDefault (memSets m a bs) (a + i) = bs[i] := by
  simp only [mapGet, memSets, mapFind_append, mapFind_mapKeep]
  simpa [show ¬ a + bs.length ≤ a + i by omega, show ¬ a + i < a by omega] using mapFind_memFresh_at bs a i h

/-- Bytes written leave every byte outside them. -/
theorem Dev.write_byte_other (d : Dev) (a b : Nat) (bs : Bytes) (h : b < a ∨ a + bs.length ≤ b) :
    (d.write a bs).byte b = d.byte b := memSets_other d.mem a b bs h

/-- A byte written reads back. -/
theorem Dev.write_byte_at (d : Dev) (a i : Nat) (bs : Bytes) (h : i < bs.length) :
    (d.write a bs).byte (a + i) = bs[i] := memSets_at d.mem a i bs h

/-- Canonical form changes no context. -/
@[simp] theorem Dev.settle_ctx (d : Dev) (x : Nat) : d.settle.ctx x = d.ctx x := mapGet_mapCanon _ d.ctxs x

/-- Canonical form changes no cluster. -/
@[simp] theorem Dev.settle_clu (d : Dev) (c : Nat) : d.settle.clu c = d.clu c := mapGet_mapCanon _ d.clus c

/-- Canonical form changes no sync object. -/
@[simp] theorem Dev.settle_obj (d : Dev) (i : Nat) : d.settle.obj i = d.obj i := mapGet_mapCanon _ d.objs i

/-- Canonical form changes no tracker. -/
@[simp] theorem Dev.settle_trk (d : Dev) (k : Nat) : d.settle.trk k = d.trk k := mapGet_mapCanon _ d.trks k

/-- Canonical form changes no sequencer's registers. -/
@[simp] theorem Dev.settle_seqr (d : Dev) (c x : Nat) : d.settle.seqr c x = d.seqr c x :=
  mapGet_mapCanon _ d.seqs (c * 8 + x)

/-- A settled block has every table in canonical form. -/
theorem Dev.settle_tablesWf (d : Dev) : d.settle.tablesWf = true := by
  simp only [Dev.tablesWf, Dev.settle, Memory.wf, mapWf_mapCanon, Bool.and_self]

/-- A block already in canonical form is left as it is. -/
theorem Dev.settle_of_wf (d : Dev) (h : d.tablesWf = true) : d.settle = d := by
  simp only [Dev.tablesWf, Memory.wf, Bool.and_eq_true] at h
  unfold Dev.settle
  obtain ⟨⟨⟨⟨⟨⟨⟨h1, h2⟩, h3⟩, h4⟩, h5⟩, h6⟩, h7⟩, h8⟩ := h
  rw [mapCanon_of_wf _ _ h1, mapCanon_of_wf _ _ h2, mapCanon_of_wf _ _ h3, mapCanon_of_wf _ _ h4, mapCanon_of_wf _ _ h5,
    mapCanon_of_wf _ _ h6, mapCanon_of_wf _ _ h7, mapCanon_of_wf _ _ h8]

/-- A context reads as written, in canonical tables. -/
theorem Dev.setCtx_same (d : Dev) (x : Nat) (c : Ctx) (h : keysRise (d.ctxs.map Prod.fst) = true) : (d.setCtx x c).ctx x = c :=
  mapGet_mapSet_same _ d.ctxs x c h

/-- A cluster reads as written, in canonical tables. -/
theorem Dev.setClu_same (d : Dev) (c : Nat) (k : Cluster) (h : keysRise (d.clus.map Prod.fst) = true) : (d.setClu c k).clu c = k :=
  mapGet_mapSet_same _ d.clus c k h

/-- A sync object reads as written, in canonical tables. -/
theorem Dev.setObj_same (d : Dev) (i : Nat) (o : SyncObj) (h : keysRise (d.objs.map Prod.fst) = true) : (d.setObj i o).obj i = o :=
  mapGet_mapSet_same _ d.objs i o h

/-- The registers of a sequencer read as written, in canonical tables. -/
theorem Dev.setSeqr_same (d : Dev) (c x : Nat) (r : SeqRegs) (h : keysRise (d.seqs.map Prod.fst) = true) :
    (d.setSeqr c x r).seqr c x = r := mapGet_mapSet_same _ d.seqs (c * 8 + x) r h

/-- Writing another context leaves this one. -/
theorem Dev.setCtx_other (d : Dev) (x y : Nat) (c : Ctx) (h : y ≠ x) : (d.setCtx x c).ctx y = d.ctx y :=
  mapGet_mapSet_other _ d.ctxs x y c h

/-- Writing another cluster leaves this one. -/
theorem Dev.setClu_other (d : Dev) (c j : Nat) (k : Cluster) (h : j ≠ c) : (d.setClu c k).clu j = d.clu j :=
  mapGet_mapSet_other _ d.clus c j k h

end Sys2Proof.Machine
end

