-- ==== Sys2Proof/Laws/Slot.lean ====
section
/-!
SUPPORT. What the issue of a slot can do: a slot alone in its bundle, a slot that only joins the gathered ones, a slot that cannot
issue, and a precise fault.
-/

namespace Sys2Proof.Machine

/-- Every command answers a next state with the queue as it was, and what it makes of the block depends on the block alone. -/
theorem exec_after (c : Instr) (s : State) : exec c s = .next { s with dev := s.dev.after c } := by
  cases c <;> rfl

/-- What a command makes of the block, from what its meaning is before its tables settle. -/
theorem becomes_of_after {c : Instr} {d d' e : Dev} (h : d.after c = e.settle) (he : e = d') : Becomes c d d' := by
  intro q
  rw [exec_after, ← he, ← h]

/-- The parts of a slot that comes to issue alone. -/
theorem Dev.alone_parts (d : Dev) (a : Slot) (h : d.alone a = true) :
    d.mayIssue a.cl = true ∧ (d.clu a.cl).staged = [] ∧ (d.slotRegs a).pc < d.imageLen (d.slotCtx a) a.cl ∧ a.last = true := by
  simp only [Dev.alone, Bool.and_eq_true, decide_eq_true_eq, List.isEmpty_iff] at h
  exact ⟨h.1.1.1, h.1.1.2, h.1.2, h.2⟩

/-- A slot alone in its bundle issues it. -/
theorem Dev.slot_alone_issue (d : Dev) (a : Slot) (ix opc : Nat) (tile : Option Nat)
    (work : Nat → SeqRegs → Except SlotFault (List SlotEff)) (effs : List SlotEff) (h : d.aloneOn a = true)
    (hw : work (d.slotCtx a) (d.slotRegs a) = .ok effs) :
    d.slot a ix opc false tile work =
      d.issueBundle a.cl (d.slotCtx a) [{ slot := ix, bits := slotBits a opc, tile := tile, fault := none, effs := effs }] := by
  simp only [Dev.aloneOn, Bool.and_eq_true] at h
  obtain ⟨h1, h2, h3, h4⟩ := d.alone_parts a h.1
  have h3' : ¬ d.imageLen (d.slotCtx a) a.cl ≤ (d.slotRegs a).pc := by omega
  unfold Dev.slotRegs Dev.slotCtx at *
  simp [Dev.slot, h1, h2, h3', h4, h.2, hw, slotInsert]

/-- One record with no fault issues: every effect, then the end of the bundle (R159, R175). -/
theorem Dev.issueBundle_one (d : Dev) (c x ix bits : Nat) (tile : Option Nat) (effs : List SlotEff)
    (hs : (issueOrder effs).any (d.stalls c x) = false) :
    d.issueBundle c x [{ slot := ix, bits := bits, tile := tile, fault := none, effs := effs }] =
      (let pc := (d.seqr c x).pc
       let d1 := (issueOrder effs).foldl (Dev.applyEff c x pc) d
       let n := nextPc pc (issueOrder effs) (d1.seqr c x).loops
       (issueOrder effs).foldl (Dev.finish c x pc n.1) (d1.bundleEnd c x pc n (jumpOf (issueOrder effs)).isSome)) := by
  have hf : slotFaultIn [{ slot := ix, bits := bits, tile := tile, fault := none, effs := effs }]
      { slot := ix, bits := bits, tile := tile, fault := none, effs := effs } = none := by
    by_cases h2 : ix = 2 <;> simp [slotFaultIn, h2]
  simp only [Dev.issueBundle, List.filter_cons, hf, List.filter_nil, List.flatMap_cons, List.flatMap_nil, List.append_nil,
    Option.isSome_none, Bool.false_eq_true, if_false, hs]
  rfl

/-- A slot alone in its bundle whose effects neither stall, transfer control, wait nor end the stream: the effects, then the end of
the bundle. -/
theorem Dev.slot_alone (d : Dev) (a : Slot) (ix opc : Nat) (tile : Option Nat)
    (work : Nat → SeqRegs → Except SlotFault (List SlotEff)) (effs : List SlotEff) (h : d.aloneOn a = true)
    (hw : work (d.slotCtx a) (d.slotRegs a) = .ok effs) (hk : issueOrder effs = effs)
    (hs : effs.any (d.stalls a.cl (d.slotCtx a)) = false) (hj : jumpOf effs = none) (hl : skipOf effs = none)
    (hf : ∀ (e : Dev) (n : Nat), effs.foldl (Dev.finish a.cl (d.slotCtx a) (d.slotRegs a).pc n) e = e) :
    d.slot a ix opc false tile work =
      d.issuedBy a fun d => effs.foldl (Dev.applyEff a.cl (d.slotCtx a) (d.slotRegs a).pc) d := by
  rw [d.slot_alone_issue a ix opc tile work effs h hw, d.issueBundle_one _ _ _ _ _ _ (by rw [hk]; exact hs), hk]
  have hn : ∀ (pc : Nat) (ls : List LoopLevel), nextPc pc effs ls = nextPc pc [] ls := by
    intro pc ls
    simp only [nextPc, hj, hl]
    rfl
  simp only [hn, hj, Option.isSome_none]
  exact hf _ _

/-- A slot with a decode fault, alone in its bundle (R161, R217). -/
theorem Dev.slot_alone_ill (d : Dev) (a : Slot) (ix opc : Nat) (tile : Option Nat)
    (work : Nat → SeqRegs → Except SlotFault (List SlotEff)) (h : d.alone a = true) :
    d.slot a ix opc true tile work =
      d.seqExc a.cl (d.slotCtx a) 1 (slotBits a opc) ix 0 (d.slotRegs a).pc true false 0 := by
  obtain ⟨h1, h2, h3, h4⟩ := d.alone_parts a h
  have h3' : ¬ d.imageLen (d.slotCtx a) a.cl ≤ (d.slotRegs a).pc := by omega
  unfold Dev.slotRegs Dev.slotCtx at *
  simp [Dev.slot, h1, h2, h3', h4, slotInsert, Dev.issueBundle, slotFaultIn]

/-- A slot alone in its bundle with a precise fault of its own (R215, R217). -/
theorem Dev.slot_alone_exc (d : Dev) (a : Slot) (ix opc code info tr : Nat) (tile : Option Nat)
    (work : Nat → SeqRegs → Except SlotFault (List SlotEff)) (h : d.aloneOn a = true)
    (hw : work (d.slotCtx a) (d.slotRegs a) = .error (.exc code info tr)) :
    d.slot a ix opc false tile work =
      d.seqExc a.cl (d.slotCtx a) code info ix 0 (d.slotRegs a).pc true false tr := by
  simp only [Dev.aloneOn, Bool.and_eq_true] at h
  obtain ⟨h1, h2, h3, h4⟩ := d.alone_parts a h.1
  have h3' : ¬ d.imageLen (d.slotCtx a) a.cl ≤ (d.slotRegs a).pc := by omega
  unfold Dev.slotRegs Dev.slotCtx at *
  simp [Dev.slot, h1, h2, h3', h4, h.2, hw, slotInsert, Dev.issueBundle, slotFaultIn]

/-- The record of a slot as it is gathered (R161, R215): a decode fault, nothing where it is not enabled, else its work. -/
def Dev.slotRec (d : Dev) (a : Slot) (ix opc : Nat) (ill : Bool) (tile : Option Nat)
    (work : Nat → SeqRegs → Except SlotFault (List SlotEff)) : SlotRec :=
  let bits := slotBits a opc
  if ill then { slot := ix, bits := bits, tile := tile, fault := some (.exc 1 bits 0), effs := [] }
  else if !slotEnabled (d.slotRegs a) a then { slot := ix, bits := bits, tile := tile, fault := none, effs := [] }
  else
    match work (d.slotCtx a) (d.slotRegs a) with
    | .error f => { slot := ix, bits := bits, tile := tile, fault := some f, effs := [] }
    | .ok effs => { slot := ix, bits := bits, tile := tile, fault := none, effs := effs }

/-- The record keeps the slot's place and its bits. -/
theorem Dev.slotRec_place (d : Dev) (a : Slot) (ix opc : Nat) (ill : Bool) (tile : Option Nat)
    (work : Nat → SeqRegs → Except SlotFault (List SlotEff)) :
    (d.slotRec a ix opc ill tile work).slot = ix ∧ (d.slotRec a ix opc ill tile work).bits = slotBits a opc := by
  unfold Dev.slotRec
  dsimp only
  split
  · exact ⟨rfl, rfl⟩
  · split
    · exact ⟨rfl, rfl⟩
    · split <;> exact ⟨rfl, rfl⟩

/-- Effects that do not stall make a record whose effects do not stall. -/
theorem Dev.slotRec_stalls (d : Dev) (a : Slot) (ix opc : Nat) (ill : Bool) (tile : Option Nat)
    (work : Nat → SeqRegs → Except SlotFault (List SlotEff))
    (hs : ∀ effs, work (d.slotCtx a) (d.slotRegs a) = .ok effs → effs.any (d.stalls a.cl (d.slotCtx a)) = false) :
    (d.slotRec a ix opc ill tile work).effs.any (d.stalls a.cl (d.slotCtx a)) = false := by
  unfold Dev.slotRec
  dsimp only
  split
  · rfl
  · split
    · rfl
    · split
      · rfl
      · exact hs _ ‹_›

/-- A slot that does not close its bundle and does not stall joins the gathered slots, and nothing else changes. -/
theorem Dev.slot_gathers (d : Dev) (a : Slot) (ix opc : Nat) (ill : Bool) (tile : Option Nat)
    (work : Nat → SeqRegs → Except SlotFault (List SlotEff)) (hm : d.mayIssue a.cl = true)
    (hx : (d.clu a.cl).staged.any (fun q => q.slot == ix) = false)
    (hp : (d.slotRegs a).pc < d.imageLen (d.slotCtx a) a.cl) (hl : a.last = false)
    (hs : ∀ effs, work (d.slotCtx a) (d.slotRegs a) = .ok effs → effs.any (d.stalls a.cl (d.slotCtx a)) = false) :
    ∃ r : SlotRec, r.slot = ix ∧ r.bits = slotBits a opc ∧
      d.slot a ix opc ill tile work = d.modClu a.cl fun k => { k with staged := slotInsert r (d.clu a.cl).staged } := by
  refine ⟨d.slotRec a ix opc ill tile work, (d.slotRec_place a ix opc ill tile work).1,
    (d.slotRec_place a ix opc ill tile work).2, ?_⟩
  have hr := d.slotRec_stalls a ix opc ill tile work hs
  have hp' : ¬ d.imageLen (d.slotCtx a) a.cl ≤ (d.slotRegs a).pc := by omega
  have e : d.slot a ix opc ill tile work =
      if !d.mayIssue a.cl || (d.clu a.cl).staged.any (fun q => q.slot == ix) then d
      else if d.imageLen (d.slotCtx a) a.cl ≤ (d.slotRegs a).pc then
        d.seqExc a.cl (d.slotCtx a) 6 (d.imageLen (d.slotCtx a) a.cl) 0 0 (d.slotRegs a).pc true false 0
      else if a.last then d.issueBundle a.cl (d.slotCtx a) (slotInsert (d.slotRec a ix opc ill tile work) (d.clu a.cl).staged)
      else if (d.slotRec a ix opc ill tile work).effs.any (d.stalls a.cl (d.slotCtx a)) then d
      else d.modClu a.cl fun k => { k with staged := slotInsert (d.slotRec a ix opc ill tile work) (d.clu a.cl).staged } := rfl
  rw [e]
  simp only [hm, hx, hp', hl, hr, Bool.not_true, Bool.or_self, Bool.false_eq_true, if_false]

/-- A slot that comes where its sequencer may not issue changes nothing (log entry 1). -/
theorem Dev.slot_idle (d : Dev) (a : Slot) (ix opc : Nat) (ill : Bool) (tile : Option Nat)
    (work : Nat → SeqRegs → Except SlotFault (List SlotEff)) (h : d.mayIssue a.cl = false) :
    d.slot a ix opc ill tile work = d := by
  simp [Dev.slot, h]

/-- The effects of a V-slot instruction, one after another. -/
theorem Dev.vecEffs_done (d : Dev) (a : Slot) (opc : Nat) :
    (d.vecEffs (d.slotCtx a) a.cl opc a).foldl (Dev.applyEff a.cl (d.slotCtx a) (d.slotRegs a).pc) d = d.vecDone a opc := by
  have e : 0x1000000 + a.cl * 0x20000 + 0x10030 = Reg.VEC_CNT a.cl := by simp only [Reg.VEC_CNT]; omega
  unfold Dev.vecEffs Dev.vecDone Dev.vecResult
  simp only [List.foldl_append, List.foldl_cons, List.foldl_nil]
  cases ((d.slotEnv (d.slotCtx a) a.cl).run opc (opF a 0 4) (opF a 4 6) ((d.clu a.cl).tile (opF a 10 6))
    ((d.clu a.cl).tile (opF a 4 6)) ((d.clu a.cl).tile (opF a 16 6))).cnt <;>
  · simp only [apply_ite (List.foldl (Dev.applyEff a.cl (d.slotCtx a) (d.slotRegs a).pc) _), List.foldl_cons, List.foldl_nil,
      Dev.applyEff, e]
    rfl

/-- An effect that neither issues a descriptor, transfers control, waits, ends the stream nor writes VEC_SRIDX by s.csrw. -/
def SlotEff.quiet : SlotEff → Bool
  | .wait _ _ => false
  | .endstep => false
  | .jump _ => false
  | .skipTo _ => false
  | .issue _ _ _ => false
  | .csrw off _ => off != 0x10028
  | _ => true

/-- Quiet effects do not transfer control. -/
theorem jumpOf_quiet (effs : List SlotEff) (h : effs.all SlotEff.quiet = true) : jumpOf effs = none ∧ skipOf effs = none := by
  induction effs with
  | nil => exact ⟨rfl, rfl⟩
  | cons e t ih =>
    simp only [List.all_cons, Bool.and_eq_true] at h
    cases e <;> first | exact ih h.2 | exact absurd h.1 (by simp [SlotEff.quiet])

/-- Quiet effects leave the end of their bundle as it is. -/
theorem finish_quiet (effs : List SlotEff) (h : effs.all SlotEff.quiet = true) (c x pc n : Nat) (d : Dev) :
    effs.foldl (Dev.finish c x pc n) d = d := by
  induction effs generalizing d with
  | nil => rfl
  | cons e t ih =>
    simp only [List.all_cons, Bool.and_eq_true] at h
    cases e <;> first | exact ih h.2 d | exact absurd h.1 (by simp [SlotEff.quiet])

/-- Quiet effects keep the advance of VEC_SRIDX. -/
theorem keepIdx_quiet (effs : List SlotEff) (h : effs.all SlotEff.quiet = true) : keepIdx effs = effs := by
  unfold keepIdx
  rw [if_neg]
  simp only [List.any_eq_true, not_exists, not_and]
  intro e he
  have hq := List.all_eq_true.1 h e he
  cases e <;> simp_all [SlotEff.quiet]

/-- Quiet effects apply in the order in which their slot gives them. -/
theorem issueOrder_quiet (effs : List SlotEff) (h : effs.all SlotEff.quiet = true) : issueOrder effs = effs := by
  have hn : ∀ e ∈ effs, SlotEff.isIssue e = false := by
    intro e he
    have hq := List.all_eq_true.1 h e he
    cases e <;> simp_all [SlotEff.quiet, SlotEff.isIssue]
  have h1 : effs.filter SlotEff.isIssue = [] := List.filter_eq_nil_iff.2 fun e he => by simp [hn e he]
  have h2 : effs.filter (fun e => !e.isIssue) = effs := List.filter_eq_self.2 fun e he => by simp [hn e he]
  simp only [issueOrder, keepIdx_quiet effs h, h1, h2, List.nil_append]

/-- A slot alone in its bundle with quiet effects that do not stall. -/
theorem Dev.slot_alone_quiet (d : Dev) (a : Slot) (ix opc : Nat) (tile : Option Nat)
    (work : Nat → SeqRegs → Except SlotFault (List SlotEff)) (effs : List SlotEff) (h : d.aloneOn a = true)
    (hw : work (d.slotCtx a) (d.slotRegs a) = .ok effs) (hq : effs.all SlotEff.quiet = true)
    (hs : effs.any (d.stalls a.cl (d.slotCtx a)) = false) :
    d.slot a ix opc false tile work =
      d.issuedBy a fun d => effs.foldl (Dev.applyEff a.cl (d.slotCtx a) (d.slotRegs a).pc) d :=
  d.slot_alone a ix opc tile work effs h hw (issueOrder_quiet effs hq) hs (jumpOf_quiet effs hq).1 (jumpOf_quiet effs hq).2
    fun e n => finish_quiet effs hq _ _ _ n e

/-- The effects of a V-slot instruction are quiet. -/
theorem Dev.vecEffs_quiet (d : Dev) (x c opc : Nat) (a : Slot) : (d.vecEffs x c opc a).all SlotEff.quiet = true := by
  unfold Dev.vecEffs
  simp only [List.all_append, Bool.and_eq_true]
  refine ⟨⟨⟨⟨⟨rfl, ?_⟩, ?_⟩, ?_⟩, ?_⟩, ?_⟩ <;> split <;> rfl

/-- The effects of a V-slot instruction stall for vx.run and vx.wmax alone. -/
theorem Dev.vecEffs_stalls (d : Dev) (x c opc : Nat) (a : Slot) (h : d.vecHeld c = false) :
    (d.vecEffs x c opc a).any (d.stalls c x) = false := by
  unfold Dev.vecEffs
  simp only [List.any_append, Bool.or_eq_false_iff]
  refine ⟨⟨⟨⟨⟨?_, ?_⟩, ?_⟩, ?_⟩, ?_⟩, ?_⟩
  · simp [Dev.stalls, h]
  all_goals split <;> rfl

/-- A V-slot instruction alone in its bundle. -/
theorem Dev.vSlot_alone (d : Dev) (a : Slot) (opc : Nat) (h : d.vecReady a opc = true) :
    d.vSlot a opc = d.issuedBy a fun d => d.vecDone a opc := by
  simp only [Dev.vecReady, Bool.and_eq_true, Bool.not_eq_true'] at h
  obtain ⟨⟨h1, h2⟩, h3⟩ := h
  unfold Dev.vSlot
  rw [h2, d.slot_alone_quiet a 2 opc _ _ _ h1 rfl (d.vecEffs_quiet _ _ _ _) (d.vecEffs_stalls _ _ _ _ h3)]
  unfold Dev.issuedBy
  dsimp only
  rw [d.vecEffs_done]

/-- What the issue of a ready descriptor finds. -/
theorem Dev.issueDesc_ready (d : Dev) (a : Slot) (kind : Nat) (h : d.descReady a kind = true) :
    d.issueDesc a.cl (d.slotCtx a) kind (d.slotRegs a) a = .ok [.issue kind (descEa (d.slotRegs a) a) (d.descBytes a)] := by
  simp only [Dev.descReady, Bool.and_eq_true, Bool.not_eq_true', beq_iff_eq, Option.isNone_iff_eq_none] at h
  obtain ⟨⟨⟨⟨⟨⟨⟨h1, h2⟩, h3⟩, h4⟩, h5⟩, h6⟩, h7⟩, h8⟩ := h
  unfold Dev.descBytes at h5 h6
  simp only [Dev.issueDesc, h3, h4, h5, h6, Bool.false_eq_true, if_false, ne_eq, not_true, Bool.not_true]
  rw [if_neg]
  · rfl
  · simpa using h7

/-- A descriptor's issue is the one effect of its slot. -/
theorem issueOrder_issue (kind ea : Nat) (bs : Bytes) : issueOrder [.issue kind ea bs] = [.issue kind ea bs] := rfl

/-- A descriptor's issue leaves the end of its bundle as it is. -/
theorem finish_issue (kind ea : Nat) (bs : Bytes) (c x pc n : Nat) (d : Dev) :
    [SlotEff.issue kind ea bs].foldl (Dev.finish c x pc n) d = d := rfl

/-- A slot that issues a ready descriptor, alone in its bundle, whose body is the command's own. -/
theorem Dev.descSlot_alone (d : Dev) (a : Slot) (ix opc kind : Nat) (mine : Bytes → Bool) (h : d.descReady a kind = true)
    (hm : mine (d.descBytes a) = true) :
    d.descSlot a ix opc kind mine =
      d.issuedBy a fun d => Dev.applyEff a.cl (d.slotCtx a) (d.slotRegs a).pc d (.issue kind (descEa (d.slotRegs a) a) (d.descBytes a)) := by
  have hi := d.issueDesc_ready a kind h
  simp only [Dev.descReady, Bool.and_eq_true, Bool.not_eq_true', beq_iff_eq, Option.isNone_iff_eq_none] at h
  obtain ⟨⟨⟨⟨⟨⟨⟨h1, h2⟩, h3⟩, h4⟩, h5⟩, h6⟩, h7⟩, h8⟩ := h
  have ho : ¬ ((slotEnabled (d.seqr a.cl (d.clu a.cl).ctx) a && opF a 0 6 == 0 &&
      match d.issueDesc a.cl (d.clu a.cl).ctx kind (d.seqr a.cl (d.clu a.cl).ctx) a with
      | .ok [.issue _ _ bs] => !mine bs
      | _ => false) = true) := by
    rw [show d.issueDesc a.cl (d.clu a.cl).ctx kind (d.seqr a.cl (d.clu a.cl).ctx) a = _ from hi]
    simp [hm]
  have hill : (opF a 0 6 != 0) = false := by simp [h2]
  unfold Dev.descSlot
  dsimp only
  refine (if_neg ho).trans ?_
  have hs : [SlotEff.issue kind (descEa (d.slotRegs a) a) (d.descBytes a)].any (d.stalls a.cl (d.slotCtx a)) = false := by
    simp only [List.any_cons, List.any_nil, h8, Bool.or_self]
  rw [hill]
  have hq := d.slot_alone a ix opc none (fun x r => d.issueDesc a.cl x kind r a)
    [.issue kind (descEa (d.slotRegs a) a) (d.descBytes a)] h1 hi (issueOrder_issue _ _ _) hs rfl rfl
    fun e n => finish_issue _ _ _ _ _ _ n e
  rw [hq]
  simp only [Dev.issuedBy, List.foldl_cons, List.foldl_nil]

end Sys2Proof.Machine
end

