-- ==== Sys2Proof/WellFormed.lean ====
section
/-!
DEFINITION. Well-formed commands: operands that the command's row can carry. No meaning rests on it: a command with an operand out of
its range changes nothing (log entry 1).
-/

namespace Sys2Proof

/-- A slot of one of the 128 clusters. -/
def Slot.wf (a : Slot) : Bool := decide (a.cl < 128)

/-- Words at multiples of 8 that a scratchpad master wins (R504, R510). -/
def lostWf (lost : List (Nat × Nat)) : Bool := lost.all fun l => l.1 % 8 == 0 && decide (l.2 < 8)

/-- A packet on one of the 32 ports and eight virtual channels, in whole units of 16 bytes: header of two, payload of at most 256 and
trailer of one (R604). -/
def Packet.wf (p : Packet) : Bool :=
  decide (p.port < 32) && decide (p.vc < 8) && p.bytes.length % 16 == 0 && decide (48 ≤ p.bytes.length) && decide (p.bytes.length ≤ 4144) &&
    lostWf p.lost

/-- A RoCEv2 request at one of the two network ports. -/
def Rdma.wf (r : Rdma) : Bool := decide (r.port < 2) && decide (r.psn < 2 ^ 24) && decide (r.addr < 2 ^ 64) && lostWf r.lost

/-- A word that exists: clusters have 64 tiles, two planes and an accumulator file, in fewer than 2^20 words; entry counts are those of
R112, R126, R258 and R531. -/
def SramWord.wf : SramWord → Bool
  | .bureau => true
  | .cluster c w => decide (c < 128) && decide (w < 2 ^ 20)
  | .cacheLine _ => true
  | .syncObj i => decide (i < 65536)
  | .tracker k => decide (k < 2 ^ 18)
  | .cabinet x p i => decide (x < 8) && decide (p < 8) && decide (i < 16384)
  | .bias i => decide (i < 65536)

/-- Every operand of a command lies in its range. -/
def Instr.wf : Instr → Bool
  | .csrWrite _ off data => decide (off < 0x11000000) && (data.length == 4 || data.length % 8 == 0) && decide (data.length ≤ 64)
  | .aonPowerRead r => decide (0 < r.n) && decide (r.off + r.n ≤ 0x11000000)
  | .load _ _ => true
  | .loadComplete => true
  | .start _ _ => true
  | .startComplete => true
  | .unload _ _ => true
  | .unloadComplete => true
  | .planStopWrite _ x _ => decide (x < 8)
  | .startAgreementComplete x => decide (x < 8)
  | .contextWake x => decide (x < 8)
  | .stepStart x => decide (x < 8)
  | .stepWatchdog x => decide (x < 8)
  | .drainComplete x => decide (x < 8)
  | .boundaryComplete x => decide (x < 8)
  | .journalWaitTimeout x => decide (x < 8)
  | .syncUpdateApply _ => true
  | .waitComplete c => decide (c < 128)
  | .trackerComplete k => decide (k < 2 ^ 18)
  | .trackerTimeout k => decide (k < 2 ^ 18)
  | .dmaSegmentStart c _ => decide (c < 128)
  | .localWritePerform _ lost => lostWf lost
  | .clusterGate c => decide (c < 128)
  | .wakeStop x _ => decide (x < 8)
  | .wakeStart x _ => decide (x < 8)
  | .groupPllLocked g => decide (g < 16)
  | .backgroundWindowOpen r n => decide (r < 4) && decide (n < 8)
  | .backgroundWindowClose r n => decide (r < 4) && decide (n < 8)
  | .codeFetch c _ => decide (c < 128)
  | .sNop a slot opc => a.wf && decide (slot < 4) && decide (opc < 64)
  | .sAlu a => a.wf
  | .sAddi a => a.wf
  | .sAndi a => a.wf
  | .sOri a => a.wf
  | .sXori a => a.wf
  | .sShli a => a.wf
  | .sShri a => a.wf
  | .sSrai a => a.wf
  | .sMovi a => a.wf
  | .sMovk a _ => a.wf
  | .sLd a _ => a.wf
  | .sSt a => a.wf && a.lost.all fun w => decide (w.1 < 2) && decide (w.2 < 8)
  | .sCmp a => a.wf
  | .sCmpi a => a.wf
  | .sPop a => a.wf
  | .sSel a => a.wf
  | .sMova a => a.wf
  | .sMovs a => a.wf
  | .sAaddi a => a.wf
  | .sAadd a => a.wf
  | .sBr a => a.wf
  | .sCall a => a.wf
  | .sJr a => a.wf
  | .sLoop a => a.wf
  | .sLpop a => a.wf
  | .sCsrr a => a.wf
  | .sCsrw a => a.wf
  | .sTrap a => a.wf
  | .mxGemm a => a.wf
  | .mxGemmGrp a => a.wf
  | .mxGemmSp a => a.wf
  | .mxLoad a => a.wf
  | .mxDrain a => a.wf
  | .mxDescStart c => decide (c < 128)
  | .mxDescComplete c => decide (c.n < 128) && lostWf c.lost
  | .mxaRampTick c => decide (c < 128)
  | .mxaGapExpire c => decide (c < 128)
  | .vxRun a => a.wf
  | .vxWmax a => a.wf
  | .vxDescStart c => decide (c < 128)
  | .vxDescComplete c => decide (c.n < 128) && lostWf c.lost
  | .vxAdd a => a.wf
  | .vxSub a => a.wf
  | .vxMul a => a.wf
  | .vxFma a => a.wf
  | .vxFnma a => a.wf
  | .vxDiv a => a.wf
  | .vxSqrt a => a.wf
  | .vxMin a => a.wf
  | .vxMax a => a.wf
  | .vxAbs a => a.wf
  | .vxNeg a => a.wf
  | .vxAnd a => a.wf
  | .vxOr a => a.wf
  | .vxXor a => a.wf
  | .vxAndn a => a.wf
  | .vxShl a => a.wf
  | .vxShr a => a.wf
  | .vxSra a => a.wf
  | .vxCeq a => a.wf
  | .vxCne a => a.wf
  | .vxClt a => a.wf
  | .vxCle a => a.wf
  | .vxSel a => a.wf
  | .vxMov a => a.wf
  | .vxBcast a => a.wf
  | .vxIota a => a.wf
  | .vxRng a => a.wf
  | .vxRsum a => a.wf
  | .vxRmax a => a.wf
  | .vxTr a => a.wf
  | .vxCmpr a => a.wf
  | .vxExpd a => a.wf
  | .vxPopc a => a.wf
  | .vxExp a => a.wf
  | .vxLog a => a.wf
  | .vxRsqrt a => a.wf
  | .vxTanh a => a.wf
  | .vxErf a => a.wf
  | .vxSin a => a.wf
  | .vxCos a => a.wf
  | .vxCvt a => a.wf
  | .vxLdt a => a.wf
  | .vxStt a lost => a.wf && lost.all fun w => decide (w.1 < 512) && decide (w.2 < 8)
  | .syncInc a => a.wf
  | .syncIncr a => a.wf
  | .syncAdd a => a.wf
  | .syncAddr a => a.wf
  | .syncWait a => a.wf
  | .syncWaitr a => a.wf
  | .syncEndstep a => a.wf
  | .fabDma a => a.wf
  | .fabAmo a => a.wf
  | .drsTopk a => a.wf
  | .drsAssign a => a.wf
  | .drsBias a => a.wf
  | .drsDescStart u => decide (u < 8)
  | .drsDescComplete u _ => decide (u.n < 8) && lostWf u.lost
  | .allreduce a => a.wf
  | .reduceScatter a => a.wf
  | .allgather a => a.wf
  | .broadcast a => a.wf
  | .barrier a => a.wf
  | .count a => a.wf
  | .dispatch a => a.wf
  | .xchgReturn a => a.wf
  | .reduce a => a.wf
  | .collOpStart _ => true
  | .collOpComplete k _ => lostWf k.lost
  | .collChunkConsume _ => true
  | .tierStage a => a.wf
  | .drop a => a.wf
  | .flush a => a.wf
  | .advance a => a.wf
  | .cread a => a.wf
  | .cwrite a => a.wf
  | .trim a => a.wf
  | .tierCmdComplete c _ _ => decide (c.n < 128) && lostWf c.lost
  | .prefetchEntryStart x => decide (x < 8)
  | .ageingEvict x _ pool => decide (x < 8) && decide (pool < 2)
  | .evictionWritebackDone x _ pool => decide (x < 8) && decide (pool < 2)
  | .ckpSnap a => a.wf
  | .cowCopyComplete x _ _ => decide (x < 8)
  | .snapshotDone x => decide (x < 8)
  | .restoreGo _ _ => true
  | .restoreComplete => true
  | .stage _ _ => true
  | .cancel _ _ => true
  | .placeCmdComplete => true
  | .placeSwapWrite _ _ => true
  | .seqRegAccess _ off _ => decide (off < 0x10000000)
  | .spmLostClear _ c _ =>
    decide (c.c < 128) && c.lost.all fun l => decide (l.1 < 8) && decide (l.2.1 < 0x800000) && l.2.1 % 8 == 0 && decide (l.2.2 < 8)
  | .hcInvalidate _ => true
  | .hcInvalidateDone => true
  | .cabinetAlloc x c _ owner => decide (x < 8) && decide (c < 16) && decide (owner < 16)
  | .cabinetHandoff x p i by_ to_ => decide (x < 8) && decide (p < 8) && decide (i < 16384) && decide (by_ < 16) && decide (to_ < 16)
  | .cabinetRelease x p i by_ => decide (x < 8) && decide (p < 8) && decide (i < 16384) && decide (by_ < 16)
  | .tierPoolWrite _ t _ => decide (t < 2)
  | .chestCfgWrite _ _ => true
  | .create _ _ => true
  | .delete _ _ => true
  | .format _ _ => true
  | .nsCmdComplete _ => true
  | .chestMountComplete => true
  | .chestUnitProgrammed c _ _ => decide (c < 128)
  | .wearLevel _ => true
  | .readDisturbRelocate _ _ => true
  | .mapCheckpoint => true
  | .superframeReceive n lw _ _ => decide (n < 32) && decide (lw < 2 ^ 64)
  | .retrain n => decide (n < 32)
  | .dropPair n j => decide (n < 32) && decide (j < 4)
  | .swing _ => true
  | .laneRetrainDone n => decide (n < 32)
  | .laneRetrainFail n j => decide (n < 32) && decide (j < 4)
  | .holdTimeout n => decide (n < 32)
  | .swingWaitTimeout n => decide (n < 32)
  | .portTrainingDone n _ major minor => decide (n < 32) && decide (major < 256) && decide (minor < 256)
  | .swingGo _ _ => true
  | .swingComplete => true
  | .swingRelease _ _ => true
  | .packetForward _ far => decide (far < 65536)
  | .combineEntryTimeout _ => true
  | .write p => p.wf
  | .writeShort p => p.wf
  | .read p => p.wf
  | .amo p => p.wf
  | .amoFetch p => p.wf
  | .ack p => p.wf
  | .readResp p => p.wf
  | .amoResp p => p.wf
  | .nack p => p.wf
  | .coll p => p.wf
  | .collLl p => p.wf
  | .parkedPacketPerform _ => true
  | .mgmtCsr p => p.wf
  | .mgmtSwing p => p.wf
  | .discStart _ _ => true
  | .disc p => p.wf
  | .discTimeout => true
  | .fabPkeyWrite _ k _ => decide (k < 16)
  | .ctxPkeyWrite _ x _ => decide (x < 8)
  | .fabConfigWrite _ _ _ => true
  | .trestleExchange => true
  | .time p => p.wf
  | .timeExchangeMissed => true
  | .trsCfgWrite _ _ => true
  | .jheadWrite _ x _ => decide (x < 8)
  | .journalRingWrite _ x _ _ => decide (x < 8)
  | .journalExport x => decide (x < 8)
  | .kill _ x _ => decide (x < 8)
  | .teardown _ x _ => decide (x < 8)
  | .holdExpire x => decide (x < 8)
  | .quiesceDone x => decide (x < 8)
  | .releaseDone x => decide (x < 8)
  | .clearDone x => decide (x < 8)
  | .scrubRead _ _ _ _ => true
  | .pfBar2Access off _ _ => decide (off < 2 ^ 36)
  | .vfBar0Access n off _ => decide (1 ≤ n) && decide (n ≤ 8) && decide (off < 65536)
  | .vfBar2Access n off _ _ => decide (1 ≤ n) && decide (n ≤ 8) && decide (off < 2 ^ 34)
  | .vfCfgWrite _ n _ => decide (1 ≤ n) && decide (n ≤ 8)
  | .vfFlr n => decide (1 ≤ n) && decide (n ≤ 8)
  | .pfFlr => true
  | .hotReset => true
  | .hostLinkDown => true
  | .rdmaWriteIn r => r.wf
  | .rdmaWriteImmIn r imm => r.wf && decide (imm < 2 ^ 32)
  | .invalidOpcodeIn r => r.wf
  | .rdmaAckIn t psn => decide (t < 16) && decide (psn < 2 ^ 24)
  | .rdmaReadRespIn t _ => decide (t.n < 16) && lostWf t.lost
  | .rdmaAckTimeout t => decide (t < 16)
  | .netTgtCommit _ t _ => decide (t < 16)
  | .netIngCommit _ i _ => decide (i < 16)
  | .mctpControl path => decide (path < 3)
  | .pldmMonitoring path => decide (path < 3)
  | .requestUpdate path slot => decide (path < 3) && decide (slot < 2)
  | .firmwareStoreWrite off data _ => decide (off + data.length ≤ 2 ^ 24)
  | .activateFirmware path _ => decide (path < 3)
  | .getVersion path => decide (path < 3)
  | .getCapabilities path => decide (path < 3)
  | .negotiateAlgorithms path => decide (path < 3)
  | .getDigests path => decide (path < 3)
  | .getCertificate path n => decide (path < 3) && decide (n < 65536)
  | .challenge path => decide (path < 3)
  | .getMeasurements path ix => decide (path < 3) && (ix == 255 || decide (1 ≤ ix) && decide (ix ≤ 8))
  | .mgmtPortCsr path _ => decide (path < 3)
  | .identityMemoryMsg path blk _ => decide (path < 3) && decide (blk < 1024)
  | .entdaa addr => decide (addr < 128)
  | .i3cStuckDetect => true
  | .i3cRecoveryEnd _ => true
  | .rearm _ _ _ => true
  | .idmRead _ _ => true
  | .idmWrite _ _ => true
  | .idmWriteComplete => true
  | .pwrGoodRise => true
  | .pwrGoodFall => true
  | .perstAssert => true
  | .perstDeassert => true
  | .hubPllLock => true
  | .clusterBistDone bad => bad.all fun k => decide (k < 136)
  | .firmwareSlotSelect => true
  | .hbmTrainingDone bad => bad.all fun k => decide (k < 256)
  | .capacityTrainingDone bad _ _ _ _ wrong => decide (bad < 2 ^ 32) && decide (wrong < 2 ^ 32)
  | .hubPllLockLoss => true
  | .groupPllLockLoss g => decide (g < 16)
  | .pwrDomainOff _ _ => true
  | .pwrDomainOn _ _ => true
  | .pwrDomainReset _ _ => true
  | .domainUsable n => decide (n < 27)
  | .aonTeardown _ arg => decide (arg < 8)
  | .linkDisable _ arg => decide (arg < 32)
  | .linkEnable _ arg => decide (arg < 32)
  | .domainReset _ arg => decide (arg < 27)
  | .domainOff _ arg => decide (arg < 27)
  | .domainOn _ arg => decide (arg < 27)
  | .quote _ => true
  | .thermalShutdown _ => true
  | .coldReset _ => true
  | .aonOpComplete => true
  | .teardownEscalate => true
  | .confirm _ _ => true
  | .confirmTimeout => true
  | .mrExtend _ _ => true
  | .clockControlTick => true
  | .pwrbrkAssert => true
  | .pwrbrkRelease => true
  | .sensorSample ts power => (ts.length == 34 && ts.all fun t => decide (t < 65536)) && decide (power < 65536)
  | .telemetrySend => true
  | .receiverLossOfLock n => decide (n < 32)
  | .hubPllRelock => true
  | .prefetchEntryComplete x _ _ => decide (x < 8)
  | .bureauSramUncorrectable w => w.wf
  | .hostLinkUp speed width _ => decide (1 ≤ speed) && decide (speed ≤ 7) && [1, 2, 4, 8, 16].contains width
  | .networkLinkUp p mode => decide (p < 2) && decide (mode < 2)
  | .networkLinkDown p => decide (p < 2)
  | .rdmaNakIn t => decide (t < 16)
  | .priorityFlowControlFrame p prio _ => decide (p < 2) && decide (prio < 8)
  | .congestionNotificationPacket _ => true

end Sys2Proof
end

