-- ==== Sys2Proof/Tests/Slice0.lean ====
section
/-!
SUPPORT. Tests: ill-formed commands, which the check refuses; single steps against values of the spec; and, for each statement with
hypotheses, a state and operands that meet them.
-/

namespace Sys2Proof.Tests

open Sys2Proof Sys2Proof.Machine

/-! ### Small blocks -/

/-- The section table and contents of a plan, the contents from off on: (type, count, bytes) each. -/
def secTable : List (Nat × Nat × Bytes) → Nat → Bytes × Bytes
  | [], _ => ([], [])
  | (ty, n, bs) :: t, off =>
    let r := secTable t (off + bs.length)
    (leBytes 2 ty ++ [0, 0] ++ leBytes 4 n ++ leBytes 4 off ++ leBytes 4 bs.length ++ r.1, bs ++ r.2)

/-- A plan of job 7 on one device, ten steps in slots of 1,024 cycles, with a step limit of 256 cycles, of sections. -/
def planOf (flags : Nat) (secs : List (Nat × Nat × Bytes)) : Bytes :=
  let r := secTable secs (0x40 + 16 * secs.length)
  List.replicate 16 0 ++ leBytes 2 7 ++ [0, BitVec.ofNat 8 secs.length] ++ leBytes 4 1 ++ leBytes 8 0 ++ leBytes 8 10 ++ leBytes 8 0 ++
    leBytes 4 1024 ++ leBytes 4 0 ++ leBytes 4 1 ++ leBytes 2 flags ++ [0, 0] ++ r.1 ++ r.2

/-- The cluster table of one cluster, cluster 0, with quota 4 and an image of four bundles. -/
def clusterSec : Nat × Nat × Bytes :=
  (1, 1, [0, 0, 0, 0] ++ leBytes 4 4 ++ leBytes 8 0 ++ leBytes 4 64 ++ leBytes 4 0 ++ List.replicate 8 0)

/-- A plan with that cluster table alone. -/
def plan0 : Bytes := planOf 0 [clusterSec]

/-- The device READY with every domain on and BUR_ADMIT all ones. -/
def onDev : Dev :=
  ((({} : Dev).setReg Reg.PWR_DOMAIN_STATUS 0x0FFFFFFF).setReg Reg.BUR_ADMIT (BitVec.allOnes 64)).setReg Reg.BUR_STATUS 1

/-- Context 0 in a state, with a plan. -/
def inPlan (c : CtxState) (p : Bytes) : Dev := { onDev with ctxs := [(0, { state := c, plan := p })] }

/-- Context 0 in a state, with plan0. -/
def inState (c : CtxState) : Dev := inPlan c plan0

/-- Context 0 RUNNING, its sequencer at cluster 0 at PC 0 and the PLL of group 0 locked. -/
def runDev : Dev := { inState .running with clus := [(0, { seq := .running })], plls := [(0, .locked)] }

/-- A slot of cluster 0 with its operand bits. -/
def sl (args : BitVec 22) : Slot := { cl := 0, args := args }

/-! ### Ill-formed commands -/

/-- A well-formed packet. -/
def pktOk : Packet := { port := 31, vc := 7, bytes := List.replicate 4144 0 }

/-- A well-formed request at a network port. -/
def rdmaOk : Rdma := { port := 1, qp := 0, pkey := 0, psn := 2 ^ 24 - 1, rkey := 0, addr := 2 ^ 64 - 1, data := [] }

set_option maxRecDepth 100000 in
/-- Commands with one operand just past its range. -/
theorem smoke_ill_formed_0 : ([
    .csrWrite .bureau 0x11000000 (List.replicate 64 0), .csrWrite .bureau 0x10FFFFFF (List.replicate 12 0),
    .csrWrite .bureau 0x10FFFFFF (List.replicate 72 0), .aonPowerRead ⟨.bureau, 0x10FFFFFF, 0⟩, .aonPowerRead ⟨.bureau, 0x10FFFFFF, 2⟩, .planStopWrite .bureau 8 0, .startAgreementComplete 8, .contextWake 8,
    .stepStart 8, .stepWatchdog 8, .drainComplete 8, .boundaryComplete 8, .journalWaitTimeout 8, .waitComplete 128,
    .trackerComplete (2 ^ 18), .trackerTimeout (2 ^ 18), .dmaSegmentStart 128 .clean, .clusterGate 128, .wakeStop 8 0,
    .wakeStart 8 0, .groupPllLocked 16, .backgroundWindowOpen 4 7, .backgroundWindowOpen 3 8, .backgroundWindowClose 4 7,
    .backgroundWindowClose 3 8, .codeFetch 128 .clean, .sNop { cl := 128 } 3 63, .sNop { cl := 127 } 4 63,
    .sNop { cl := 127 } 3 64, .sAlu { cl := 128 }, .sAddi { cl := 128 }, .sAndi { cl := 128 }, .sOri { cl := 128 },
    .sXori { cl := 128 }, .sShli { cl := 128 }, .sShri { cl := 128 }, .sSrai { cl := 128 }, .sMovi { cl := 128 },
    .sMovk { cl := 128 } true, .sLd { cl := 128 } .clean, .sSt { cl := 128 }, .sCmp { cl := 128 }, .sCmpi { cl := 128 },
    .sPop { cl := 128 }, .sSel { cl := 128 }, .sMova { cl := 128 }, .sMovs { cl := 128 }, .sAaddi { cl := 128 },
    .sAadd { cl := 128 }, .sBr { cl := 128 }, .sCall { cl := 128 }, .sJr { cl := 128 }] : List Instr).all (fun i => !i.wf) = true := by decide +kernel

set_option maxRecDepth 100000 in
/-- Commands with one operand just past its range. -/
theorem smoke_ill_formed_1 : ([
    .sLoop { cl := 128 }, .sLpop { cl := 128 }, .sCsrr { cl := 128 }, .sCsrw { cl := 128 }, .sTrap { cl := 128 },
    .mxGemm { cl := 128 }, .mxGemmGrp { cl := 128 }, .mxGemmSp { cl := 128 }, .mxLoad { cl := 128 }, .mxDrain { cl := 128 },
    .mxDescStart 128, .mxDescComplete { n := 128 }, .mxaRampTick 128, .mxaGapExpire 128, .vxRun { cl := 128 }, .vxWmax { cl := 128 },
    .vxDescStart 128, .vxDescComplete { n := 128 }, .vxAdd { cl := 128 }, .vxSub { cl := 128 }, .vxMul { cl := 128 },
    .vxFma { cl := 128 }, .vxFnma { cl := 128 }, .vxDiv { cl := 128 }, .vxSqrt { cl := 128 }, .vxMin { cl := 128 },
    .vxMax { cl := 128 }, .vxAbs { cl := 128 }, .vxNeg { cl := 128 }, .vxAnd { cl := 128 }, .vxOr { cl := 128 },
    .vxXor { cl := 128 }, .vxAndn { cl := 128 }, .vxShl { cl := 128 }, .vxShr { cl := 128 }, .vxSra { cl := 128 },
    .vxCeq { cl := 128 }, .vxCne { cl := 128 }, .vxClt { cl := 128 }, .vxCle { cl := 128 }, .vxSel { cl := 128 },
    .vxMov { cl := 128 }, .vxBcast { cl := 128 }, .vxIota { cl := 128 }, .vxRng { cl := 128 }, .vxRsum { cl := 128 },
    .vxRmax { cl := 128 }, .vxTr { cl := 128 }, .vxCmpr { cl := 128 }, .vxExpd { cl := 128 }] : List Instr).all (fun i => !i.wf) = true := by decide +kernel

set_option maxRecDepth 100000 in
/-- Commands with one operand just past its range. -/
theorem smoke_ill_formed_2 : ([
    .vxPopc { cl := 128 }, .vxExp { cl := 128 }, .vxLog { cl := 128 }, .vxRsqrt { cl := 128 }, .vxTanh { cl := 128 },
    .vxErf { cl := 128 }, .vxSin { cl := 128 }, .vxCos { cl := 128 }, .vxCvt { cl := 128 }, .vxLdt { cl := 128 },
    .vxStt { cl := 128 } [], .vxStt { cl := 127 } [(512, 0)], .localWritePerform 0 [(4, 2)],
    .write { pktOk with lost := [(12, 2)] }, .syncInc { cl := 128 }, .syncIncr { cl := 128 }, .syncAdd { cl := 128 }, .syncAddr { cl := 128 },
    .syncWait { cl := 128 }, .syncWaitr { cl := 128 }, .syncEndstep { cl := 128 }, .fabDma { cl := 128 }, .fabAmo { cl := 128 },
    .drsTopk { cl := 128 }, .drsAssign { cl := 128 }, .drsBias { cl := 128 }, .drsDescStart 8, .drsDescComplete { n := 8 } 0,
    .allreduce { cl := 128 }, .reduceScatter { cl := 128 }, .allgather { cl := 128 }, .broadcast { cl := 128 },
    .barrier { cl := 128 }, .count { cl := 128 }, .dispatch { cl := 128 }, .xchgReturn { cl := 128 }, .reduce { cl := 128 },
    .tierStage { cl := 128 }, .drop { cl := 128 }, .flush { cl := 128 }, .advance { cl := 128 }, .cread { cl := 128 },
    .cwrite { cl := 128 }, .trim { cl := 128 }, .tierCmdComplete { n := 128 } 0 .clean, .prefetchEntryStart 8, .ageingEvict 8 0 1,
    .ageingEvict 7 0 2, .evictionWritebackDone 8 0 1, .evictionWritebackDone 7 0 2, .ckpSnap { cl := 128 },
    .cowCopyComplete 8 0 .clean, .snapshotDone 8] : List Instr).all (fun i => !i.wf) = true := by decide +kernel

set_option maxRecDepth 100000 in
/-- Commands with one operand just past its range. -/
theorem smoke_ill_formed_3 : ([
    .seqRegAccess .bureau (2 ^ 28) none, .spmLostClear .bureau { c := 128 } 0, .spmLostClear .bureau ⟨127, [(8, 0, 0)]⟩ 0, .cabinetAlloc 8 15 0 15, .cabinetAlloc 7 16 0 15,
    .cabinetAlloc 7 15 0 16, .cabinetHandoff 8 7 16383 15 15, .cabinetHandoff 7 8 16383 15 15, .cabinetHandoff 7 7 16384 15 15,
    .cabinetHandoff 7 7 16383 16 15, .cabinetHandoff 7 7 16383 15 16, .cabinetRelease 8 7 16383 15, .cabinetRelease 7 8 16383 15,
    .cabinetRelease 7 7 16384 15, .cabinetRelease 7 7 16383 16, .tierPoolWrite .bureau 2 0, .chestUnitProgrammed 128 0 true,
    .superframeReceive 32 (2 ^ 64 - 1) true true, .superframeReceive 31 (2 ^ 64) true true, .retrain 32, .dropPair 32 3,
    .dropPair 31 4, .laneRetrainDone 32, .laneRetrainFail 32 3, .laneRetrainFail 31 4, .holdTimeout 32, .swingWaitTimeout 32,
    .portTrainingDone 32 0 255 255, .portTrainingDone 31 0 256 255, .portTrainingDone 31 0 255 256, .packetForward 0 65536,
    .write { pktOk with port := 32 }, .write { pktOk with vc := 8 }, .write { pktOk with bytes := List.replicate 50 0 },
    .write { pktOk with bytes := List.replicate 32 0 }, .write { pktOk with bytes := List.replicate 4160 0 },
    .writeShort { pktOk with bytes := List.replicate 50 0 }, .read { pktOk with bytes := List.replicate 32 0 },
    .amo { pktOk with bytes := List.replicate 4160 0 }, .amoFetch { pktOk with port := 32 }, .ack { pktOk with vc := 8 },
    .readResp { pktOk with bytes := List.replicate 50 0 }, .amoResp { pktOk with bytes := List.replicate 32 0 },
    .nack { pktOk with bytes := List.replicate 4160 0 }, .coll { pktOk with port := 32 }, .collLl { pktOk with vc := 8 },
    .mgmtCsr { pktOk with bytes := List.replicate 50 0 }, .mgmtSwing { pktOk with bytes := List.replicate 32 0 },
    .disc { pktOk with bytes := List.replicate 4160 0 }, .fabPkeyWrite .bureau 16 0, .ctxPkeyWrite .bureau 8 0] : List Instr).all (fun i => !i.wf) = true := by decide +kernel

set_option maxRecDepth 100000 in
/-- Commands with one operand just past its range. -/
theorem smoke_ill_formed_4 : ([
    .time { pktOk with port := 32 }, .jheadWrite .bureau 8 0, .journalRingWrite .bureau 8 true 0, .journalExport 8,
    .kill .bureau 8 0, .teardown .bureau 8 0, .holdExpire 8, .quiesceDone 8, .releaseDone 8, .clearDone 8,
    .pfBar2Access (2 ^ 36) 0 none, .vfBar0Access 9 65535 none, .vfBar0Access 0 65535 none, .vfBar0Access 8 65536 none,
    .vfBar2Access 9 (2 ^ 34 - 1) 0 none, .vfBar2Access 0 (2 ^ 34 - 1) 0 none, .vfBar2Access 8 (2 ^ 34) 0 none,
    .vfCfgWrite .bureau 9 0, .vfCfgWrite .bureau 0 0, .vfFlr 9, .vfFlr 0, .rdmaWriteIn { rdmaOk with port := 2 },
    .rdmaWriteIn { rdmaOk with psn := 2 ^ 24 }, .rdmaWriteIn { rdmaOk with addr := 2 ^ 64 },
    .rdmaWriteImmIn { rdmaOk with port := 2 } (2 ^ 32 - 1), .rdmaWriteImmIn { rdmaOk with psn := 2 ^ 24 } (2 ^ 32 - 1),
    .rdmaWriteImmIn { rdmaOk with addr := 2 ^ 64 } (2 ^ 32 - 1), .rdmaWriteImmIn rdmaOk (2 ^ 32),
    .invalidOpcodeIn { rdmaOk with port := 2 }, .invalidOpcodeIn { rdmaOk with psn := 2 ^ 24 },
    .invalidOpcodeIn { rdmaOk with addr := 2 ^ 64 }, .rdmaAckIn 16 (2 ^ 24 - 1), .rdmaAckIn 15 (2 ^ 24), .rdmaReadRespIn { n := 16 } [],
    .rdmaAckTimeout 16, .netTgtCommit .bureau 16 0, .netIngCommit .bureau 16 0, .mctpControl 3, .pldmMonitoring 3,
    .requestUpdate 3 1, .requestUpdate 2 2, .firmwareStoreWrite (2 ^ 24 + 1) [] true, .activateFirmware 3 [], .getVersion 3,
    .getCapabilities 3, .negotiateAlgorithms 3, .getDigests 3, .getCertificate 3 65535, .getCertificate 2 65536, .challenge 3] : List Instr).all (fun i => !i.wf) = true := by decide +kernel

set_option maxRecDepth 100000 in
/-- Commands with one operand just past its range. -/
theorem smoke_ill_formed_5 : ([
    .getMeasurements 3 8, .getMeasurements 2 0, .getMeasurements 2 9, .mgmtPortCsr 3 [], .identityMemoryMsg 3 1023 none,
    .identityMemoryMsg 2 1024 none, .entdaa 128, .clusterBistDone [136], .hbmTrainingDone [256],
    .capacityTrainingDone (2 ^ 32) 0 0 0 0 (2 ^ 32 - 1), .capacityTrainingDone (2 ^ 32 - 1) 0 0 0 0 (2 ^ 32),
    .groupPllLockLoss 16, .domainUsable 27, .aonTeardown .bureau 8, .linkDisable .bureau 32, .linkEnable .bureau 32,
    .domainReset .bureau 27, .domainOff .bureau 27, .domainOn .bureau 27, .sensorSample (List.replicate 33 0) 65535,
    .sensorSample (List.replicate 34 65536) 65535, .sensorSample (List.replicate 34 65535) 65536, .receiverLossOfLock 32,
    .prefetchEntryComplete 8 0 .clean, .hostLinkUp 8 16 true, .hostLinkUp 0 16 true, .hostLinkUp 7 3 true, .networkLinkUp 2 1,
    .networkLinkUp 1 2, .networkLinkDown 2, .rdmaNakIn 16, .priorityFlowControlFrame 2 7 true,
    .priorityFlowControlFrame 1 8 true, .bureauSramUncorrectable (.cluster 128 0), .bureauSramUncorrectable (.cluster 0 (2 ^ 20)),
    .bureauSramUncorrectable (.syncObj 65536), .bureauSramUncorrectable (.tracker (2 ^ 18)), .bureauSramUncorrectable (.bias 65536),
    .bureauSramUncorrectable (.cabinet 8 7 0), .bureauSramUncorrectable (.cabinet 7 8 0),
    .bureauSramUncorrectable (.cabinet 7 7 16384)] : List Instr).all (fun i => !i.wf) = true := by decide +kernel

set_option maxRecDepth 100000 in
/-- Commands with every operand at an end of its range. -/
theorem smoke_well_formed_0 : ([
    .csrWrite .bureau 0x10FFFFFF (List.replicate 64 0), .aonPowerRead ⟨.bureau, 0x10FFFFFF, 1⟩, .planStopWrite .bureau 7 0, .startAgreementComplete 7, .contextWake 7,
    .stepStart 7, .stepWatchdog 7, .drainComplete 7, .boundaryComplete 7, .journalWaitTimeout 7, .waitComplete 127,
    .trackerComplete (2 ^ 18 - 1), .trackerTimeout (2 ^ 18 - 1), .dmaSegmentStart 127 .clean, .clusterGate 127, .wakeStop 7 0,
    .wakeStart 7 0, .groupPllLocked 15, .backgroundWindowOpen 3 7, .backgroundWindowClose 3 7, .codeFetch 127 .clean,
    .sNop { cl := 127 } 3 63, .sAlu { cl := 127 }, .sAddi { cl := 127 }, .sAndi { cl := 127 }, .sOri { cl := 127 },
    .sXori { cl := 127 }, .sShli { cl := 127 }, .sShri { cl := 127 }, .sSrai { cl := 127 }, .sMovi { cl := 127 },
    .sMovk { cl := 127 } true, .sLd { cl := 127 } .clean, .sSt { cl := 127 }, .sCmp { cl := 127 }, .sCmpi { cl := 127 },
    .sPop { cl := 127 }, .sSel { cl := 127 }, .sMova { cl := 127 }, .sMovs { cl := 127 }, .sAaddi { cl := 127 },
    .sAadd { cl := 127 }, .sBr { cl := 127 }, .sCall { cl := 127 }, .sJr { cl := 127 }, .sLoop { cl := 127 },
    .sLpop { cl := 127 }, .sCsrr { cl := 127 }, .sCsrw { cl := 127 }, .sTrap { cl := 127 }, .mxGemm { cl := 127 }] : List Instr).all Instr.wf = true := by decide +kernel

set_option maxRecDepth 100000 in
/-- Commands with every operand at an end of its range. -/
theorem smoke_well_formed_1 : ([
    .mxGemmGrp { cl := 127 }, .mxGemmSp { cl := 127 }, .mxLoad { cl := 127 }, .mxDrain { cl := 127 }, .mxDescStart 127,
    .mxDescComplete { n := 127 }, .mxaRampTick 127, .mxaGapExpire 127, .vxRun { cl := 127 }, .vxWmax { cl := 127 }, .vxDescStart 127,
    .vxDescComplete { n := 127 }, .vxAdd { cl := 127 }, .vxSub { cl := 127 }, .vxMul { cl := 127 }, .vxFma { cl := 127 },
    .vxFnma { cl := 127 }, .vxDiv { cl := 127 }, .vxSqrt { cl := 127 }, .vxMin { cl := 127 }, .vxMax { cl := 127 },
    .vxAbs { cl := 127 }, .vxNeg { cl := 127 }, .vxAnd { cl := 127 }, .vxOr { cl := 127 }, .vxXor { cl := 127 },
    .vxAndn { cl := 127 }, .vxShl { cl := 127 }, .vxShr { cl := 127 }, .vxSra { cl := 127 }, .vxCeq { cl := 127 },
    .vxCne { cl := 127 }, .vxClt { cl := 127 }, .vxCle { cl := 127 }, .vxSel { cl := 127 }, .vxMov { cl := 127 },
    .vxBcast { cl := 127 }, .vxIota { cl := 127 }, .vxRng { cl := 127 }, .vxRsum { cl := 127 }, .vxRmax { cl := 127 },
    .vxTr { cl := 127 }, .vxCmpr { cl := 127 }, .vxExpd { cl := 127 }, .vxPopc { cl := 127 }, .vxExp { cl := 127 },
    .vxLog { cl := 127 }, .vxRsqrt { cl := 127 }, .vxTanh { cl := 127 }, .vxErf { cl := 127 }] : List Instr).all Instr.wf = true := by decide +kernel

set_option maxRecDepth 100000 in
/-- Commands with every operand at an end of its range. -/
theorem smoke_well_formed_2 : ([
    .vxSin { cl := 127 }, .vxCos { cl := 127 }, .vxCvt { cl := 127 }, .vxLdt { cl := 127 }, .vxStt { cl := 127 } [(511, 7)],
    .syncInc { cl := 127 }, .syncIncr { cl := 127 }, .syncAdd { cl := 127 }, .syncAddr { cl := 127 }, .syncWait { cl := 127 },
    .syncWaitr { cl := 127 }, .syncEndstep { cl := 127 }, .fabDma { cl := 127 }, .fabAmo { cl := 127 }, .drsTopk { cl := 127 },
    .drsAssign { cl := 127 }, .drsBias { cl := 127 }, .drsDescStart 7, .drsDescComplete { n := 7 } 0, .allreduce { cl := 127 },
    .reduceScatter { cl := 127 }, .allgather { cl := 127 }, .broadcast { cl := 127 }, .barrier { cl := 127 },
    .count { cl := 127 }, .dispatch { cl := 127 }, .xchgReturn { cl := 127 }, .reduce { cl := 127 }, .tierStage { cl := 127 },
    .drop { cl := 127 }, .flush { cl := 127 }, .advance { cl := 127 }, .cread { cl := 127 }, .cwrite { cl := 127 },
    .trim { cl := 127 }, .tierCmdComplete { n := 127 } 0 .clean, .prefetchEntryStart 7, .ageingEvict 7 0 1, .evictionWritebackDone 7 0 1,
    .ckpSnap { cl := 127 }, .cowCopyComplete 7 0 .clean, .snapshotDone 7, .seqRegAccess .bureau (2 ^ 28 - 1) none,
    .spmLostClear .bureau ⟨127, [(7, 8, 0)]⟩ 0, .cabinetAlloc 7 15 0 15, .cabinetHandoff 7 7 16383 15 15, .cabinetRelease 7 7 16383 15,
    .tierPoolWrite .bureau 1 0, .chestUnitProgrammed 127 0 true, .superframeReceive 31 (2 ^ 64 - 1) true true] : List Instr).all Instr.wf = true := by decide +kernel

set_option maxRecDepth 100000 in
/-- Commands with every operand at an end of its range. -/
theorem smoke_well_formed_3 : ([
    .retrain 31, .dropPair 31 3, .laneRetrainDone 31, .laneRetrainFail 31 3, .holdTimeout 31, .swingWaitTimeout 31,
    .portTrainingDone 31 0 255 255, .packetForward 0 65535, .write pktOk, .writeShort pktOk, .read pktOk, .amo pktOk,
    .amoFetch pktOk, .ack pktOk, .readResp pktOk, .amoResp pktOk, .nack pktOk, .coll pktOk, .collLl pktOk, .mgmtCsr pktOk,
    .mgmtSwing pktOk, .disc pktOk, .fabPkeyWrite .bureau 15 0, .ctxPkeyWrite .bureau 7 0, .time pktOk, .jheadWrite .bureau 7 0,
    .journalRingWrite .bureau 7 true 0, .journalExport 7, .kill .bureau 7 0, .teardown .bureau 7 0, .holdExpire 7,
    .quiesceDone 7, .releaseDone 7, .clearDone 7, .pfBar2Access (2 ^ 36 - 1) 0 none, .vfBar0Access 8 65535 none,
    .vfBar2Access 8 (2 ^ 34 - 1) 0 none, .vfCfgWrite .bureau 8 0, .vfFlr 8, .rdmaWriteIn rdmaOk,
    .rdmaWriteImmIn rdmaOk (2 ^ 32 - 1), .invalidOpcodeIn rdmaOk, .rdmaAckIn 15 (2 ^ 24 - 1), .rdmaReadRespIn { n := 15 } [],
    .rdmaAckTimeout 15, .netTgtCommit .bureau 15 0, .netIngCommit .bureau 15 0, .mctpControl 2, .pldmMonitoring 2,
    .requestUpdate 2 1] : List Instr).all Instr.wf = true := by decide +kernel

set_option maxRecDepth 100000 in
/-- Commands with every operand at an end of its range. -/
theorem smoke_well_formed_4 : ([
    .firmwareStoreWrite (2 ^ 24) [] true, .activateFirmware 2 [], .getVersion 2, .getCapabilities 2, .negotiateAlgorithms 2,
    .getDigests 2, .getCertificate 2 65535, .challenge 2, .getMeasurements 2 8, .mgmtPortCsr 2 [],
    .identityMemoryMsg 2 1023 none, .entdaa 127, .clusterBistDone [135], .hbmTrainingDone [255],
    .capacityTrainingDone (2 ^ 32 - 1) 0 0 0 0 (2 ^ 32 - 1), .groupPllLockLoss 15, .domainUsable 26, .aonTeardown .bureau 7,
    .linkDisable .bureau 31, .linkEnable .bureau 31, .domainReset .bureau 26, .domainOff .bureau 26, .domainOn .bureau 26,
    .sensorSample (List.replicate 34 65535) 65535, .receiverLossOfLock 31, .prefetchEntryComplete 7 0 .clean,
    .hostLinkUp 7 16 true, .networkLinkUp 1 1, .networkLinkDown 1, .rdmaNakIn 15, .priorityFlowControlFrame 1 7 true] : List Instr).all Instr.wf = true := by decide +kernel


/-! ### Witnesses: the block as a whole -/

theorem witness_IdleStepCountsTime :
    let d := fun (ls : SMap Link) => ({ hubLocked := true, links := ls } : Dev)
    (let e := d []
     e.hubLocked = true ∧ e.trs.slew = 0 ∧ e.aon.ues = [] ∧ e.cabPend = [] ∧ e.netWait = [] ∧ e.snaps = [] ∧
     ∀ n, n < 32 → e.says n = false) ∧
    (let e := d [(31, { cmds := [(1, 0)] })]
     e.hubLocked = true ∧ e.trs.slew = 0 ∧ e.aon.ues = [] ∧ e.cabPend = [] ∧ e.netWait = [] ∧ e.snaps = [] ∧ e.says 31 = true ∧
     (e.link 31).replay.length < 512 ∧ ∀ k, k < 32 → k ≠ 31 → e.says k = false) := by decide +kernel

theorem witness_StepKeepsTables :
    (∃ t, State.reset.dev.tablesWf = true ∧ step State.reset = .next t ∧ State.reset.pending = []) ∧
    ∃ t, (State.reset.dev).tablesWf = true ∧ step { State.reset with pending := [.clockControlTick, .startComplete] } = .next t :=
  ⟨⟨_, by decide, rfl, rfl⟩, ⟨_, by decide, rfl⟩⟩

theorem witness_CanonicalFormChangesNoRead : runDev.tablesWf = true := by decide

theorem witness_MemoryReadsWhatWasWritten :
    runDev.tablesWf = true ∧ 1 < ([1, 2] : Bytes).length ∧ (4 : Nat) < 5 ∧ 5 + ([1, 2] : Bytes).length ≤ 7 := by decide

/-! ### Witnesses: slots -/

theorem witness_ScalarImmediateResults :
    runDev.aloneOn (sl 0) = true ∧ runDev.aloneOn (sl 63) = true ∧ opF (sl 63) 6 6 = 0 := by decide

theorem witness_ScalarRegisterResults :
    runDev.aloneOn (sl 0) = true ∧ aluFn (opF (sl 0) 0 7) 5 7 = some 12 ∧ aluUnary (opF (sl 0) 0 7) = false ∧
    runDev.aloneOn (sl 0x1A) = true ∧ aluFn (opF (sl 0x1A) 0 7) (BitVec.allOnes 64) 0 = some 0xFFFFFFFF ∧ opF (sl 0x1A) 7 5 = 0 ∧
    opF (sl 0) 0 4 = 0 ∧ opF (sl 0) 0 13 = 0 ∧ opF (sl 0) 0 9 = 0 ∧
    runDev.aloneOn (sl 0xC0) = true ∧ cmpFn (opF (sl 0xC0) 5 4) 3 2 = some true ∧ opF (sl 0xC0) 0 5 = 0 ∧
    runDev.aloneOn (sl 0x1800) = true ∧ cmpFn (opF (sl 0x1800) 10 4) 3 2 = some true ∧
    popFn (opF (sl 0x1800) 10 3) true false = some false ∧ opF (sl 0x1800) 0 10 = 0 ∧ opF (sl 0x1800) 13 3 = 0 ∧
    popFn (opF (sl 0x1000) 10 3) true false = some true := by decide

theorem witness_DivisionSpecialCases : (1 : Word) ≠ 0 := by decide

theorem witness_HardWiredRegisters :
    (31 : Nat) ≠ 0 ∧ keysRise ((({} : SeqRegs).setS 31 9).s.map Prod.fst) = true ∧ keysRise ((({} : SeqRegs).setA 15 9).a.map Prod.fst) = true ∧
    keysRise ((({} : SeqRegs).setP 7 true).p.map Prod.fst) = true ∧ (30 : Nat) ≠ 31 := by decide

/-- runDev with a1 at a cluster-local offset. -/
def atA1 (a : BitVec 48) : Dev := { runDev with seqs := [(0, { a := [(1, a)] })] }

theorem witness_ScalarLoadsAndStores :
    let d := atA1 0x7FFFF8
    let a := sl 0x3800
    d.aloneOn a = true ∧ memEa (d.slotRegs a) a = 0x7FFFF8 ∧ memEa (d.slotRegs a) a % 2 ^ opF a 11 2 = 0 ∧
    d.localCheck (d.slotCtx a) a.cl 0x7FFFF8 8 1 = 0 ∧ d.localCheck (d.slotCtx a) a.cl 0x7FFFF8 8 2 = 0 ∧ [(0, 2)] ≠ ([] : List (Nat × Nat)) ∧
    d.poisoned (spadAddr a.cl 0x7FFFF8) 8 = false := by decide

/-- runDev at PC 32 with s1, and a loop stack. -/
def atPc (v : Word) (ls : List LoopLevel) : Dev := { runDev with seqs := [(0, { s := [(1, v)], pc := 32, loops := ls })] }

theorem witness_ControlTransfers :
    (let d := atPc 48 []
     d.aloneOn (sl 1) = true ∧ jmpTarget (d.slotRegs (sl 1)) (sl 1) = 48 ∧ 48 % 16 = 0 ∧ 48 < d.imageLen 0 0 ∧
     d.aloneOn (sl 0x20000) = true ∧ fieldOf ((d.slotRegs (sl 0x20000)).sr (opF (sl 0x20000) 17 5)) 0 32 = 48 ∧ opF (sl 0x20000) 0 17 = 0) ∧
    (let d := atPc 2 [{ first := 16, last := 48, left := 3 }]
     let a := sl 0x20001
     d.aloneOn a = true ∧ opF a 0 17 ≠ 0 ∧ (d.slotRegs a).loops.length ≠ 2 ∧ (d.slotRegs a).pc + 16 * opF a 0 17 = 48 ∧ 48 < d.imageLen 0 0 ∧
     (∀ l ∈ (d.slotRegs a).loops, 48 ≤ l.last) ∧ fieldOf ((d.slotRegs a).sr (opF a 17 5)) 0 32 ≠ 0 ∧
     fieldOf ((d.slotRegs (sl 1)).sr (opF (sl 1) 17 5)) 0 32 = 0) ∧
    (let d := atPc 0 [{ first := 16, last := 48, left := 3 }]
     d.aloneOn (sl 0) = true ∧ (sl 0).args = 0 ∧ (d.slotRegs (sl 0)).loops ≠ []) := by decide

theorem witness_SequencerRegisterAccess :
    (opF (sl 0x10) 0 3 = 0 ∧ csrrForbidden (opF (sl 0x10) 3 14 * 8) = false ∧ runDev.aloneOn (sl 0x10) = true) ∧
    (opF (sl 0x100) 0 3 = 0 ∧ csrrForbidden (opF (sl 0x100) 3 14 * 8) = true) ∧
    (opF (sl 0x8010) 0 3 = 0 ∧ seqWritable (opF (sl 0x8010) 3 14 * 8) ≠ 0 ∧ opF (sl 0x8010) 3 14 * 8 ≠ 0x10028) ∧
    (opF (sl 0x10028) 0 3 = 0 ∧ opF (sl 0x10028) 3 14 * 8 = 0x10028) ∧
    (opF (sl 0x10) 0 3 = 0 ∧ seqWritable (opF (sl 0x10) 3 14 * 8) = 0) ∧ opF (sl 0xFFFF) 16 6 = 0 := by decide

theorem witness_DecodeFaultsAreIllegal :
    runDev.alone (sl 0x1B) = true ∧ aluFn (opF (sl 0x1B) 0 7) 0 0 = none ∧ aluFn (opF (sl 0x7F) 0 7) 0 0 = none ∧
    opF (sl 0x40) 6 6 ≠ 0 ∧ (sl 1).args ≠ 0 ∧ opF (sl 0) 0 17 = 0 ∧
    opcDefined 0 0x1E = false ∧ opcDefined 1 6 = false ∧ opcDefined 2 0x2A = false ∧ opcDefined 3 63 = false := by decide

theorem witness_GatheredSlotsWait :
    let a : Slot := { cl := 0, last := false }
    runDev.mayIssue 0 = true ∧ a.last = false ∧ (runDev.slotRegs a).pc < runDev.imageLen (runDev.slotCtx a) a.cl ∧
    (runDev.clu a.cl).staged = [] ∧ runDev.vecHeld a.cl = false ∧ ({} : Dev).mayIssue 0 = false ∧
    (let d : Dev := { runDev with descs := [{ ctx := 0, cl := 0, kind := 8, ea := 0, pc := 0, bytes := [] }] }
     d.mayIssue 0 = true ∧ (d.slotRegs a).pc < d.imageLen (d.slotCtx a) a.cl ∧ (d.clu a.cl).staged = [] ∧ d.vecHeld 0 = true ∧
     slotEnabled (d.slotRegs a) a = true ∧ vecIll 1 (opF a 0 4) (opF a 10 6) (opF a 4 6) = false ∧ d.aloneOn (sl 0) = true ∧
     vecIll 1 (opF (sl 0) 0 4) (opF (sl 0) 10 6) (opF (sl 0) 4 6) = false) := by decide

theorem witness_SyncInstructions :
    let own : Dev := { objs := [(5, { owned := true, count := 3 }), (6, { owned := true, ovf := true })] }
    runDev.aloneOn (sl 0) = true ∧ opF (sl 0) 21 1 = 0 ∧ opF (sl 0) 16 5 = 0 ∧ opF (sl 0) 0 12 = 0 ∧ opF (sl 0) 12 5 = 0 ∧ (sl 0).args = 0 ∧
    own.owns 0 4 = false ∧ own.owns 1 5 = false ∧ own.owns 0 6 = true ∧ (own.obj 6).ovf = true ∧ own.owns 0 5 = true ∧
    (own.obj 5).ovf = false := by decide

theorem witness_VectorElementwiseResults :
    ((upFrom 1 0x18).all fun opc => (upFrom 0 16).any fun fn => runDev.vecReady (sl (BitVec.ofNat 22 fn)) opc) = true := by decide

theorem witness_VectorOtherResults :
    ((upFrom 0x19 0x11).all fun opc => (upFrom 0 16).any fun fn => (upFrom 0 64).any fun tb =>
      runDev.vecReady (sl (BitVec.ofNat 22 (fn + 16 * tb))) opc) = true := by decide

theorem witness_VectorElementValues : (0 : Nat) < 1024 ∧ (1023 : Nat) < 1024 := by decide

theorem witness_TileLoadsAndStores :
    let d := atA1 0x7FF000
    let a := sl 0x1000
    d.aloneOn a = true ∧ d.vecHeld a.cl = false ∧ tileEa (d.slotRegs a) a = 0x7FF000 ∧
    rangeCheck d (d.slotCtx a) a.cl 0x7FF000 256 4096 1 = none ∧ rangeCheck d (d.slotCtx a) a.cl 0x7FF000 256 4096 2 = none ∧
    [(511, 2)] ≠ ([] : List (Nat × Nat)) ∧
    d.poisoned (spadAddr a.cl 0x7FF000) 4096 = false := by decide

/-- runDev with a descriptor of a kind at offset 0 of cluster 0, its operation at byte 0x10. -/
def descDev (kind op : Byte) : Dev :=
  { runDev with mem := [(spadAddr 0 0, kind)] ++ if op = 0 then [] else [(spadAddr 0 0x10, op)] }

theorem witness_DescriptorsQueue :
    ([1, 2, 3, 4, 5, 8, 9, 0x30, 0x31, 0x32].all fun k => (descDev k 0).descReady (sl 0) k.toNat) = true ∧
    ([0, 2, 3, 4, 5, 0x20, 0x21, 0x22, 0x23].all fun o => (descDev 0x22 o).descReady (sl 0) 0x22) = true ∧
    isAllreduce ((descDev 0x22 0).descBytes (sl 0)) = true ∧
    ([2, 3, 4, 5, 0x20, 0x21, 0x22, 0x23].all fun o => isOp o.toNat ((descDev 0x22 o).descBytes (sl 0))) = true ∧
    ([1, 2, 3, 4, 6, 7].all fun o => (descDev 0x38 o).descReady (sl 0) 0x38 && tierOp ((descDev 0x38 o).descBytes (sl 0)) == o.toNat) = true := by
  decide

theorem witness_DmaDescriptorsTakeTrackers :
    (descDev 0x20 0).freeTrk = some 0 ∧ (descDev 0x20 0).descReady (sl 0) 0x20 = true ∧ (descDev 0x21 0).freeTrk = some 0 ∧
    (descDev 0x21 0).descReady (sl 0) 0x21 = true ∧
    (let q := fun (src dst : Nat) =>
       let b := leBytes 16 0x20 ++ leBytes 8 (src * 2 ^ 48) ++ leBytes 8 (dst * 2 ^ 48) ++ leBytes 32 16
       ({ ctx := 0, cl := 0, kind := 0x20, ea := 0, pc := 0, bytes := b } : Desc)
     gNode (atLe (q 1 0).bytes 0x10 8) ≠ runDev.node ∧
     gNode (atLe (q 0 1).bytes 0x10 8) = runDev.node ∧ gNode (atLe (q 0 1).bytes 0x18 8) ≠ runDev.node ∧
     gNode (atLe (q 0 0).bytes 0x10 8) = runDev.node ∧ gNode (atLe (q 0 0).bytes 0x18 8) = runDev.node ∧
     ({ q 0 0 with kind := 0x21 } : Desc).kind = 0x21 ∧ (q 0 0).kind ≠ 0x21) := by decide


/-! ### Witnesses: engines and transfers -/

/-- A descriptor of cluster 0 of context 0. -/
def desc (kind : Nat) (body : Bytes) : Desc :=
  { ctx := 0, cl := 0, kind := kind, ea := 0, pc := 0, bytes := leBytes 16 kind ++ body }

/-- Every tracker of the hub-engine reserve is taken. -/
def hubTaken : SMap Tracker := (upFrom 245760 16384).map fun k => (k, { kind := 1, state := 1, hub := true })

theorem mapFind_upFrom {α : Type} (v : α) (n : Nat) :
    ∀ a k, a ≤ k → k < a + n → (mapFind ((upFrom a n).map fun i => (i, v)) k).isSome = true := by
  induction n with
  | zero => intro a k h1 h2; omega
  | succ n ih =>
    intro a k h1 h2
    simp only [upFrom, List.map_cons, mapFind]
    by_cases h : a = k
    · simp [h]
    · rw [if_neg (by omega)]
      exact ih (a + 1) k (by omega) (by omega)

theorem firstFree_none {α : Type} (m : SMap α) (n : Nat) :
    ∀ a, (∀ k, a ≤ k → k < a + n → (mapFind m k).isSome = true) → firstFree m a n = none := by
  induction n with
  | zero => intro a _; rfl
  | succ n ih =>
    intro a h
    rw [firstFree, if_pos (h a (by omega) (by omega))]
    exact ih (a + 1) fun k h1 h2 => h k (by omega) (by omega)

theorem upFrom_length (n : Nat) : ∀ a, (upFrom a n).length = n := by
  induction n with
  | zero => intro a; rfl
  | succ n ih => intro a; simp [upFrom, ih]

theorem hubTaken_none (d : Dev) : ({ d with trks := hubTaken } : Dev).freeHubTrk = none := by
  have len : hubTaken.length = 16384 := by rw [hubTaken, List.length_map, upFrom_length]
  simp only [Dev.freeHubTrk, len]
  exact firstFree_none _ _ _ (mapFind_upFrom _ 16384 245760)

/-- An mx.load of one element of format 0 at address 0 into plane 0. -/
def mxLoad1 : Desc := desc 4 ([0, 0, 0, 0] ++ leBytes 2 1 ++ leBytes 2 1 ++ List.replicate 40 0)

/-- A scatter of one element, which opens a hash accumulator in bank 0. -/
def scatter1 : Desc := desc 3 ([0, 0, 2, 2, 0, 0, 0, 8] ++ leBytes 4 1 ++ leBytes 4 1 ++ leBytes 4 1 ++ List.replicate 28 0)

theorem witness_ArrayRunsDescriptors :
    (let d : Dev := { runDev with descs := [scatter1] }
     (d.clu 0).mxFrozen = false ∧ (d.clu 0).mxNow = none ∧ d.descs.find? (mxOf 0) = some scatter1 ∧ scatter1.kind = 3 ∧
     (({ d with descs := d.descs.eraseP (mxOf 0) } : Dev).mxCheck scatter1).1 = none) ∧
    (let d : Dev := { runDev with descs := [mxLoad1] }
     (d.clu 0).mxFrozen = false ∧ (d.clu 0).mxNow = none ∧ d.descs.find? (mxOf 0) = some mxLoad1 ∧ mxLoad1.kind ≠ 3 ∧
     ({ d with descs := d.descs.eraseP (mxOf 0) } : Dev).mxCheck mxLoad1 = (none, [], 0)) ∧
    (let q := desc 4 (List.replicate 48 0)
     let d : Dev := { runDev with descs := [q] }
     d.descs.find? (mxOf 0) = some q ∧ ({ d with descs := d.descs.eraseP (mxOf 0) } : Dev).mxCheck q = (some ⟨2, 0⟩, [], 0)) ∧
    (let j : Job := { desc := mxLoad1 }
     let d : Dev := runDev.modClu 0 fun k => { k with mxNow := some j }
     (d.clu 0).mxNow = some j ∧ (d.clu 0).cur ≠ .rampUp ∧ (d.mxWork j).2 = none) ∧
    (let j : Job := { desc := desc 5 (List.replicate 48 0) }
     let d : Dev := runDev.modClu 0 fun k => { k with mxNow := some j }
     (d.clu 0).mxNow = some j ∧ (d.clu 0).cur ≠ .rampUp ∧ (d.mxWork j).2 = some (none, ⟨7, 0⟩)) := by decide

theorem witness_ArrayCurrentRamps :
    let d := fun (c : CurState) (n : Nat) =>
      ({ runDev.modClu 0 fun k => { k with cur := c, act := n } with descs := [mxLoad1] } : Dev)
    ([(CurState.rampUp, 14), (.rampUp, 15), (.rampDown, 2), (.rampDown, 1), (.off, 0), (.active, 16), (.gap, 16)].all fun p =>
      (d p.1 p.2).tablesWf && !(d p.1 p.2).mxEmpty 0 && ((d p.1 p.2).clu 0).cur == p.1 && ((d p.1 p.2).clu 0).act == p.2) = true ∧
    (let e := (runDev.modClu 0 fun k => { k with cur := .active, act := 16 }).setReg (Reg.MXA_CURR 0) 0x1F01
     e.tablesWf = true ∧ e.mxEmpty 0 = true ∧ e.bit (Reg.MXA_CURR 0) 0 = true ∧ (e.clu 0).cur = .active ∧
     (runDev.setReg (Reg.MXA_CURR 0) 0).bit (Reg.MXA_CURR 0) 0 = false) := by decide

/-- A vx.wmax of one tensor, whose descriptor lies at 0x40, to 0x80; the tensor is one FP32 element at address 0. -/
def vxWmax1 : Desc := desc 9 ([1, 0, 0, 0] ++ leBytes 4 0x40 ++ leBytes 4 0 ++ leBytes 4 0x80 ++ List.replicate 32 0)

/-- A block with that tensor. -/
def vxDev : Dev :=
  { runDev with
    descs := [vxWmax1]
    mem := [(spadAddr 0 0x50, 2), (spadAddr 0 0x51, 1), (spadAddr 0 0x52, 1), (spadAddr 0 0x53, 1), (spadAddr 0 0x54, 1),
      (spadAddr 0 0x58, 1), (spadAddr 0 0x5C, 1), (spadAddr 0 0x60, 1), (spadAddr 0 0x64, 1)] }

theorem witness_VectorEngineRunsDescriptors :
    ((vxDev.clu 0).vxFrozen = false ∧ (vxDev.clu 0).vxNow = none ∧ vxDev.descs.find? (vxOf 0) = some vxWmax1 ∧
     ({ vxDev with descs := vxDev.descs.eraseP (vxOf 0) } : Dev).vxWmaxErr vxWmax1 = none) ∧
    (let q := desc 8 (List.replicate 48 0)
     let d : Dev := { runDev with descs := [q] }
     d.descs.find? (vxOf 0) = some q ∧ (({ d with descs := d.descs.eraseP (vxOf 0) } : Dev).vxRunErr q).isSome = true) ∧
    (let j : Job := { desc := vxWmax1, opr := vxDev.vxRecord vxWmax1 }
     let d : Dev := { vxDev.modClu 0 fun k => { k with vxNow := some j } with descs := [] }
     (d.clu 0).vxNow = some j ∧ (d.vxWmax j).2 = none) ∧
    (let j : Job := { desc := vxWmax1, opr := vxDev.vxRecord vxWmax1 }
     let d : Dev := { vxDev.modClu 0 fun k => { k with vxNow := some j } with descs := [], poison := [(0, true)] }
     (d.clu 0).vxNow = some j ∧ (d.vxWmax j).2.isSome = true) ∧
    leastErr [(0x24, true, 1), (0x21, true, 2), (0x20, false, 3)] = some ⟨0x21, 2⟩ := by decide

/-- The Dresser section: one profile of four experts with two selected; the bias claim is entries 0 to 3. -/
def drsPlan : Bytes :=
  planOf 0 [clusterSec, (8, 1, leBytes 2 1 ++ List.replicate 14 0 ++ leBytes 4 0 ++ leBytes 4 4 ++ List.replicate 40 0 ++
    leBytes 2 3 ++ [2, 0] ++ List.replicate 124 0)]

/-- A drs.bias of expert 3 from address 0. -/
def bias1 : Desc := desc 0x32 ([0, 0, 0, 0] ++ leBytes 2 3 ++ leBytes 2 3 ++ List.replicate 40 0)

theorem witness_DresserRunsDescriptors :
    (let d : Dev := { inPlan .running drsPlan with descs := [bias1] }
     let u := d.unitOf 0
     u < 8 ∧ d.bit (Reg.DRS_U_FAULT u) 8 = false ∧
     d.descs.find? (d.drsFor u) = some bias1 ∧ ((d.unitJobs u).filter fun j => j.desc.kind == bias1.kind).length < unitRoom bias1.kind ∧
     (({ d with descs := d.descs.erase bias1 } : Dev).drsCheck bias1).toOption.isSome = true) ∧
    (let j : Job := { desc := bias1 }
     let d : Dev := { inPlan .running drsPlan with jobs := [j] }
     let u := d.unitOf 0
     let f := (d.profile j.desc.ctx (atLe j.desc.bytes 0x11 1)).getD []
     let d1 := d.takeTrk 245760 (hubTracker d 0 0 3)
     (d.unitJobs u)[0]? = some j ∧ j.desc.kind = 0x32 ∧ d.freeHubTrk = some 245760 ∧ ((biasWork j.desc f).runOn d1).2 = none) ∧
    (let j : Job := { desc := desc 0x30 (List.replicate 48 0) }
     let d : Dev := { inPlan .running drsPlan with jobs := [j] }
     let f := (d.profile j.desc.ctx (atLe j.desc.bytes 0x10 1)).getD []
     let d1 := d.takeTrk 245760 (hubTracker d 0 0 3)
     (d.unitJobs (d.unitOf 0))[0]? = some j ∧ j.desc.kind = 0x30 ∧ d.freeHubTrk = some 245760 ∧ ((topkWork j.desc f).runOn d1).2 = none) ∧
    (let j : Job := { desc := desc 0x31 (List.replicate 48 0) }
     let d : Dev := { inPlan .running drsPlan with jobs := [j] }
     let f := (d.profile j.desc.ctx (atLe j.desc.bytes 0x10 1)).getD []
     let d1 := d.takeTrk 245760 (hubTracker d 0 0 3)
     (d.unitJobs (d.unitOf 0))[0]? = some j ∧ j.desc.kind = 0x31 ∧ d.freeHubTrk = some 245760 ∧
     ((assignWork j f (d1.placement j.desc.ctx)).runOn d1).2 = none) ∧
    ({ inPlan .running drsPlan with trks := hubTaken } : Dev).freeHubTrk = none :=
  ⟨by decide, by decide, by decide, by decide, hubTaken_none _⟩

/-- The collective section: group 0 of this device alone, with a bench share of one member. -/
def colSec : Nat × Nat × Bytes :=
  (12, 1, leBytes 2 1 ++ List.replicate 62 0 ++ leBytes 4 1 ++ [1, 0, 0, 0] ++ leBytes 4 0x50 ++ leBytes 4 0 ++ List.replicate 16 0)

/-- A plan with that section. -/
def colPlan : Bytes := planOf 0 [clusterSec, colSec]

/-- The segment section: HBM from 0, every access of the device and from outside permitted. -/
def segSec : Nat × Nat × Bytes :=
  (13, 1, leBytes 2 1 ++ List.replicate 10 0 ++ leBytes 4 0x40 ++ List.replicate 48 0 ++
    (leBytes 8 0 ++ leBytes 8 65536 ++ leBytes 8 0 ++ [1, 31] ++ List.replicate 6 0))

/-- A plan with one segment. -/
def segPlan : Bytes := planOf 0 [clusterSec, segSec]

/-- A barrier on group 0. -/
def barrier1 : Desc := desc 0x22 (5 :: List.replicate 47 0)

/-- Group 0 of two devices, each a bench, with LL_MAX 8. -/
def colPlan2 : Bytes :=
  planOf 0 [clusterSec, (12, 1, leBytes 2 1 ++ [0, 0] ++ leBytes 4 8 ++ List.replicate 56 0 ++ leBytes 4 2 ++ [1, 0, 0, 0] ++
    leBytes 4 0x50 ++ leBytes 4 0 ++ [0, 0, 1, 0] ++ List.replicate 12 0)]

/-- A broadcast of 64 FP32 elements from node 1 on group 0. -/
def bcast1 : Desc := desc 0x22 (4 :: List.replicate 11 0 ++ leBytes 4 64 ++ List.replicate 16 0 ++ leBytes 4 1 ++ List.replicate 12 0)

/-- The barrier as it runs. -/
def barOp : CollOp := { desc := barrier1, group := 0, seq := 0 }

/-- A chunk of the barrier from node 0: phase 8, index 0, with a check value. -/
def barChunk (sval : Nat) : Staged := { ctx := 0, hdr := { src := 0, addr := 8 * 2 ^ 32, sval := sval }, pay := [] }

/-- A REDUCE of one token with profile 0. -/
def reduce1 : Desc := desc 0x22 ([0x23] ++ List.replicate 11 0 ++ leBytes 4 1 ++ List.replicate 24 0 ++ leBytes 4 16 ++ List.replicate 4 0)

/-- A DISPATCH that has sent everything. -/
def dispatchOp : CollOp := { desc := desc 0x22 (0x21 :: List.replicate 47 0), group := 256, seq := 0 }

/-- An allgather of four FP32 elements on group 0, to 0x100, as it runs. -/
def gatherOp : CollOp :=
  { desc := desc 0x22 ([3, 0, 0, 0, 2, 2] ++ List.replicate 6 0 ++ leBytes 4 4 ++ leBytes 8 0 ++ leBytes 8 0x100 ++ List.replicate 16 0)
    group := 0, seq := 0, input := List.replicate 16 1 }

set_option maxRecDepth 8000 in
theorem witness_CollectiveOperations :
    (let d : Dev := { inPlan .running colPlan with descs := [barrier1] }
     (d.descs.filter (collFirst d))[0]? = some barrier1 ∧ (d.colls.filter fun o => o.group < 0xFE || o.group == 256).length < 16 ∧
     isExchange barrier1.bytes = false ∧ d.collRunning 0 (atLe barrier1.bytes 0x11 1) = false ∧
     (({ d with descs := d.descs.erase barrier1 } : Dev).collCheck barrier1).toOption.any (fun r => !r.1.segmented) = true) ∧
    (let d : Dev := { inPlan .running colPlan2 with descs := [bcast1] }
     (d.descs.filter (collFirst d))[0]? = some bcast1 ∧ (d.colls.filter fun o => o.group < 0xFE || o.group == 256).length < 16 ∧
     isExchange bcast1.bytes = false ∧ d.collRunning 0 (atLe bcast1.bytes 0x11 1) = false ∧
     (({ d with descs := d.descs.erase bcast1 } : Dev).collCheck bcast1).toOption.any
       (fun r => r.1.segmented && !r.2.2.cabOn 0 8) = true) ∧
    (let d : Dev := { inPlan .running colPlan with colls := [barOp] }
     (d.envOf barOp).isSome = true ∧
     (let s := barChunk (((d.envOf barOp).map fun e => e.check []).getD 0)
      let d : Dev := { d with staged := [s] }
      d.staged[0]? = some s ∧ s.poison = false ∧ s.buf = none ∧ d.opOf s = some 0 ∧ d.colls[0]? = some barOp ∧
      (chunkTag s.hdr).2.2.1 = 8 ∧ (d.envOf barOp).any (fun e => e.check s.pay == s.hdr.sval) = true) ∧
     (let s := barChunk 0
      ({ d with staged := [s] } : Dev).opOf s = some 0 ∧ (d.envOf barOp).any (fun e => e.check s.pay != s.hdr.sval) = true) ∧
     (let s := { barChunk 0 with poison := true }
      ({ d with staged := [s] } : Dev).opOf s = some 0 ∧ s.poison = true) ∧
     (let s := { barChunk (((d.envOf barOp).map fun e => e.check []).getD 0) with hdr.addr := 0 }
      ({ d with staged := [s] } : Dev).opOf s = some 0 ∧ (chunkTag s.hdr).2.2.1 = 0 ∧
      (d.envOf barOp).any (fun e => e.check s.pay == s.hdr.sval && e.flowsIn.isEmpty) = true) ∧
     barOp.group < 0xFE ∧ (d.collAdvance 0).colls[0]? = some barOp ∧ barOp.outq = [] ∧
     ((d.collAdvance 0).envOf barOp).any (fun e => e.result barOp.input barOp.arrived == some ([], 0) &&
       (e.flowsOut barOp.input barOp.arrived).length == barOp.sent.length && !e.breaches) = true) ∧
    (let d : Dev := { inPlan .running drsPlan with descs := [reduce1] }
     let d1 : Dev := { d with descs := [] }
     (d.descs.filter (collFirst d))[0]? = some reduce1 ∧ isExchange reduce1.bytes = true ∧
     (match d1.xCheck reduce1 with
       | .ok f => (match xBegin reduce1 f d1 with | .ok _ _ => true | _ => false)
       | _ => false) = true) ∧
    (let d : Dev := { inPlan .running drsPlan with colls := [dispatchOp] }
     let d1 := d.collAdvance 0
     d1.colls[0]? = some dispatchOp ∧ dispatchOp.group = 256 ∧
     (match d1.profile 0 0 with
       | some f => (match d1.xWork dispatchOp f [] with | some m => (m.runOn d1).2.isNone | none => false)
       | none => false) = true) ∧
    (let d : Dev := { inPlan .running (planOf 0 [clusterSec, colSec, segSec]) with colls := [gatherOp] }
     let d1 := d.collAdvance 0
     d1.colls[0]? = some gatherOp ∧ gatherOp.outq = [] ∧
     (d1.envOf gatherOp).any (fun e => match e.result gatherOp.input gatherOp.arrived with
       | some (bs, _) => bs.length == 16 && (e.flowsOut gatherOp.input gatherOp.arrived).length == gatherOp.sent.length &&
           ((Eng.write 0 0x32 (atLe gatherOp.desc.bytes 0x28 8) bs).runOn d1).2.isNone
       | none => false) = true) := by decide +kernel

/-- A fab.dma of 16 bytes from address 0 to 0x10000 of this device. -/
def dma1 : Desc :=
  { desc 0x20 (leBytes 8 0 ++ leBytes 8 0x10000 ++ leBytes 4 16 ++ List.replicate 28 0) with trk := some 0 }

theorem witness_DmaSegmentsLeave :
    let d : Dev := { runDev with descs := [dma1], trks := [(0, { kind := 1, state := 1 })] }
    let ps := (d.translate 0 .r 0 16).toOption.getD []
    let e := (d.eccPieces .clean ps).hcPieces 0 ps true
    d.descs.find? (dmaOf 0) = some dma1 ∧ dma1.kind = 0x20 ∧ d.dmaBody dma1.bytes = none ∧ d.segTrk dma1 = some 0 ∧
    gNode (atLe dma1.bytes 0x10 8) = d.node ∧ gNode (atLe dma1.bytes 0x18 8) = d.node ∧
    segLen dma1 = 16 ∧
    (d.translate 0 .r 0 16).toOption.isSome = true ∧ e.piecesPoisoned ps = false ∧
    (e.translate 0 .w 0x10000 16).toOption.isSome = true ∧ e.node = d.node := by decide

theorem witness_TransfersEnd :
    (let w : LWrite := { trk := 0, ctx := 0, va := 0x10000, data := [1, 2] }
     let d : Dev := { runDev with lwrites := [w] }
     let e : Dev := { d with lwrites := d.lwrites.eraseIdx 0 }
     d.lwrites[0]? = some w ∧ d.writeFirst 0 = true ∧ w.exch = false ∧ w.amo = none ∧ e.syncRefused w.ctx w.rop w.robj = false ∧
     (e.translate w.ctx .w w.va w.data.length).toOption.isSome = true) ∧
    (let w : LWrite := { trk := 0, ctx := 0, va := 0x100, data := [1, 2] }
     let d : Dev := { inPlan .running segPlan with lwrites := [w, w] }
     d.writeFirst 1 = false ∧ d.lwrites[0]? = some w ∧ d.lwrites[1]? = some w ∧ (d.trk w.trk).hub = false ∧ (d.writeBlocks w).isEmpty = false) ∧
    (let d := fun (c : CtxState) => ({ inState c with trks := [(0, { kind := 1, state := 3 })] } : Dev)
     ((d .running).trk 0).kind ≠ 0 ∧ ((d .running).trk 0).state = 3 ∧ ((d .running).ctx 0).state ≠ .frozen ∧
     ((d .frozen).ctx 0).state = .frozen) ∧
    (let d : Dev := { runDev with trks := [(0, { kind := 2, state := 2, node := 17, since := 0 })], time := BitVec.allOnes 64 }
     let t := d.trk 0
     2 ≤ t.kind ∧ t.node ≠ d.node ∧ t.state = 2 ∧ t.rd = false ∧ t.since + d.deadTime (benchOf t.node != benchOf d.node) ≤ d.time.toNat ∧
     (d.setTrk 0 { t with state := 4 }).masterFaulted t = false) := by decide

theorem witness_SyncStoreApplies :
    2 ^ 32 - 1 < 2 ^ 32 ∧
    (let r : SyncReq := { ctx := 0, obj := 5, val := 1, issuer := some (0, 16) }
     let d : Dev := { syncQ := [r], objs := [(5, { owned := true })] }
     let e : Dev := { syncQ := [r] }
     d.syncQ[0]? = some r ∧ d.owns r.ctx r.obj = true ∧ d.syncFirst 0 = true ∧ e.syncQ[0]? = some r ∧ e.owns r.ctx r.obj = false ∧
     e.syncFirst 0 = true ∧
     (let f : Dev := { syncQ := [r, { r with obj := 21 }] }
      f.syncQ[0]? = some r ∧ f.syncQ[1]? = some { r with obj := 21 } ∧ r.obj % 16 = 21 % 16 ∧ f.syncFirst 1 = false) ∧
     (let f : Dev := { syncQ := [r, { r with obj := 21, issuer := none }] }
      f.syncFirst 1 = true)) := by decide

theorem witness_WaitsComplete :
    let d : Dev := runDev.modClu 127 fun k => { k with seq := .waiting, waitOk := true, wait := some (5, 1) }
    (d.clu 127).seq = .waiting ∧ (d.clu 127).waitOk = true := by decide


/-! ### Witnesses: plans and the life cycle of a context -/

theorem witness_PlanCommandsAccepted :
    onDev.refusal .host Reg.BUR_PLAN_CTRL true = none ∧ onDev.bit Reg.BUR_STATUS 0 = true ∧ onDev.bit Reg.BUR_PLAN_STATUS 19 = false ∧
    fieldOf (0x0107000000000000 : Word) 56 3 = 1 ∧ fieldOf (0x0207000000000000 : Word) 56 3 = 2 ∧
    fieldOf (0x0407000000000000 : Word) 56 3 = 4 ∧
    (let d := onDev.setBit Reg.BUR_PLAN_STATUS 19 true
     d.refusal .host Reg.BUR_PLAN_CTRL true = none ∧ d.bit Reg.BUR_STATUS 0 = true ∧ d.bit Reg.BUR_PLAN_STATUS 19 = true) ∧
    onDev.refusal .host (Reg.BUR_PLAN_STOP 7) true = none ∧ onDev.loaded 7 = false ∧
    (let d : Dev := { onDev with ctxs := [(7, { state := .stopped, step := 5 })] }
     d.refusal .host (Reg.BUR_PLAN_STOP 7) true = none ∧ d.loaded 7 = true ∧ (d.ctx 7).step.toNat ≤ (5 : Word).toNat ∧
     (4 : Word).toNat < (d.ctx 7).step.toNat) := by decide

/-- A plan that LOAD accepts into context 0: magic, version 1.0, length 192, its CRC-32C, and the cluster table at 0x80. -/
def goodPlan : Bytes :=
  let head := leBytes 4 0x4E4C5053 ++ leBytes 2 1 ++ leBytes 2 0 ++ leBytes 4 192
  let rest := (plan0.drop 16).take 0x38 ++ leBytes 4 0x80 ++ leBytes 4 32 ++ List.replicate 48 0 ++ clusterSec.2.2 ++ List.replicate 32 0
  head ++ leBytes 4 (crc32c (head ++ [0, 0, 0, 0] ++ rest)) ++ rest

/-- A LOAD of the bytes at address 0x40000000 into context 0 is performed. -/
def loadDev (p : Bytes) : Dev :=
  { (onDev.setFld Reg.BUR_FW_STATUS 32 8 1).setFld Reg.BUR_FW_STATUS 40 8 0 with
    planCmd := some { kind := 0, ctx := 0, addr := 0x40000000 }
    mem := (p.mapIdx fun i b => (0x40000000 + i, b)).filter fun c => c.2 != 0 }

set_option maxRecDepth 100000 in
theorem witness_load_of_a_good_plan :
    let r := (loadDev goodPlan).planRead 0x40000000
    inHbm 0x40000000 64 = true ∧ r.1 = goodPlan ∧ r.2.headErr 0 0x40000000 r.1 = none ∧ r.2.bodyErr 0 r.1 = none ∧
    reswCopies r.1 (planTable r.1) = [] := by decide +kernel

theorem witness_PlanCommandsPerform :
    inHbm 0x6000000000 64 = false ∧ (∀ e : Dev, ∃ f, Dev.writeResw 0 [] e = .ok f) ∧
    (let r := (loadDev []).planRead 0x40000000
     r.2.headErr 0 0x40000000 r.1 = some { code := 1, detail := 0 }) ∧
    (let d := fun (k : Nat) (c : CtxState) => ({ inState c with planCmd := some { kind := k, ctx := 0, addr := 0 } } : Dev)
     ([CtxState.loaded, .stopped, .running].all fun c => (d 1 c).restore.isNone && ((d 1 c).ctx 0).state == c) = true ∧
     ([CtxState.loaded, .stopped, .done, .running].all fun c => (mapFind (d 2 c).snaps 0).isNone && ((d 2 c).ctx 0).state == c) = true) :=
  ⟨by decide, fun e => ⟨e, rfl⟩, by decide +kernel, by decide⟩

set_option maxRecDepth 100000 in
theorem witness_load_of_a_bad_body :
    let p := goodPlan.set 0x80 200
    let q := (p.take 12) ++ leBytes 4 (crc32c (zeroedAt p 0xC 4)) ++ p.drop 16
    let r := (loadDev q).planRead 0x40000000
    r.2.headErr 0 0x40000000 r.1 = none ∧ r.2.bodyErr 0 r.1 = some { code := 8, detail := 0x80 } := by decide +kernel

/-- Context 0 in a life-cycle state of its own. -/
def stepDev (c : Ctx) : Dev := { onDev with ctxs := [(0, { c with plan := plan0 })], time := 257 }

theorem witness_StepsBeginAndDrain :
    planDevices plan0 ≤ 1 ∧
    (let d := stepDev { state := .armed }
     d.tablesWf = true ∧ (d.ctx 0).state = .armed ∧ (d.ctx 0).agreed = false) ∧
    (let d := stepDev { state := .armed, agreed := true, tStart := 257 }
     d.tablesWf = true ∧ d.ranked 0 = true ∧ d.sliceFree 0 = true ∧ d.timeOk 0 = true ∧ (d.ctx 0).tStart ≤ d.time.toNat + planWakeLead plan0 ∧
     ∀ y ∈ allCtxs, y ≠ 0 → d.ranked y = true → d.samePart 0 y = true → d.ranksBefore y 0 = false) ∧
    (let d := stepDev { state := .waking, tRun := 257 }
     d.tablesWf = true ∧ (d.ctx 0).state = .waking ∧ (d.ctx 0).tRun ≤ d.time.toNat) ∧
    (let d := stepDev { state := .draining }
     d.tablesWf = true ∧ (d.ctx 0).state = .draining ∧ (d.ctx 0).jobDrained = false ∧ d.drained 0 = true) ∧
    (let d : Dev := { stepDev { state := .draining } with descs := [mxLoad1] }
     d.tablesWf = true ∧ (d.ctx 0).state = .draining ∧ (d.ctx 0).jobDrained = false ∧ d.drained 0 = false) ∧
    keysRise (((stepDev {}).seqr 0 0).s.map Prod.fst) = true ∧
    (let d := stepDev { state := .running }
     d.tablesWf = true ∧ (d.ctx 0).state = .running ∧ (d.ctx 0).tStart + planLimit plan0 * 256 < d.time.toNat) := by decide

theorem witness_BoundariesComplete :
    (let d := stepDev { state := .closing, step := 9 }
     d.tablesWf = true ∧ (d.ctx 0).state = .closing ∧ planCount plan0 ≠ 0 ∧
     (d.ctx 0).step.toNat = (planFirst plan0 + planCount plan0 - 1) % 2 ^ 64 ∧ planDevices plan0 ≤ 1 ∧ mapFind d.snaps 0 = none ∧
     (((d.boundaryHead 0).boundarySwaps 0).boundaryJournal 0).1 = true) ∧
    (let d := (stepDev { state := .closing, step := 8 }).setReg (Reg.BUR_PLAN_STOP 0) 8
     d.tablesWf = true ∧ (d.ctx 0).state = .closing ∧ d.reg (Reg.BUR_PLAN_STOP 0) = (d.ctx 0).step ∧
     (d.ctx 0).step.toNat ≠ (planFirst plan0 + planCount plan0 - 1) % 2 ^ 64) ∧
    (let d := stepDev { state := .closing, step := 8 }
     d.reg (Reg.BUR_PLAN_STOP 0) ≠ (d.ctx 0).step) ∧
    (let d : Dev := { stepDev { state := .closing } with objs := [(5, { owned := true, reinit := true, count := 9, init := 4 })] }
     d.tablesWf = true ∧ (d.obj 5).owned = true ∧ (d.obj 5).ctx = 0 ∧ (d.obj 5).reinit = true) ∧
    (let d : Dev := { stepDev {} with ctxs := [(0, { state := .closing, bdone := 2, plan := planOf 1 [clusterSec] })], time := 1600000 }
     (d.ctx 0).bdone = 2 ∧ planJournal (d.ctx 0).plan = true ∧ (d.ctx 0).jSkip = false ∧ d.ringRoom 0 = false ∧ d.waitOver 0 = true ∧
     d.tablesWf = true ∧ (d.ctx 0).state = .closing) ∧
    (let d : Dev := { stepDev {} with ctxs := [(0, { state := .closing, bdone := 2, tWait := 257, plan := planOf 1 [clusterSec] })] }
     let e := d.setFld (Reg.FPU_CTX_JCFG 0) 0 16 1
     (((e.boundaryHead 0).boundarySwaps 0).boundaryJournal 0).1 = false) := by decide +kernel

/-- A plan with a stop entry of group 15 at 5 and a start entry of group 15 at 9. -/
def wakePlan : Bytes :=
  planOf 0 [clusterSec, (3, 2, [15, 1, 0, 0] ++ leBytes 4 5 ++ List.replicate 8 0 ++ [15, 2, 0, 0] ++ leBytes 4 9 ++ List.replicate 8 0)]

theorem witness_GatingAndWakes :
    (let d : Dev := runDev.modClu 127 fun k => { k with seq := .ended }
     (127 : Nat) < 128 ∧ (d.clu 127).stalled = true ∧ d.mxEmpty 127 = true ∧ (d.clu 127).cur = .off ∧ (d.clu 127).vxNow = none ∧
     d.queued 127 1 = 0 ∧ d.queued 127 2 = 0) ∧
    (let d : Dev := { inPlan .running wakePlan with time := 9 }
     (planWakes (d.ctx 0).plan).length = 2 ∧ (planWakes (d.ctx 0).plan)[0]?.map WakeEntry.action = some 1 ∧
     (planWakes (d.ctx 0).plan)[1]?.map WakeEntry.action = some 2 ∧ (d.ctx 0).hasWoken = true ∧ (d.ctx 0).woken.contains 0 = false ∧
     (d.ctx 0).woken.contains 1 = false ∧ ((d.ctx 0).tRun : Int) + 9 ≤ (d.time.toNat : Int) ∧
     (∀ c ∈ upFrom (8 * 15) 8, (d.clu c).stalled = true ∨ (d.clu c).seq = .idle) ∧ d.pll 15 = .stopped ∧
     (∀ c ∈ upFrom (8 * 15) 8, (d.clu c).cur = .off) ∧
     (let e := d.modClu 127 fun k => { k with cur := .rampDown }
      (e.clu 127).stalled = true ∨ (e.clu 127).seq = .idle) ∧
     (let e := d.modClu 127 fun k => { k with cur := .rampDown }
      ∃ c ∈ upFrom (8 * 15) 8, (e.clu c).cur ≠ .off) ∧
     (let e := d.modClu 127 fun k => { k with seq := .running }
      ∃ c ∈ upFrom (8 * 15) 8, (e.clu c).stalled = false ∧ (e.clu c).seq ≠ .idle)) ∧
    (let d : Dev := { plls := [(15, .locking)] }
     d.pll 15 = .locking ∧ d.pll 14 ≠ .locking) ∧
    (([0, 1, 2, 3].all fun r => decide (instances r - 1 < instances r) && (({} : Dev).bgWindow r (instances r - 1)).1 != 0 &&
      decide ((({} : Dev).bgWindow r (instances r - 1)).2.2 < (({} : Dev).bgWindow r (instances r - 1)).1)) = true) ∧
    (({} : Dev).inWin 0 7 = true ∧ ({ time := 3999 } : Dev).inWin 0 7 = false) ∧
    (let d : Dev := { runDev with ctxs := [(0, { state := .running, plan := plan0, images := [{ cl := 0, base := 0, len := 4096 }] })] }
     (d.clu 0).fetch = [] ∧ (d.clu 0).seq = .running ∧ (d.ctx 0).state = .running ∧ d.clocked 0 = true ∧ (d.seqr 0 0).pc < d.imageLen 0 0 ∧
     d.extent 0 0 = some { cl := 0, base := 0, len := 4096 } ∧ d.poisoned (spadAddr 0 0x700000) 16 = false ∧
     ({ d with poison := [(spadAddr 0 0x700000, true)] } : Dev).poisoned (spadAddr 0 0x700000) 16 = true) := by decide

theorem witness_FreezeRecordsTheCause :
    (inState .running).tablesWf = true ∧ ((inState .running).ctx 0).state.active = true ∧ (inState .running).openOuts 0 = [] ∧
    (inState .running).freezable 0 = true ∧
    ({ onDev with ctxs := [(0, { state := .done, ended := some 0, plan := plan0 })] } : Dev).freezable 0 = true ∧
    ((inState .frozen).ctx 0).state = .frozen ∧ (inState .frozen).causeFirst 0 1 0 = false ∧
    (let d : Dev := ({ onDev with ctxs := [(0, { state := .frozen, phase := 1, plan := plan0 })] } : Dev).setReg (Reg.CTX_FR 0 0) 8
     (d.ctx 0).state = .frozen ∧ d.causeFirst 0 7 0 = true) ∧
    (inState .done).freezable 0 = false ∧ ((inState .done).ctx 0).state ≠ .frozen ∧ (7 : Nat) < 8 := by decide

theorem witness_TeardownPhases :
    (let d := fun (c : CtxState) (p : Nat) =>
        ({ onDev with ctxs := [(7, { state := c, phase := p, plan := plan0, holdEnd := 0 })], trks := [(3, { ctx := 7, kind := 2, state := 4 })] } : Dev)
     (d .running 0).refusal .host (Reg.CTX_CTX_CTRL 7) true = none ∧ bitOf (1 : Word) 0 = true ∧ bitOf (1 : Word) 1 = false ∧
     (d .running 0).freezable 7 = true ∧ (d .done 0).freezable 7 = false ∧ bitOf (2 : Word) 0 = false ∧
     bitOf (2 : Word) 1 = true ∧ ((d .frozen 1).ctx 7).state = .frozen ∧ ((d .frozen 1).ctx 7).phase = 1 ∧ ((d .done 0).ctx 7).state ≠ .frozen ∧
     ((d .frozen 1).ctx 7).holdEnd ≤ (d .frozen 1).time.toNat ∧ ((d .frozen 2).ctx 7).phase = 2 ∧ mapFind (d .frozen 2).snaps 7 = none ∧
     ((d .frozen 2).trks.all fun e => e.2.ctx != 7 || e.2.kind == 0 || e.2.state == 4) = true ∧ ((d .frozen 3).ctx 7).phase = 3 ∧
     ((d .frozen 4).ctx 7).phase = 4) ∧ runDev.tablesWf = true := by decide


/-! ### Witnesses: register accesses and the error log -/

theorem witness_RegisterAccesses :
    (0x18 % 8 = 0 ∧ onDev.refusal .host 0x18 true = some 5 ∧ onDev.refusal .host Reg.BUR_FM true = none ∧
     onDev.refusal .host (Reg.BUR_FM + 8 - 8) true = none ∧ (List.replicate 8 (0 : Byte)).length = 8) ∧
    (regExists Reg.BUR_FM = true ∧ Reg.BUR_FM < 0x1000000 ∧ Reg.BUR_FM / 0x100000 ≠ 3 ∧
     ({} : Dev).bit Reg.BUR_ADMIT (Reg.BUR_FM / 0x100000) = false) ∧
    (regExists 0xFFFFFF8 = false ∧ 0xFFFFFF8 < 0x10000000) ∧
    (onDev.tablesWf = true ∧ (regAt Reg.AON_FW_CTRL).any (fun r => r.rw.testBit 31 && !r.w1c.testBit 31 && !r.w1s.testBit 31) = true ∧
     (regAt Reg.AON_FW_CTRL).any (fun r => !r.rw.testBit 4 && !r.w1c.testBit 4 && r.w1s.testBit 4) = true ∧
     (regAt Reg.AON_FW_CTRL).any (fun r => !r.rw.testBit 0 && !r.w1c.testBit 0 && !r.w1s.testBit 0) = true ∧
     (regAt (Reg.SEQ_SPM_LOST 127)).any (fun r => !r.rw.testBit 39 && r.w1c.testBit 39 && !r.w1s.testBit 39) = true) ∧
    (onDev.refusal .host Reg.AON_POWER false = none) ∧
    ([CtxState.loaded, .stopped, .done, .frozen].all fun c =>
      ((inState c).ctx ((inState c).fld (Reg.SEQ_CFG 127) 0 3)).state == c && ((inState c).refusal .host (0x1FE0000 + 0x100 + 8 * 31) true).isNone &&
        ((inState c).refusal .host (0x1FE0000 + 0x100 + 8 * 31) false).isNone && ((inState c).refusal .host (0x1FE0000 + 0x200 + 8 * 15) true).isNone) = true ∧
    onDev.refusal .host (Reg.SEQ_SPM_LOST 127) true = none ∧
    (Reg.AON_POWER % 8 = 0 ∧ Reg.AON_POWER < 0x1000000 ∧ 2 + 6 ≤ 8 ∧ onDev.refusal .host 0x18 false = some 5 ∧ onDev.domOn 24 = true ∧
     (onDev.setBit Reg.PWR_DOMAIN_STATUS 24 false).domOn 24 = false ∧ onDev.refusal .bureau Reg.BUR_FM false = none ∧ Reg.BUR_FM ≠ Reg.AON_POWER) ∧
    (0x10000000 ≤ Reg.CAB_HC_INV ∧ Master.host ≠ .bureau) ∧
    (spmLoses 3 4 0x400100 = true ∧ 0x400100 < 0x800000 ∧ 0x400100 % 8 = 0 ∧ onDev.domOn (127 / 8) = true) := by decide

theorem witness_ErrorLogEntries :
    onDev.tablesWf = true ∧ (255 : Nat) < 256 ∧ (some 7 = some 7 ∧ 7 < 8) ∧ Reg.AON_OP ≠ Reg.AON_LOG_STATUS ∧
    (∀ k, k < 4 → Reg.AON_OP ≠ Reg.AON_LOG 0 k) ∧ onDev.domOn 24 = true ∧ mapGet (fun _ => false) onDev.msixMask 0 = false ∧
    onDev.i3cFailed = false := by decide

set_option maxRecDepth 8000 in
theorem witness_RegisterWriteRules :
    onDev.tablesWf = true ∧
    ([Reg.BUR_PLACE_SWAP, Reg.TIER_POOL_CFG 0, Reg.TIER_POOL_CFG 1, Reg.CHEST_CFG, Reg.FAB_PKEY 0, Reg.FAB_PKEY 15, Reg.FAB_CTX_ID 7, Reg.FAB_NODE,
      Reg.FAB_TIMEOUT, Reg.FAB_VCW, Reg.FAB_COMBINE, Reg.TRS_CFG, Reg.FPU_CTX_JHEAD 7, Reg.FPU_CTX_JSIZE 7, Reg.HIF_VF_CFG 1, Reg.HIF_VF_CFG 8].all
      fun o => (onDev.refusal .host o true).isNone) = true ∧
    ((!onDev.bit Reg.BUR_PLACE_STATUS 19) = true ∧ (!(onDev.setBit Reg.BUR_PLACE_STATUS 19 true).bit Reg.BUR_PLACE_STATUS 19) = false) ∧
    (let ok := fun (d : Dev) (w : Word) => !allCtxs.any d.loaded && fieldOf w 0 48 % 65536 == 0 &&
        !overlap (fieldOf w 0 48) (fieldOf w 48 16 * 1024 * 65536) (d.mapAddr 0) d.mapBytes
     ok onDev 0x10000 = true ∧ ok onDev 1 = false ∧ ok runDev 0x10000 = false) ∧
    (let ok := fun (d : Dev) (w : Word) => !allCtxs.any d.loaded && decide (16 ≤ fieldOf w 0 16) && decide (1000 ≤ fieldOf w 32 24)
     ok onDev (0x000003E800000010 : Word) = true ∧ ok onDev (0x000003E70000000F : Word) = false) ∧
    (let ok := fun (w : Word) => !(fieldOf w 0 16 == 0xFFFF && bitOf w 16)
     ok 0xFFFF = true ∧ ok 0x1FFFF = false) ∧
    ((!onDev.loaded 7) = true ∧ (!runDev.loaded 0) = false ∧ (!allCtxs.any onDev.loaded) = true ∧ (!allCtxs.any runDev.loaded) = false) ∧
    (let ok := fun (w : Word) => decide (fieldOf w 32 16 + 10 ≤ fieldOf w 0 16) && decide (fieldOf w 48 16 < fieldOf w 16 16)
     ok (0x000000000001000A : Word) = true ∧ ok (0x0000000000010009 : Word) = false) ∧
    (let ok := fun (w : Word) => (upFrom 0 5).all fun i => fieldOf w (4 * i) 4 != 0
     ok 0x11111 = true ∧ ok 0x01111 = false) ∧
    (let ok := fun (w : Word) => decide (1 ≤ fieldOf w 8 7) && decide (fieldOf w 8 7 ≤ 64)
     ok 0x4000 = true ∧ ok 0x4100 = false ∧ ok 0 = false) ∧
    (decide (4096 ≤ fieldOf (0x100001 : Word) 8 24) = true ∧ decide (4096 ≤ fieldOf (0xFFF00 : Word) 8 24) = false) ∧
    (let ok := fun (w : Word) => decide ((onDev.reg (Reg.FPU_CTX_JHEAD 7)).toNat ≤ w.toNat) && decide (w.toNat ≤ (onDev.reg (Reg.FPU_CTX_JTAIL 7)).toNat)
     ok 0 = true ∧ ok 1 = false) ∧
    (let ok := fun (d : Dev) (w : Word) => !(d.ctx 0).state.active && fieldOf w 0 40 % 64 == 0 && d.fld (Reg.FPU_CTX_JBASE 0) 0 48 % 64 == 0 &&
        (fieldOf w 0 40 == 0 || inHbm (d.fld (Reg.FPU_CTX_JBASE 0) 0 48) (fieldOf w 0 40)) &&
        d.poolRanges.all (fun r => !overlap (d.fld (Reg.FPU_CTX_JBASE 0) 0 48) (fieldOf w 0 40) r.1 r.2)
     ok onDev 0x40 = true ∧ ok onDev 0x41 = false ∧ ok runDev 0x40 = false) ∧
    (let ok := fun (d : Dev) (w : Word) =>
        !(d.bit (Reg.HIF_VF_CFG 8) 3 && (d.ctx (d.fld (Reg.HIF_VF_CFG 8) 0 3)).state.active) && !(d.ctx (fieldOf w 0 3)).state.active
     ok onDev 8 = true ∧ ok runDev 8 = false) := by decide

/-! ### Witnesses: the hub cache, the Cabinet and placement -/

/-- Context 7 with one pool of two buffers of 256 bytes at address 0, client 1 enabled; the first has an owner where o is given. -/
def cabDev (o : Option Nat) : Dev :=
  let d : Dev := { onDev with
    ctxs := [(7, { state := .running, plan := plan0 })]
    mem := (leBytes 8 (linkWord 1 0 7)).mapIdx fun i b => (i, b) }
  (((d.setReg (Reg.CAB_CTX_CFG 7) 0x20001).setReg (Reg.CAB_CTX_P_BASE 7 0) (8 <<< 48)).setReg (Reg.CAB_CTX_P_STATE 7 0)
    (2 + 2 <<< 32)).setOwner { ctx := 7, pool := 0, ix := 0 } o

theorem witness_CacheAndCabinet :
    (onDev.domOn 21 = true ∧ onDev.bit Reg.CAB_HC_STATUS 0 = false ∧ bitOf (0x10003 : Word) 16 = true ∧
     (onDev.setBit Reg.CAB_HC_STATUS 0 true).domOn 21 = true ∧ (onDev.setBit Reg.CAB_HC_STATUS 0 true).bit Reg.CAB_HC_STATUS 0 = true) ∧
    (let d := cabDev none
     let b : Buf := { ctx := 7, pool := 0, ix := 0 }
     let word := leNat (d.read (d.cabAddr b) 8)
     d.loaded 7 = true ∧ d.cabOn 7 1 = true ∧ 256 ≤ cabLargest 1 ∧ 0 < d.cabPools 7 ∧ 256 ≤ d.cabSize 7 0 ∧ d.cabHeld 7 0 < d.cabFree 7 0 ∧
     d.fld (Reg.CAB_CTX_P_STATE 7 0) 16 16 = 0 ∧ d.cabBlocked b = false ∧ bitsOf word 32 32 = 0x46424143 ∧ bitsOf word 16 3 = 0 ∧
     bitsOf word 19 3 = 7 ∧ d.cabOwner b = none ∧ 0 < d.fld (Reg.CAB_CTX_P_STATE 7 0) 32 15 ∧
     (let r := (d.setReg (Reg.CAB_CTX_P_STATE 7 0) (1 + 2 <<< 32)).setReg (Reg.CAB_CTX_P_RES 7 0) 2
      r.cabOn 7 1 = true ∧ r.cabPick 7 1 256 = some (0, true) ∧ r.fld (Reg.CAB_CTX_P_STATE 7 0) 16 16 = 0 ∧
      r.cabBlocked b = false ∧ leNat (r.read (r.cabAddr b) 8) = word ∧ r.cabOwner b = none) ∧
     (let f := { d with mem := [] }
      0x46424143 ≠ bitsOf (leNat (f.read (f.cabAddr b) 8)) 32 32 ∧ f.cabHeld 7 0 < f.cabFree 7 0) ∧
     (let f := d.setReg (Reg.CAB_CTX_P_STATE 7 0) (2 <<< 32)
      f.cabOn 7 1 = true ∧ f.cabPick 7 1 256 = none) ∧
     d.cabOn 7 8 = false ∧ 256 ≤ cabLargest 8 ∧ d.cabOn 7 2 = false ∧ 256 ≤ cabLargest 2) ∧
    (let d := cabDev (some 1)
     let b : Buf := { ctx := 7, pool := 0, ix := 0 }
     d.loaded 7 = true ∧ 0 < d.cabPools 7 ∧ 0 < d.fld (Reg.CAB_CTX_P_STATE 7 0) 32 15 ∧
     d.cabOwner b = some 1 ∧ (1 : Nat) ≠ 2 ∧ d.cabBlocked b = false ∧
     (let f := (d.setReg (Reg.CAB_CTX_P_BASE 7 0) (0x200000000000 + 8 <<< 48)).modClu 0 fun k =>
        { k with hacc := some { bank := 0, ovfLog2 := 0, ovf := 0, m := 0, n := 0, w := 0, keys := [], pc := 0, ea := 0 } }
      f.cabOwner b = some 1 ∧ f.cabBlocked b = true ∧ f.loaded 7 = true ∧ 0 < f.cabPools 7 ∧
      0 < f.fld (Reg.CAB_CTX_P_STATE 7 0) 32 15)) := by decide

/-- A placement table of one rank, this device, with one layer of one expert that has one replica. -/
def table1 : Bytes :=
  let pad := fun (n : Nat) (bs : Bytes) => bs ++ List.replicate (n - bs.length) 0
  let rest := leBytes 4 1 ++ leBytes 4 0 ++ leBytes 2 1 ++ leBytes 2 0 ++ leBytes 4 1 ++ leBytes 4 1 ++ leBytes 4 0x40 ++ leBytes 4 0x80 ++
    leBytes 4 0xC0 ++ leBytes 4 0x100 ++ List.replicate 12 0 ++ pad 64 [] ++
    pad 64 (leBytes 4 0 ++ leBytes 4 1 ++ leBytes 4 0 ++ leBytes 4 0xFFFFFFFF) ++ pad 64 (leBytes 4 0 ++ leBytes 2 1) ++ pad 64 []
  let head := leBytes 8 9 ++ leBytes 4 0x140
  head ++ leBytes 4 (crc32c (head ++ [0, 0, 0, 0] ++ rest)) ++ rest

/-- A context that runs with that table, and a placement command. -/
def placeDev (c : PlaceCmd) (pend : Bool) : Dev :=
  { inPlan .running (planOf 0 [clusterSec, (9, 1, table1)]) with
    placeTab := [(0, table1)], placeCmd := some c, placePend := if pend then [(0, (3, table1))] else [] }

set_option maxRecDepth 100000 in
theorem witness_PlacementCommands :
    (onDev.refusal .host Reg.BUR_PLACE_CTRL true = none ∧ onDev.bit Reg.BUR_STATUS 0 = true ∧ onDev.bit Reg.BUR_PLACE_STATUS 19 = false ∧
     fieldOf (0x0200000000000000 : Word) 56 2 = 2 ∧ fieldOf (0x0100000000000000 : Word) 56 2 = 1 ∧
     (onDev.setBit Reg.BUR_PLACE_STATUS 19 true).refusal .host Reg.BUR_PLACE_CTRL true = none ∧
     (onDev.setBit Reg.BUR_PLACE_STATUS 19 true).bit Reg.BUR_PLACE_STATUS 19 = true) ∧
    (let c : PlaceCmd := { kind := 3, ctx := 0, addr := 0, step := 0, late := false }
     (placeDev c false).placeCmd = some c ∧ (placeDev c false).placeCheck c = (1, 0)) ∧
    (let c : PlaceCmd := { kind := 2, ctx := 0, addr := 0, step := 0, late := false }
     (placeDev c true).placeCmd = some c ∧ (placeDev c true).placeCheck c = (0, 0)) ∧
    (let c : PlaceCmd := { kind := 1, ctx := 0, addr := 0, step := 5, late := false, table := some table1 }
     (placeDev c false).placeCmd = some c ∧ (placeDev c false).placeCheck c = (0, 0)) := by decide +kernel


/-! ### Witnesses: tiers and the Chest -/

/-- A HINT plan with one writable object of one page in the capacity tier, one prefetch entry of it, an age limit of 2, one frame of
each pool and namespace 63. -/
def tierPlan : Bytes :=
  planOf 0 [clusterSec, (11, 1,
    [1, 1] ++ leBytes 2 2 ++ leBytes 4 1 ++ leBytes 4 1 ++ leBytes 4 0x40 ++ leBytes 4 0x80 ++ leBytes 4 0 ++ leBytes 4 0 ++ leBytes 4 1 ++
    leBytes 4 0 ++ leBytes 4 1 ++ leBytes 8 (2 ^ 63) ++ List.replicate 16 0 ++
    ([1, 1] ++ List.replicate 6 0 ++ leBytes 8 0x300000000000 ++ leBytes 8 65536 ++ leBytes 8 0x100000000000) ++ List.replicate 32 0 ++
    (leBytes 4 0 ++ leBytes 4 0 ++ [0, 0] ++ leBytes 2 0 ++ leBytes 4 0))]

/-- A staged copy of the object. -/
def ent (dirty : List Nat) (age : Nat) (evicting : Bool) : TierEnt :=
  { ctx := 0, obj := 0, pool := 0, frames := [0], dirty := dirty, age := age, evicting := evicting }

/-- A block that runs the plan with a copy of the object and a descriptor. -/
def tierDev (e : TierEnt) (q : Desc) : Dev := { inPlan .running tierPlan with tierEnts := [e], descs := [q], clus := [(0, { seq := .running })] }

/-- A tier.cmd: OP, STATUS, OBJECT and LAYER. -/
def tierCmd (op st obj layer : Nat) : Desc :=
  desc 0x38 ([BitVec.ofNat 8 op, 0, 0, 0] ++ leBytes 4 st ++ List.replicate 24 0 ++ leBytes 4 obj ++ leBytes 4 layer ++ List.replicate 8 0)

/-- The outcome of a tier command: 0 done, 1 hold, 2 fault. -/
def outcome : TierRes → Nat
  | .done _ _ => 0
  | .hold _ => 1
  | .fault _ _ _ _ => 2

theorem witness_TierCommands :
    ((descDev 0x38 5).descReady (sl 0) 0x38 = true ∧ tierOp ((descDev 0x38 5).descBytes (sl 0)) = 5) ∧
    (let q := tierCmd 4 0xFFFFFFFF 0 3
     let d := tierDev (ent [] 0 false) q
     d.tierDesc 0 0 = some q ∧ d.tierEarlier 0 0 = none ∧ d.freeHubTrk = some 245760 ∧
     outcome ((d.takeTrk 245760 (hubTracker d 0 0 5)).tierRun q .clean) = 0 ∧ atLe q.bytes 0x14 4 = 0xFFFFFFFF ∧ tierBody q.bytes = none ∧
     tierOp q.bytes = 4 ∧ d.hint q.ctx = true) ∧
    (let q := tierCmd 4 0x7FFFFC 0 3
     let d := tierDev (ent [] 0 false) q
     d.tierDesc 0 0 = some q ∧ atLe q.bytes 0x14 4 ≠ 0xFFFFFFFF ∧
     d.tierEarlier 0 0 = none ∧ d.freeHubTrk = some 245760 ∧
     (match (d.takeTrk 245760 (hubTracker d 0 0 5)).tierRun q .clean with | .done f _ => f.localCheck q.ctx q.cl (atLe q.bytes 0x14 4) 4 2 == 0 | _ => false) = true) ∧
    (let q := tierCmd 1 0xFFFFFFFF 0 0
     let d := tierDev (ent [0] 0 true) q
     d.tierDesc 0 0 = some q ∧ d.tierEarlier 0 0 = none ∧ outcome ((d.takeTrk 245760 (hubTracker d 0 0 5)).tierRun q .clean) = 1) ∧
    (let q := tierCmd 8 0xFFFFFFFF 0 0
     let d := tierDev (ent [] 0 false) q
     d.tierDesc 0 0 = some q ∧ d.tierEarlier 0 0 = none ∧ outcome ((d.takeTrk 245760 (hubTracker d 0 0 5)).tierRun q .clean) = 2 ∧
     (let e : Dev := { d with descs := [q, tierCmd 4 0xFFFFFFFF 0 3] }
      e.tierDesc 0 1 = some (tierCmd 4 0xFFFFFFFF 0 3) ∧ e.tierEarlier 0 1 = some (q, 0x10))) ∧
    (let d : Dev := { tierDev (ent [] 0 false) (tierCmd 4 0 0 0) with prefetch := [(0, { busy := [0, 0, 0] })] }
     d.inStep 0 = true ∧ d.prefNext 0 = true ∧ (d.pref 0).busy.length < 4 ∧ (d.pref 0).busy[2]? = some 0 ∧
     d.freeHubTrk = some 245760 ∧
     (match (planPrefetch (d.ctx 0).plan)[0]? with
       | some q => outcome ((d.takeTrk 245760 (hubTracker d 0 0 5)).stage 0 q.obj q.tier .clean) == 0
       | none => false) = true) ∧
    (let d := tierDev (ent [] 2 false) (tierCmd 4 0 0 0)
     d.anyEnt 0 0 0 = some (ent [] 2 false) ∧ d.loaded 0 = true ∧ d.evictable (ent [] 2 false) = true ∧ secAt (d.ctx 0).plan 11 2 2 = 2) ∧
    (let d := tierDev (ent [0] 2 false) (tierCmd 4 0 0 0)
     d.anyEnt 0 0 0 = some (ent [0] 2 false) ∧ d.evictable (ent [0] 2 false) = true) ∧
    (let d := tierDev (ent [] 1 false) (tierCmd 4 0 0 0)
     d.anyEnt 0 0 0 = some (ent [] 1 false) ∧ (ent [] 1 false).age < secAt (d.ctx 0).plan 11 2 2) ∧
    (let d := tierDev (ent [0] 2 true) (tierCmd 4 0 0 0)
     d.anyEnt 0 0 0 = some (ent [0] 2 true) ∧ (ent [0] 2 true).evicting = true ∧ (d.ctx 0).state ≠ .frozen ∧ d.freeHubTrk = some 245760 ∧
     (let d1 := d.takeTrk 245760 (hubTracker d 0 0 5)
      d1.dirtyPoison (ent [0] 2 true) = none ∧ (({ d with poison := [(0, true)] } : Dev).dirtyPoison (ent [0] 2 true)).isSome = true) ∧
     (let f := d.setCtx 0 { d.ctx 0 with state := .frozen }
      f.anyEnt 0 0 0 = some (ent [0] 2 true) ∧ (f.ctx 0).state = .frozen)) := by decide

/-- What waits for a tracker. -/
theorem witness_TierCommands_no_tracker :
    let q := tierCmd 4 0xFFFFFFFF 0 3
    let d : Dev := { tierDev (ent [] 0 true) q with trks := hubTaken, prefetch := [(0, { busy := [0] })] }
    (d.tierDesc 0 0 = some q ∧ d.tierEarlier 0 0 = none ∧ (d.pref 0).busy[0]? = some 0 ∧ ((planPrefetch (d.ctx 0).plan)[0]?).isSome = true ∧
     d.anyEnt 0 0 0 = some (ent [] 0 true) ∧ (ent [] 0 true).evicting = true ∧ (d.ctx 0).state ≠ .frozen ∧ d.boot.pwrGood = true) ∧
    d.freeHubTrk = none :=
  ⟨by decide, hubTaken_none { tierDev (ent [] 0 true) (tierCmd 4 0xFFFFFFFF 0 3) with prefetch := [(0, { busy := [0] })] }⟩

/-- A CWRITE of one unit from address 0 to unit 0 of namespace 63. -/
def cwrite1 : Desc :=
  desc 0x38 ([6, 0, 63, 0] ++ leBytes 4 0xFFFFFFFF ++ leBytes 8 0 ++ leBytes 8 0 ++ leBytes 8 65536 ++ List.replicate 16 0)

/-- A Chest that is READY, with one block of one unit used, namespace 63 of 4 units, and a Cabinet pool of 64 KiB buffers at 0x40000. -/
def chestDev : Dev :=
  let d : Dev := { tierDev (ent [] 0 false) cwrite1 with
    chest := { dies := 1, bpd := 4096, upb := 512, usable := 1000, ns := [(63, { cap := 4, base := 0 })] }
    mem := (leBytes 8 (linkWord 1 0 0)).mapIdx fun i b => (0x40000 + i, b) }
  ((((d.setReg Reg.CHEST_STATUS (2 + 5 <<< 8)).setReg (Reg.CAB_CTX_CFG 0) (1 + 1 <<< 25)).setReg (Reg.CAB_CTX_P_BASE 0 0)
    (0x40000 + 16 <<< 48)).setReg (Reg.CAB_CTX_P_STATE 0 0) (2 + 2 <<< 32))

/-- The Chest in its window. -/
def chestBg (c : Chest) : Dev := { onDev.setReg Reg.CHEST_STATUS 2 with chest := c, windows := [(32, true)] }

theorem witness_ChestCommands :
    (onDev.refusal .host Reg.CHEST_NS_CMD true = none ∧ onDev.bit Reg.CHEST_NS_CMD 20 = false ∧ fieldOf (0x400 : Word) 8 3 ≠ 0 ∧
     (onDev.setBit Reg.CHEST_NS_CMD 20 true).refusal .host Reg.CHEST_NS_CMD true = none ∧
     (onDev.setBit Reg.CHEST_NS_CMD 20 true).bit Reg.CHEST_NS_CMD 20 = true) ∧
    (let d := fun (cmd k cap : Nat) (c : Chest) => ({ chestBg c with nsCmd := some cmd } : Dev).setReg Reg.CHEST_NS_CMD
        (BitVec.ofNat 64 (k + cap * 2 ^ 24))
     let c : Chest := { usable := 1000 }
     let c4 : Chest := { usable := 1000, ns := [(63, { cap := 4, base := 0 })] }
     let code := fun (e : Dev) (cmd : Nat) => e.nsCode cmd (e.fld Reg.CHEST_NS_CMD 0 6) (e.fld Reg.CHEST_NS_CMD 24 40)
     (d 1 63 1001 c).nsCmd = some 1 ∧ (d 1 63 1001 c).boot.pwrGood = true ∧ code (d 1 63 1001 c) 1 = 4 ∧ code (d 1 63 1000 c) 1 = 0 ∧
     0 + 1000 ≤ (d 1 63 1000 c).chest.usable ∧ code (d 2 63 0 c4) 2 = 0 ∧ code (d 4 0 0 c) 4 = 0 ∧
     (c.ns.any fun m => overlap 0 1000 m.2.base m.2.cap) = false ∧
     (let c := ({ usable := 1000, ns := [(1, { cap := 400, base := 300 })] } : Chest)
      code (d 1 63 600 c) 1 = 0 ∧ (d 1 63 600 c).chest.fits 0 600 = false ∧ (d 1 63 600 c).chest.hasRoom 600 = false ∧
      code (d 1 63 200 c) 1 = 0 ∧ (d 1 63 200 c).chest.fits 400 200 = false ∧ (d 1 63 200 c).chest.hasRoom 200 = true)) ∧
    ((onDev.setReg Reg.CHEST_STATUS 1).tablesWf = true ∧ (onDev.setReg Reg.CHEST_STATUS 1).fld Reg.CHEST_STATUS 0 3 = 1 ∧
     onDev.fld Reg.CHEST_STATUS 0 3 ≠ 1) ∧
    (let d : Dev := { chestDev with boot := { pwrGood := false } }
     d.tierDesc 0 0 = some cwrite1 ∧ d.tierEarlier 0 0 = none ∧ d.boot.pwrGood = false ∧ d.boot.flight.contains (0, cwrite1.ea) = false) ∧
    (let c : Chest := { blks := [(0, { used := 1, erases := 1100, reads := 2 ^ 24 }), (1, { used := 1 })] }
     let d := chestBg c
     d.chestBg = true ∧ d.fld Reg.CHEST_CFG 0 16 < c.spread.2 - c.spread.1 ∧ c.coldest = some 1 ∧
     d.fld Reg.CHEST_CFG 32 24 ≤ (d.chest.blk 0).reads ∧ onDev.chestBg = false) ∧
    ((chestBg { seq := 4194304 }).chestBg = true ∧ 4194304 ≤ (chestBg { seq := 4194304 }).chest.unsaved) := by decide

set_option maxRecDepth 1000000 in
theorem witness_ChestCommands_cwrite :
    let d := chestDev.takeTrk 245760 (hubTracker chestDev 0 0 5)
    let q := cwrite1
    chestDev.tierDesc 0 0 = some q ∧ chestDev.tierEarlier 0 0 = none ∧ chestDev.boot.pwrGood = true ∧ chestDev.freeHubTrk = some 245760 ∧
    tierOp q.bytes = 6 ∧ tierBody q.bytes = none ∧ d.nsBad q.ctx q.bytes = none ∧
    d.chestUp = true ∧ q.cfg = [] ∧ q.prog < atLe q.bytes 0x28 8 ∧ d.nsRo (atLe q.bytes 0x12 1) = false ∧ d.fld Reg.CHEST_STATUS 8 24 ≠ 0 ∧
    (match d.vread q.ctx (atLe q.bytes 0x18 8 + q.prog) 65536 with
      | .ok bs => (d.tierBuffer q.ctx bs).1 && ((d.tierBuffer q.ctx bs).2.chestWrite (atLe q.bytes 0x12 1)
          ((atLe q.bytes 0x20 8 + q.prog) / 65536) bs).isSome
      | _ => false) = true := by decide +kernel


/-! ### Witnesses: checkpoints -/

/-- A register write of each given word. -/
def setRegs (d : Dev) (ws : List (Nat × Nat)) : Dev := ws.foldl (fun e w => e.setReg w.1 (BitVec.ofNat 64 w.2)) d

/-- A ckp.snap to target 15 of one shard, its table at 0x10000 and its manifest range at 0 of 4,096 bytes. -/
def snap1 : Bytes :=
  leBytes 16 0x3C ++ [15, 0] ++ leBytes 2 1 ++ leBytes 4 0 ++ leBytes 8 0x10000 ++ leBytes 8 0 ++ leBytes 8 0 ++ leBytes 4 4096 ++ List.replicate 12 0

/-- The shard table: one shard of 4,096 bytes at 0x100000, written at 8,192 of the target. -/
def shards1 : Bytes := leBytes 8 0x100000 ++ leBytes 8 4096 ++ leBytes 8 8192 ++ leBytes 8 7

/-- Context 0 runs, cluster 0 stands at that ckp.snap, and target 15 is valid for context 0. -/
def ckpDev : Dev :=
  let put := fun (a : Nat) (bs : Bytes) => bs.mapIdx fun i b => (a + i, b)
  let d : Dev := { runDev with mem := put 0x10000 shards1 ++ put (spadAddr 0 0) snap1 }
  setRegs d [(Reg.CAB_CTX_CFG 0, 2 ^ 26), (Reg.NET_TGT_W 15 0, 1), (Reg.NET_TGT_W 15 6, 2 ^ 63)]

set_option maxRecDepth 100000 in
theorem witness_CheckpointCommands_snap :
    let a := sl 0
    let q := ckpDev.descOf a 0x3C none
    let e := ckpDev.issuedBy a id
    ckpDev.descReady a 0x3C = true ∧ (ckpDev.descs.all fun q => q.kind != 0x3C) = true ∧ ckpBody q.bytes = none ∧
    e.cabOn q.ctx 10 = true ∧ mapFind e.snaps q.ctx = none ∧ mapFind ckpDev.snaps q.ctx = none ∧
    (e.snapShards q.ctx q.bytes).toOption.map (·.map (·.size)) = some [4096] := by decide +kernel

/-- A snapshot of one shard, whose table has been taken. -/
def snapOf (s : Snap) : Dev := { runDev with snaps := [(0, s)] }

theorem witness_CheckpointCommands_copies :
    (let s : Snap := { cl := 0, body := snap1, shards := [], phase := 2, units := [(5, false)] }
     mapFind (snapOf s).snaps 0 = some s ∧ mapFind s.units 5 = some false ∧ s.phase = 2 ∧ ((snapOf s).earlyBuf 0 5 s).1 = none) ∧
    (let s : Snap := { cl := 0, body := snap1, shards := [{ addr := 0, size := 4096, roff := 0, name := 0, pieces := [(5 * 262144, 4096)] }],
                       phase := 2, units := [(5, false)] }
     mapFind (snapOf s).snaps 0 = some s ∧ mapFind s.units 5 = some false ∧ s.msgs[s.sent]? = some (0, 0, 4096) ∧ 5 ∈ s.draws (0, 0, 4096) ∧
     ((snapOf s).earlyBuf 0 5 s).1 = some []) ∧
    (let s : Snap := { cl := 0, body := snap1, shards := [], phase := 2, units := [(5, true)] }
     mapFind (snapOf s).snaps 0 = some s ∧ mapFind s.units 5 = some true ∧ s.phase = 2) ∧
    (let s : Snap := { cl := 0, body := snap1, shards := [], phase := 2, man := some (List.replicate 128 1), manAcked := true }
     mapFind (snapOf s).snaps 0 = some s ∧ s.man = some (List.replicate 128 1) ∧ s.manAcked = true) := by decide

theorem witness_CheckpointCommands_restore :
    (let d := fun (c : CtxState) (busy : Bool) => (inState c).setBit Reg.CKP_RESTORE_STATUS 8 busy
     let w : Word := 0x1F00
     bitOf w 12 = true ∧
     ([(CtxState.loaded, false), (.running, false), (.loaded, true)].all fun p =>
       ((d p.1 p.2).refusal .host Reg.CKP_RESTORE_CTRL true).isNone && (d p.1 p.2).bit Reg.BUR_STATUS 0 &&
       (d p.1 p.2).bit Reg.CKP_RESTORE_STATUS 8 == p.2 && ((d p.1 p.2).ctx (fieldOf w 0 3)).state == p.1) = true) ∧
    (let r : Restore := { ctx := 7, tgt := 15, off := 0, out := some (5, 3) }
     ({ onDev with restore := some r } : Dev).restore = some r ∧ r.out = some (5, 3) ∧ (5 : Nat) ≠ 0 ∧ (5 : Nat) ≠ 2 ∧ (5 : Nat) ≠ 6) ∧
    (let r : Restore := { ctx := 7, tgt := 15, off := 0, out := some (0, 0) }
     ({ onDev with restore := some r } : Dev).restore = some r ∧ r.out = some (0, 0) ∧ bitsOf (atLe r.man 6 1) 0 1 = 0) := by decide

/-- Context 7 with a journal ring of 4,096 bytes at 0, one record of 64 bytes in it, and target 15 VALID and JOURNAL for it. -/
def exportDev : Dev :=
  let d : Dev := { onDev with windows := [(7, true)], mem := [(8, 64)] }
  setRegs d [(Reg.NET_TGT_W 15 0, 9 + 7 * 2 ^ 8), (Reg.NET_TGT_W 15 6, 4096), (Reg.FPU_CTX_JCFG 7, 2 ^ 16), (Reg.FPU_CTX_JTAIL 7, 64),
    (Reg.FPU_CTX_JSIZE 7, 4096)]

set_option maxRecDepth 100000 in
theorem witness_CheckpointCommands_export :
    let d := exportDev
    ((upFrom 0 16).find? fun t => netFor (d.tgt t) 7 && bitsOf (atLe (d.tgt t) 0 1) 3 1 == 1) = some 15 ∧
    d.bit (Reg.FPU_CTX_JCFG 7) 16 = true ∧ (d.reg (Reg.FPU_CTX_JHEAD 7)).toNat = 0 ∧ (d.reg (Reg.FPU_CTX_JTAIL 7)).toNat = 64 ∧
    d.fld (Reg.FPU_CTX_JSIZE 7) 0 40 ≠ 0 ∧ (d.qps.any fun e => e.2.msgs.any fun m => m.kind == 2 && m.ctx == 7) = false ∧
    ((upFrom 0 8).any fun n => d.windowOpen 0 n) = true ∧ atLe (d.tgt 15) 0x30 8 = 4096 ∧
    (let h := d.ringRead 7 0 64
     let r := h.2.ringRead 7 0 (atLe h.1 8 4)
     atLe h.1 8 4 = 64 ∧ r.1.length = 64 ∧ (r.2.netSend 15 2 7 0 r.1 64).isSome = true) := by decide +kernel


/-! ### Witnesses: ports, discovery and the router -/

/-- A packet at a port, from its header and payload. -/
def pk (port : Nat) (h : Hdr) (pay : Bytes) : Packet := { port := port, vc := h.vc, bytes := ({ hdr := h, pay := pay } : RPkt).bytes }

/-- A port in a state since time 0, at time 2^63. -/
def portDev (n st : Nat) : Dev := { (onDev.setPort n st) with time := BitVec.ofNat 64 (2 ^ 63) }

set_option maxRecDepth 8000 in
theorem witness_LinkLayer :
    ((31 : Nat) < 32 ∧ (3 : Nat) < 4 ∧ (portDev 31 2).portState 31 = 2 ∧ (portDev 31 4).portState 31 = 4) ∧
    (bitsOf (0 : Nat) 0 12 = (((portDev 31 4).link 31).rxSeq + 1) % 4096 ∧ bitsOf (0 : Nat) 24 1 = 0 ∧ ((portDev 31 4).link 31).resent < 8) ∧
    (bitsOf (1 : Nat) 0 12 ≠ (((portDev 31 4).link 31).rxSeq + 1) % 4096) ∧
    (let fr : Frame := { seq := 7, lw := 0, units := [], ends := 0 }
     let d := fun (resent n : Nat) => (portDev 31 4).setLink 31 { resent := resent, replay := List.replicate n fr, stream := [(false, List.replicate (16 * 160) 0)] }
     (let l := (d 0 1).link 31
      l.replay.length < 512 ∧ 160 ≤ l.waiting ∧ l.waiting < 320 ∧ ackReplay (bitsOf (4096 * 6 + 2 ^ 24) 12 12) l.replay ≠ [] ∧
      bitsOf (4096 * 6 + 2 ^ 24) 0 12 = (l.rxSeq + 1) % 4096 ∧ bitsOf (4096 * 6 + 2 ^ 24) 24 1 = 1) ∧
     (let l := (d 7 1).link 31
      let rep := ackReplay (bitsOf (4096 * 6 + 2 ^ 24) 12 12) l.replay
      rep ≠ [] ∧ (if rep.length < l.replay.length then 0 else l.resent) = 7) ∧
     512 ≤ ((d 0 512).link 31).replay.length ∧ ((portDev 31 4).link 31).waiting < 160) ∧
    ((portDev 31 3).portState 31 = 3 ∧ ((portDev 31 3).link 31).since + (portDev 31 3).fld Reg.FAB_TIMEOUT 48 16 * 1600 < (portDev 31 3).time.toNat ∧
     (let d : Dev := { portDev 31 3 with time := 0 }
      d.portState 31 = 3 ∧ d.time.toNat ≤ (d.link 31).since + d.fld Reg.FAB_TIMEOUT 48 16 * 1600) ∧
     ((portDev 31 3).setBit (Reg.FAB_P_STATUS 31) 7 true).bit (Reg.FAB_P_STATUS 31) 7 = true ∧ (portDev 31 3).bit (Reg.FAB_P_STATUS 31) 7 = false ∧ (portDev 31 3).fld (Reg.FAB_P_STATUS 31) 4 4 = 0) ∧
    (let d := (portDev 31 4).setBit (Reg.FAB_P_STATUS 31) 4 true
     d.portState 31 = 4 ∧ d.bit (Reg.FAB_P_STATUS 31) 7 = false ∧ d.fld (Reg.FAB_P_STATUS 31) 4 4 ≠ 0) ∧
    (([14, 31] : List Nat).all fun n => decide (((portDev n 3).link n).since +
        (portDev n 3).fld Reg.FAB_TIMEOUT (if n < 16 then 32 else 48) 16 * 1600 ≤ (portDev n 3).time.toNat)) = true ∧
    ((portDev 14 3).portState 14 = 3 ∧ (portDev 14 3).bit Reg.FAB_SWING 12 = false) ∧
    ((portDev 14 5).portState 14 = 5 ∧ (portDev 14 5).swingNow ≠ some 14 ∧
     ((portDev 14 5).link 14).since + (portDev 14 5).fld Reg.FAB_TIMEOUT 0 16 * 1600 ≤ (portDev 14 5).time.toNat) ∧
    (let d := fun st => (portDev 31 st).setBit (Reg.FAB_P_CFG 31) 0 true
     (d 0).portEnabled 31 = true ∧ (d 0).portState 31 ≤ 1 ∧ (d 1).portEnabled 31 = true ∧ (d 1).portState 31 ≤ 1 ∧
     (5000 : Nat) ≤ 5000 ∧ (5000 : Nat) < 5001 ∧ (2 : Nat) ≠ 1) ∧
    ((portDev 31 4).tablesWf = true ∧ (portDev 31 4).disc = none ∧ (portDev 31 4).portState 31 ≠ 0) := by decide +kernel

/-- A DISC of port 3, epoch 5: node 17, port 30. -/
def disc1 (epoch : Nat) : Packet :=
  pk 3 { ty := 0x19, vc := 0, dst := 0, src := 17, pkey := 0xFFFF, len := 1 } (leBytes 2 17 ++ leBytes 2 30 ++ leBytes 4 epoch ++ leBytes 8 0)

/-- An epoch 5 over some ports, port 3 UP. -/
def discDev (ports : List Nat) (now : Nat) : Dev :=
  { onDev.setPort 3 2 with disc := some { epoch := 5, ports := ports, since := 0 }, time := BitVec.ofNat 64 now }

set_option maxRecDepth 100000 in
theorem witness_SwingAndDiscovery :
    (let d := fun (sw : Bool) (st : Nat) => (onDev.setBit Reg.FAB_SWING 12 sw).setPort 14 st
     fieldOf ((0xE : Word) ||| 0x10) 0 4 = 14 ∧
     ([(false, 0), (false, 5), (true, 0)].all fun p => ((d p.1 p.2).refusal .host Reg.FAB_SWING true).isNone &&
        (d p.1 p.2).bit Reg.FAB_SWING 12 == p.1 && (d p.1 p.2).swingNow.isNone && (d p.1 p.2).portState 14 == p.2) = true) ∧
    (let d := (onDev.setPort 14 5).setLink 14 { replay := [{ seq := 0, lw := 0, units := [], ends := 0 }] }
     d.portState 14 = 5 ∧ (d.link 14).replay ≠ []) ∧
    (let d : Dev := { onDev with swingNow := some 14 }
     d.swingNow = some 14 ∧ (d.link 15).swing = false ∧ 0 + 14 = 14 ∧ 1 + 14 ≠ 14) ∧
    (let d : Dev := { onDev with swingNow := some 14, links := [(15, { swing := true })] }
     d.swingNow = some 14 ∧ (d.link 15).swing = true) ∧
    (let d := fun st => ((onDev.setBit Reg.FAB_SWING 12 true).setFld Reg.FAB_SWING 8 4 14).setPort 14 st
     ([2, 4, 0].all fun st => ((d st).refusal .host Reg.FAB_SWING true).isNone && (d st).bit Reg.FAB_SWING 12 &&
        (d st).portState ((d st).fld Reg.FAB_SWING 8 4) == st) = true ∧
     onDev.refusal .host Reg.FAB_SWING true = none ∧ onDev.bit Reg.FAB_SWING 12 = false) ∧
    (onDev.refusal .host Reg.FAB_DISC_CTRL true = none ∧ onDev.disc = none ∧ onDev.upPorts = [] ∧ onDev.tablesWf = true ∧
     (onDev.setPort 3 2).refusal .host Reg.FAB_DISC_CTRL true = none ∧ (onDev.setPort 3 2).disc = none ∧ (onDev.setPort 3 2).upPorts ≠ [] ∧
     (discDev [3] 0).refusal .host Reg.FAB_DISC_CTRL true = none ∧ (discDev [3] 0).disc.isSome = true) ∧
    ([(disc1 5, [3]), (disc1 5, [3, 4]), (disc1 4, [3])].all fun c =>
      let d := discDev c.2 0
      d.takesAt c.1 0x19 && !(d.held c.1).bad && c.1.vc == 0 && (d.held c.1).hdr.vc == 0 && c.2.contains c.1.port) = true ∧
    (atLe ((discDev [3] 0).held (disc1 5)).pay 4 4 = 5 ∧ atLe ((discDev [3] 0).held (disc1 4)).pay 4 4 = 4) ∧
    (0 + 160000 ≤ (discDev [3] 160000).time.toNat ∧ (discDev [3] 159999).time.toNat < 0 + 160000) := by decide +kernel

/-- Node 5, job 7's PKEY 0x1234 admitted everywhere, port 4 to position 10 and port 31 ADMITTED, bench 2 reached by escape port 31. -/
def fabDev (rtr : List RPkt) : Dev :=
  let d := setRegs onDev [(Reg.FAB_NODE, 5), (Reg.FAB_PKEY 15, 0xFFFFFFFF00011234), (Reg.FAB_ROUTE 2, 2 ^ 37 + 31 * 2 ^ 32)]
  { ((d.setPort 4 4).setPort 31 4) with rtr := rtr }

/-- A WRITE of one unit to a node. -/
def wr (dst esc hops pkey : Nat) : RPkt :=
  { hdr := { ty := 1, vc := 5, esc := esc, hops := hops, dst := dst, src := 6, pkey := pkey, len := 1 }, pay := List.replicate 16 0 }

set_option maxRecDepth 8000 in
theorem witness_PacketForwarding :
    (let at_ := fun (p : RPkt) (d : Dev) => d.rtr[0]? = some p ∧ p.outp = none ∧ p.hdr.ty ≠ 0x19 ∧ p.hdr.ty ≠ 0x1A ∧ p.hdr.rmode ≤ 1
     at_ (wr 5 0 0 0x1234) (fabDev [wr 5 0 0 0x1234]) ∧ (wr 5 0 0 0x1234).hdr.dst = (fabDev []).node ∧
     at_ (wr 10 0 0 1) (fabDev [wr 10 0 0 1]) ∧ (fabDev [wr 10 0 0 1]).route (wr 10 0 0 1) 0 = .drop 0 ∧
     (let d := (fabDev [wr 10 0 0 0x1234]).setCredit 4 5 0 0
      at_ (wr 10 0 0 0x1234) d ∧ d.route (wr 10 0 0 0x1234) 0 = .wait) ∧
     (let d := fabDev [wr 10 0 0 0x1234]
      at_ (wr 10 0 0 0x1234) d ∧ d.route (wr 10 0 0 0x1234) 0 = .out 4 (wr 10 0 0 0x1234).hdr ∧
      (({ d with rtr := d.rtr.eraseIdx 0 } : Dev).tryCombine 4 (wr 10 0 0 0x1234)).isNone = true)) ∧
    (let p : RPkt := { wr 10 0 0 0x1234 with outp := some 4 }
     let d := fabDev [p]
     d.rtr[0]? = some p ∧ p.outp = some 4 ∧
     ([3, 5].all fun st => !(d.setPort 4 st).portTakes 4 p.hdr && (d.setPort 4 st).portState 4 == st) = true ∧
     (let e := d.setCredit 4 5 0 0
      e.rtr[0]? = some p ∧ e.portTakes 4 p.hdr = true ∧ e.hasCredit 4 p.hdr = false) ∧
     d.portTakes 4 p.hdr = true ∧ d.pkeyOk 4 p.hdr = true ∧ d.hasCredit 4 p.hdr = true ∧ d.outranked 4 p.hdr.vc = false ∧
     (d.link 4).waiting < 160 ∧ 2 ≤ p.hdr.vc ∧ (d.drrServe 4 p).isSome = true) ∧
    (let c : Combine := { req := [], far := false, since := 0 }
     let d := fun (t : Nat) => ({ onDev with combine := [(0, c)], time := BitVec.ofNat 64 t } : Dev)
     mapFind (d 0).combine 0 = some c ∧ c.since + (d (2 ^ 63)).deadTime c.far ≤ (d (2 ^ 63)).time.toNat ∧
     (d 0).time.toNat < c.since + (d 0).deadTime c.far) ∧
    (let q : Parked := { buf := none, pkt := wr 5 0 0 0 }
     ({ onDev with parked := [q] } : Dev).parked[0]? = some q ∧ q.buf = none) := by decide

/-- A READ to the node at position 10. -/
def rd1 : RPkt := { hdr := { (wr 10 0 0 0x1234).hdr with ty := 3 } }

set_option maxRecDepth 8000 in
theorem witness_PacketForwarding_leaves :
    (let d := (fabDev [rd1, { rd1 with outp := some 4 }]).setBit Reg.FAB_COMBINE 0 true
     d.rtr[0]? = some rd1 ∧ rd1.outp = none ∧ rd1.hdr.rmode ≤ 1 ∧ d.route rd1 0 = .out 4 rd1.hdr ∧
     (({ d with rtr := d.rtr.eraseIdx 0 } : Dev).tryCombine 4 rd1).isSome = true) ∧
    (let p : RPkt := { wr 10 0 0 0x1234 with outp := some 4 }
     let d := fabDev [p]
     (let q : RPkt := { wr 10 0 0 1 with outp := some 4 }
      (fabDev [q]).portTakes 4 q.hdr = true ∧ (fabDev [q]).pkeyOk 4 q.hdr = false) ∧
     (let e := d.setLink 4 { stream := [(false, List.replicate 2560 0)] }
      e.rtr[0]? = some p ∧ e.portTakes 4 p.hdr = true ∧ e.pkeyOk 4 p.hdr = true ∧ 160 ≤ (e.link 4).waiting) ∧
     (let q := { p with hdr.vc := 1 }
      let e := fabDev [q]
      e.rtr[0]? = some q ∧ e.portTakes 4 q.hdr = true ∧ e.pkeyOk 4 q.hdr = true ∧ e.hasCredit 4 q.hdr = true ∧ e.outranked 4 1 = false ∧
      (e.link 4).waiting < 160 ∧ q.hdr.vc < 2) ∧
     (let e := fabDev [p, { p with hdr.vc := 2 }]
      e.rtr[0]? = some p ∧ e.portTakes 4 p.hdr = true ∧ e.pkeyOk 4 p.hdr = true ∧ e.hasCredit 4 p.hdr = true ∧
      e.outranked 4 5 = false ∧ (e.link 4).waiting < 160 ∧ (e.drrServe 4 p).isNone = true)) := by decide +kernel

set_option maxRecDepth 8000 in
theorem witness_RoutesFollowTheTables :
    (let d := fabDev []
     (wr 10 0 0 0).hdr.dst ≠ d.node ∧ d.swung = false ∧ benchOf (wr 10 0 0 0).hdr.dst = benchOf d.node ∧ (wr 10 0 0 0).hdr.esc = 0 ∧
     (10 % 16 + 16 - d.node % 16 + 15) % 16 = 4 ∧ d.admitted 4 = true ∧ d.pkeyOk 4 (wr 10 0 0 0).hdr = false ∧
     d.pkeyOk 4 (wr 10 0 0 0x1234).hdr = true ∧ d.hasCredit 4 (wr 10 0 0 0x1234).hdr = true ∧
     (d.setCredit 4 5 0 0).hasCredit 4 (wr 10 0 0 0x1234).hdr = false) ∧
    (let d := fabDev []
     let p := wr 37 1 30 0x1234
     p.hdr.dst ≠ d.node ∧ benchOf p.hdr.dst ≠ benchOf d.node ∧ p.hdr.esc = 1 ∧ d.bit (Reg.FAB_ROUTE (benchOf p.hdr.dst)) 37 = true ∧
     d.fld (Reg.FAB_ROUTE (benchOf p.hdr.dst)) 32 5 = 31 ∧ d.admitted 31 = true ∧ p.hdr.hops < 31 ∧ (wr 37 1 31 0).hdr.hops = 31 ∧
     (let h := { p.hdr with hops := p.hdr.hops + 1, sub := if d.bit (Reg.FAB_P_CFG 31) 1 then 1 else p.hdr.sub }
      d.pkeyOk 31 h = true ∧ d.hasCredit 31 h = true ∧ (d.setCredit 31 5 1 0).hasCredit 31 h = false)) := by decide


/-! ### Witnesses: packets at their destination -/

/-- Context 0 in a state with that plan, its PKEY 0x1234 admitted, port 4 ADMITTED. -/
def inDev (c : CtxState) : Dev :=
  (setRegs (inPlan c segPlan) [(Reg.FAB_PKEY 15, 0xFFFFFFFF00011234), (Reg.FAB_CTX_ID 0, 0x12340000)]).setPort 4 4

/-- A packet of job 7 to this device at port 4, of a type on a VC, with LEN and AOP and a payload of units. -/
def rq (ty vc len units : Nat) (job aop : Nat) : Packet :=
  pk 4 { ty := ty, vc := vc, src := 6, pkey := 0x1234, job := job, len := len, aop := aop } (List.replicate (16 * units) 0)

/-- A packet as it is examined: it has left its input region. -/
def arr (d : Dev) (p : Packet) : RPkt := { d.held p with inReg := false }

/-- The block then. -/
def freed (d : Dev) (p : Packet) : Dev := d.freeRegion (d.held p)

/-- The code of a check, 0 where it passes. -/
def codeOf {α : Type} : Except Nat α → Nat
  | .error c => c
  | .ok _ => 0

set_option maxRecDepth 100000 in
theorem witness_InboundRequests :
    (let d := inDev .running
     ([(rq 1 5 1 1 7 0, 1), (rq 2 5 1 1 7 0, 2), (rq 3 5 1 0 7 0, 3), (rq 4 5 1 1 7 0, 4), (rq 5 5 1 1 7 8, 5)].all fun c =>
       d.takesHere c.1 c.2 && codeOf ((freed d c.1).inCheck (arr d c.1) c.1.vc) == 0) = true ∧
     ([(rq 1 5 1 1 9 0, 1), (rq 2 5 1 1 9 0, 2), (rq 3 5 1 0 9 0, 3), (rq 4 5 1 1 9 0, 4), (rq 5 5 1 1 9 8, 5)].all fun c =>
       d.takesHere c.1 c.2 && codeOf ((freed d c.1).inCheck (arr d c.1) c.1.vc) == 3) = true ∧
     (d.held { rq 1 5 1 1 7 0 with bytes := [] }).bad = true ∧
     (let q := d.held (rq 1 5 1 1 9 0)
      q.bad = false ∧ typeOk q.hdr 5 = true ∧ d.ctxOfJob q.hdr.job = none)) ∧
    (let h := ((inDev .running).held (rq 1 5 1 1 7 0)).hdr
     ([CtxState.loaded, .closing, .stopped, .done, .frozen].all fun c =>
       (inDev c).ctxOfJob h.job == some 0 && ((inDev c).ctx 0).state == c) = true ∧
     (let d := (inDev .running).setFld (Reg.FAB_CTX_ID 0) 16 16 0x4321
      d.ctxOfJob h.job = some 0 ∧ (d.ctx 0).state = .running ∧ d.bit (Reg.FAB_CTX_ID 0) 32 = false ∧
      d.fld (Reg.FAB_CTX_ID 0) 16 16 ≠ h.pkey) ∧
     (let d := (inDev .frozen).setBit (Reg.FAB_CTX_ID 0) 32 true
      d.ctxOfJob h.job = some 0 ∧ d.bit (Reg.FAB_CTX_ID 0) 32 = true)) := by decide +kernel

/-- A tracker in flight to node 6: a read of the DMA queue where rd, an atomic with its result otherwise. -/
def trk1 (rd : Bool) : Tracker := { kind := 4, state := 2, node := 6, length := 16, dva := 0x100, rd := rd }

/-- Context 0 runs with a tracker. -/
def trkDev (ts : List (Nat × Tracker)) : Dev := { inDev .running with trks := ts }

set_option maxRecDepth 100000 in
theorem witness_InboundAnswers :
    ([(rq 8 6 0 0 7 0, 8), (rq 9 6 1 1 7 0, 9), (rq 0xA 6 1 1 7 0, 0xA), (rq 0xB 6 0 0 7 0, 0xB)].all fun c =>
       let d := trkDev []
       let e := trkDev [(0, trk1 (c.2 == 9))]
       let q := d.held c.1
       !q.bad && vcLegal q.hdr.ty c.1.vc && q.hdr.proxy == 0 && (d.trkOf q.hdr.seq).isNone && d.takesHere c.1 c.2 &&
       e.trkOf (e.held c.1).hdr.seq == some 0 && !e.trkDue 0 && !e.masterFaulted (e.trk 0) && e.takesHere c.1 c.2) = true ∧
    (let e := trkDev [(0, { trk1 false with kind := 2 })]
     e.trkOf (e.held (rq 8 6 0 0 7 0)).hdr.seq = some 0 ∧ e.trkDue 0 = false ∧ (e.trk 0).rd = false ∧ (e.trk 0).fetches = false ∧
     (trk1 true).rd = true ∧ (trk1 false).fetches = true ∧ (trk1 true).fetches = false ∧ (trk1 false).rd = false) ∧
    (let e : Dev := { trkDev [(0, trk1 true)] with time := BitVec.ofNat 64 (2 ^ 63) }
     e.trkOf (e.held (rq 9 6 1 1 7 0)).hdr.seq = some 0 ∧ e.trkDue 0 = true) ∧
    (let e := (trkDev [(0, trk1 true)]).modClu 0 fun k => { k with dmaFault := 0x100 }
     e.trkOf (e.held (rq 9 6 1 1 7 0)).hdr.seq = some 0 ∧ e.trkDue 0 = false ∧ e.masterFaulted (e.trk 0) = true) ∧
    ([(rq 9 6 1 1 7 0, true), (rq 0xA 6 1 1 7 0, false)].all fun c =>
       let e := trkDev [(0, trk1 c.2)]
       let t := e.trk 0
       (e.translate t.ctx .w t.dva (e.held c.1).pay.length).toOption.isSome && !(e.held c.1).poison && !e.syncRefused t.ctx t.rop t.robj &&
       (if c.2 then t.rd else t.fetches)) = true ∧
    (let d : Dev := (setRegs (inPlan .running colPlan) [(Reg.FAB_PKEY 15, 0xFFFFFFFF00011234), (Reg.FAB_CTX_ID 0, 0x12340000)]).setPort 4 4
     let chunk := fun (ty vc job addr : Nat) => pk 4 { ty := ty, vc := vc, src := 6, pkey := 0x1234, job := job, addr := addr } []
     ([(0x10, 4), (0x11, 1)].all fun c =>
       let good := chunk c.1 c.2 7 (8 * 2 ^ 32)
       let tag := chunk c.1 c.2 7 (9 * 2 ^ 32)
       let job := chunk c.1 c.2 9 0
       d.takesHere good c.1 && codeOf ((freed d good).inHead (arr d good) c.2) == 0 && !(freed d good).ctagBad 0 (d.held good).hdr && (d.held good).pay.isEmpty &&
       d.takesHere tag c.1 && codeOf ((freed d tag).inHead (arr d tag) c.2) == 0 && (freed d tag).ctagBad 0 (d.held tag).hdr &&
       d.takesHere job c.1 && codeOf ((freed d job).inHead (arr d job) c.2) == 3) = true ∧
     (let big := pk 4 { ty := 0x10, vc := 4, src := 6, pkey := 0x1234, job := 7, len := 1, addr := 8 * 2 ^ 32 } (List.replicate 16 1)
      let e := fun (free : Nat) => setRegs { d with mem := (leBytes 8 (linkWord 1 0 0)).mapIdx fun i b => (0x40000 + i, b) }
        [(Reg.CAB_CTX_CFG 0, 1 + 2 ^ 20), (Reg.CAB_CTX_P_BASE 0 0, 0x40000 + 12 * 2 ^ 48), (Reg.CAB_CTX_P_STATE 0 0, free + 2 * 2 ^ 32)]
      ([2, 0].all fun n => (e n).takesHere big 0x10 && codeOf ((freed (e n) big).inHead (arr (e n) big) 4) == 0 && !(freed (e n) big).ctagBad 0 ((e n).held big).hdr &&
        !((e n).held big).pay.isEmpty && (freed (e n) big).cabOn 0 4 && ((freed (e n) big).cabAlloc 0 4 16 4).1.isSome == (n == 2)) = true)) := by decide +kernel

theorem witness_PacketBytesRoundTrip :
    let h : Hdr :=
      { ty := 31, vc := 7, esc := 1, sub := 1, hops := 63, dst := 0xFFFF, src := 0xFFFF, pkey := 0xFFFF, job := 0xFFFF, len := 511, rmode := 3,
        sop := 15, sync := 0xFFFF, mcast := 0xFFFF, addr := 2 ^ 48 - 1, aop := 15, asz := 3, seq := 2 ^ 24 - 1, proxy := 1, sval := 2 ^ 32 - 1 }
    let q : RPkt := { hdr := h, pay := List.replicate (16 * 511) 0xFF }
    (h.ty < 2 ^ 5 ∧ h.vc < 2 ^ 3 ∧ h.esc < 2 ∧ h.sub < 2 ∧ h.hops < 2 ^ 6 ∧ h.dst < 2 ^ 16 ∧ h.src < 2 ^ 16 ∧ h.pkey < 2 ^ 16 ∧
     h.job < 2 ^ 16 ∧ h.len < 2 ^ 9 ∧ h.rmode < 2 ^ 2 ∧ h.sop < 2 ^ 4 ∧ h.sync < 2 ^ 16 ∧ h.mcast < 2 ^ 16 ∧ h.addr < 2 ^ 48 ∧
     h.aop < 2 ^ 4 ∧ h.asz < 2 ^ 2 ∧ h.seq < 2 ^ 24 ∧ h.proxy < 2 ∧ h.sval < 2 ^ 32 ∧ h.z = 0) ∧
    q.hdr = h ∧ q.pay.length = 16 * h.units ∧ q.flip < 2 ^ 32 := by
  exact ⟨by decide, rfl, List.length_replicate, by decide⟩


/-! ### Witnesses: the time base and the edges -/

/-- The Trestle toward port 31, which is UP, at a time, with an exchange. -/
def trsDev (now : Nat) (t : Trs) : Dev :=
  { (setRegs onDev [(Reg.TRS_CFG, 31 * 2 + 4096 * 2 ^ 8)]).setPort 31 2 with hubLocked := true, time := BitVec.ofNat 64 now, trs := t }

/-- A TIME packet at port 31 with its stamps. -/
def time1 (stamps : List Nat) : Packet :=
  let pay := stamps.flatMap (leBytes 8)
  let pay := pay ++ List.replicate (pay.length % 16) (0 : Byte)
  pk 31 { ty := 0x1A, vc := 7, src := 17, pkey := 0xFFFF, len := pay.length / 16 } pay

set_option maxRecDepth 100000 in
theorem witness_TimeExchanges :
    (let d := trsDev 4096 { intv := 4096, last := some 0 }
     d.hubLocked = true ∧ d.bit Reg.TRS_CFG 0 = false ∧ d.trs.sent = none ∧ d.trs.last = some 0 ∧ 0 + d.trs.intv ≤ d.time.toNat ∧
     d.portState (d.fld Reg.TRS_CFG 1 5) = 2 ∧ (d.setPort 31 4).portState 31 = 4 ∧ (d.setPort 31 0).portState 31 = 0) ∧
    (let d := trsDev 4095 { intv := 4096, last := some 0 }
     d.trs.last = some 0 ∧ d.time.toNat < 0 + d.trs.intv) ∧
    (let d := trsDev 50 { sent := some 10, port := 31 }
     ([time1 [10], time1 [10, 30, 35], time1 [11, 30, 35]].all fun p => d.takesAt p 0x1A && !(d.held p).bad && p.vc == 7 && (d.held p).hdr.vc == 7) =
       true ∧
     (d.held (time1 [10])).hdr.len = 1 ∧ (d.held (time1 [10, 30, 35])).hdr.len ≠ 1 ∧
     d.trs.sent = some (atLe (d.held (time1 [10, 30, 35])).pay 0 8) ∧ d.trs.port = (time1 [10, 30, 35]).port ∧
     (d.held (time1 [11, 30, 35])).hdr.len ≠ 1 ∧ d.trs.sent ≠ some (atLe (d.held (time1 [11, 30, 35])).pay 0 8)) ∧
    (let d := trsDev 50 {}
     d.fld Reg.TRS_SYNC 0 2 = 0 ∧ d.stepping = false ∧ d.trs.stepped = false ∧ (0 : Int) < 1 ∧ (0 : Int) ≤ 0 ∧ runDev.stepping = true) ∧
    (let d := fun (missed : Nat) => (trsDev 4096 { sent := some 0, intv := 4096 }).setReg Reg.TRS_SYNC (BitVec.ofNat 64 (1 + missed * 2 ^ 32))
     let e := fun (missed : Nat) => ({ d missed with trs := { (d missed).trs with sent := none, good := 0 } } : Dev).addFld Reg.TRS_SYNC 32 16 1
     (d 15).trs.sent = some 0 ∧ 0 + (d 15).trs.intv ≤ (d 15).time.toNat ∧ (e 15).fld Reg.TRS_SYNC 0 2 = 1 ∧ 16 ≤ (e 15).fld Reg.TRS_SYNC 32 16 ∧
     (d 14).trs.sent = some 0 ∧ 0 + (d 14).trs.intv ≤ (d 14).time.toNat ∧ (e 14).fld Reg.TRS_SYNC 32 16 < 16) ∧
    (trsDev 0 {}).trs.sent = none := by decide +kernel

/-- VF 8 bound to context 7, which runs. -/
def vfDev (win : Nat) : Dev :=
  { onDev with ctxs := [(7, { state := .running, plan := plan0 })] }.setReg (Reg.HIF_VF_CFG 8) (BitVec.ofNat 64 (15 + win * 2 ^ 34))

set_option maxRecDepth 100000 in
theorem witness_HostInterface :
    onDev.domOn 24 = true ∧
    (onDev.pfReaches (onDev.pfAt 0) 64 = true ∧ onDev.poisoned (onDev.pfAt 0) 64 = false ∧
     (let d := onDev.setFld Reg.HIF_PF_WIN 36 12 0xFFF
      let off := 64 * 2 ^ 30 - 64
      d.domOn 24 = true ∧ off + (List.replicate 64 (0 : Byte)).length ≤ 64 * 2 ^ 30 ∧ d.pfReaches (d.pfAt off) 64 = false)) ∧
    ((8 : Nat) ≤ 8 ∧ 0xFFFF < 0x10000 ∧ onDev.vfCtx 8 = none ∧ onDev.vfCtx 1 = none) ∧
    (let d := vfDev 0
     d.domOn 24 = true ∧ d.vfCtx 8 = some 7 ∧ vfReg 7 0x10 = some (Reg.CTX_CTX_STATUS 7) ∧ Reg.CTX_CTX_STATUS 7 ≠ Reg.AON_POWER ∧
     d.refusal .host (Reg.CTX_CTX_STATUS 7) false = none ∧ vfReg 7 0x38 = none ∧ vfReg 7 0xFFFF = none ∧
     2 ^ 34 - 16 + (List.replicate 16 (0 : Byte)).length ≤ 2 ^ 34 ∧
     (d.translate 7 .w (d.vfAt 8 (2 ^ 34 - 16)) 16).toOption.isSome = true ∧ (d.translate 7 .r (d.vfAt 8 (2 ^ 34 - 16)) 16).toOption.isSome = true ∧
     d.piecesPoisoned ((d.translate 7 .r (d.vfAt 8 (2 ^ 34 - 16)) 16).toOption.getD []) = false) ∧
    (let d := vfDev 0x3FFF
     d.vfCtx 8 = some 7 ∧ (d.translate 7 .w (d.vfAt 8 0) 16).toOption.isNone = true) ∧
    (regDomain Reg.HIF_LINK = 24 ∧ regDomain Reg.FAB_NODE ≠ 24 ∧ (1 : Nat) ≤ 7 ∧ 16 ∈ [1, 2, 4, 8, 16]) := by decide +kernel

/-- A message on target 15. -/
def msg (kind tries : Nat) (sent : Bool) : NetMsg :=
  { kind := kind, ctx := 0, addr := 0, data := [1], len := 4, psn := 9, pkts := 1, sent := sent, tries := tries }

/-- Target 15 with messages, at a time, and a restore. -/
def qpDev (now : Nat) (ms : List NetMsg) : Dev :=
  { onDev with qps := [(15, { msgs := ms })], time := BitVec.ofNat 64 now,
               restore := some { ctx := 0, tgt := 15, off := 0, man := List.replicate 64 0 } }

/-- A write of 16 bytes at 0 to ingest region 15, with its PSN and key. -/
def rdma1 (psn rkey : Nat) : Rdma := { port := 1, qp := 0x2F, pkey := 0xFFFF, psn := psn, rkey := rkey, addr := 0, data := List.replicate 16 1 }

/-- Region 15 of port 1 over HBM from 0, valid for context 0, which runs; the link of port 1 is up, ingest is a client, one Cabinet pool of
4,096 bytes at 0x4000, sync object 5 owned. -/
def ingDev : Dev :=
  let d : Dev := { inPlan .running segPlan with
    objs := [(5, { owned := true, ctx := 0 })]
    mem := (leBytes 8 (linkWord 1 0 0)).mapIdx fun i b => (0x40000 + i, b) }
  setRegs d [(Reg.NET_P_STATUS 1, 1), (Reg.NET_ING_W 15 0, 3 + 8 * 2 ^ 32), (Reg.NET_ING_W 15 2, 16), (Reg.CAB_CTX_CFG 0, 1 + 2 ^ 27),
    (Reg.CAB_CTX_P_BASE 0 0, 0x40000 + 12 * 2 ^ 48), (Reg.CAB_CTX_P_STATE 0 0, 2 + 2 * 2 ^ 32)]

set_option maxRecDepth 100000 in
theorem witness_NetworkPorts :
    (onDev.refusal .host (Reg.NET_TGT_W 15 0 + 0x38) true = none ∧ onDev.tgtBusy 15 = false ∧ tgtReserved (onDev.staged8 (Reg.NET_TGT_W 15 0) 0) = false ∧
     (qpDev 0 [msg 0 0 true]).tgtBusy 15 = true ∧ (qpDev 0 [msg 0 0 true]).refusal .host (Reg.NET_TGT_W 15 0 + 0x38) true = none ∧
     tgtReserved (onDev.staged8 (Reg.NET_TGT_W 15 0) 1) = true) ∧
    (onDev.refusal .host (Reg.NET_ING_W 15 0 + 0x38) true = none ∧ ingReserved (onDev.staged8 (Reg.NET_ING_W 15 0) 0) = false ∧
     onDev.ingBusy 15 = false ∧ ({ onDev with netWait := [(rdma1 0 8, none)] } : Dev).ingBusy 15 = true ∧
     ({ onDev with netWait := [(rdma1 0 8, none)] } : Dev).refusal .host (Reg.NET_ING_W 15 0 + 0x38) true = none ∧
     ingReserved (onDev.staged8 (Reg.NET_ING_W 15 0) (BitVec.allOnes 64)) = true) ∧
    (onDev.domOn 23 = true ∧ onDev.tablesWf = true ∧ ingDev.netUp 1 = true ∧ (7 : Nat) < 8 ∧ (31 : Nat) < 32) ∧
    (let d := ingDev
     let b := d.ing 15
     d.ingOf (rdma1 0 8) = some 15 ∧ d.ingOf (rdma1 1 8) = some 15 ∧ d.ingOf (rdma1 0 9) = some 15 ∧ (d.qp 31).psn = 0 ∧
     bitsOf (atLe b 0 1) 0 1 = 1 ∧ 8 = atLe b 4 4 ∧ 9 ≠ atLe b 4 4 ∧ atLe b 8 8 ≤ 0 ∧ 0 + (rdma1 0 8).data.length ≤ atLe b 8 8 + atLe b 0x10 8 ∧
     atLe b 1 1 = 0 ∧ (d.ctx 0).state = .running ∧ (d.translate 0 .iw 0 16).toOption.isSome = true ∧ d.cabOn 0 11 = true ∧
     (d.cabAlloc 0 11 (min (max 16 1) 4096) 11).1.isSome = true ∧ d.immOk 0 (2 ^ 16 + 5) 16 = true ∧ d.ingBusy 15 = false ∧
     (let e : Dev := { d with netWait := [(rdma1 0 8, none)] }
      e.ingOf (rdma1 0 8) = some 15 ∧ e.ingBusy 15 = true) ∧
     (let e := d.setReg (Reg.CAB_CTX_P_STATE 0 0) (2 <<< 32)
      e.ingOf (rdma1 0 8) = some 15 ∧ e.ingBusy 15 = false ∧ (e.translate 0 .iw 0 16).toOption.isSome = true ∧ e.cabOn 0 11 = true ∧
      e.cabPick 0 11 16 = none)) ∧
    (((qpDev 0 [msg 0 0 true]).qp 15).msgs = [msg 0 0 true] ∧ (msg 0 0 true).sent = true ∧ ((qpDev 0 [msg 0 0 false]).qp 15).msgs = [msg 0 0 false] ∧
     (msg 0 0 false).sent = false ∧ (msg 0 7 true).at_ + 12800000 ≤ (qpDev 12800000 [msg 0 7 true]).time.toNat ∧ 7 ≤ (msg 0 7 true).tries ∧
     (msg 0 6 true).tries < 7 ∧ ackedBy 8 ((qpDev 0 [msg 0 0 true]).qp 15).msgs = [] ∧
     ackedBy 9 ((qpDev 0 [msg 0 0 true]).qp 15).msgs = [msg 0 0 true]) ∧
    (let d := qpDev 0 [msg 3 0 true]
     d.restore.any (fun r => r.tgt == 15 && r.out == none && r.man.length == 64) = true ∧ (d.qp 15).msgs = [msg 3 0 true] ∧ (msg 3 0 true).kind = 3 ∧
     (msg 3 0 true).len = ([1, 2, 3, 4] : Bytes).length) := by decide +kernel

/-- A management message at port 31 from the fabric manager, node 17. -/
def mgmt1 (code : Nat) : Packet :=
  pk 31 { ty := 0x18, vc := 0, src := 17, pkey := 0xFFFF, len := 2 } (leBytes 4 code ++ leBytes 4 2 ++ leBytes 8 0 ++ List.replicate 16 0)

/-- An identity memory write of block 64 by a message on the DOE. -/
def idm1 : IdmAcc := { by_ := 0, path := some 2, block := 64, data := some [1] }

/-- The Bureau runs from slot 0, its fabric manager is node 17, and the I3C bus has a status. -/
def mgtDev (i3c : Nat) (a : Aon) : Dev :=
  { (setRegs onDev [(Reg.BUR_FM, 17), (Reg.MGT_I3C_STATUS, i3c)]).setPort 31 2 with boot := { slot := some 0 }, aon := a }

set_option maxRecDepth 100000 in
theorem witness_ManagementRequests :
    ((2 : Nat) < 3 ∧ (65535 : Nat) < 65536 ∧ (8 : Nat) ≤ 8) ∧
    (let d := mgtDev 0 {}
     d.aon.upd = none ∧ d.boot.slot = some 0 ∧ d.boot.slot ≠ some 1 ∧ (1 : Nat) < 2 ∧ d.aon.idmQ = [] ∧ (1023 : Nat) < 1024 ∧ idmWritable 0 63 = false) ∧
    (let d := mgtDev 0 { upd := some (1, false) }
     d.aon.upd = some (1, false) ∧ d.boot.slot ≠ some 1 ∧ 2 ^ 24 - 1 + ([0] : Bytes).length ≤ 2 ^ 24) ∧
    (let d := mgtDev 0 { upd := some (1, true) }
     d.aon.upd = some (1, true) ∧ d.domOn 26 = true) ∧
    (let d := mgtDev 0 { idmQ := [idm1] }
     d.aon.idmQ = idm1 :: [] ∧ idm1.data = some [1] ∧ idm1.path = some 2) ∧
    (let d := mgtDev 0 {}
     let e := d.setFld Reg.MGT_IDM_CMD 16 2 3
     e.refusal .host Reg.MGT_IDM_CMD true = none ∧ e.fld Reg.MGT_IDM_CMD 16 2 = 3 ∧ d.refusal .bureau Reg.MGT_IDM_CMD true = none ∧
     d.fld Reg.MGT_IDM_CMD 16 2 ≠ 3 ∧ fieldOf ((127 : Word) ||| 0x3000) 0 10 = 127 ∧ d.refusal .host Reg.MGT_IDM_CMD true = none ∧
     d.aon.idmQ = [] ∧ idmWritable (idmWho .bureau) (fieldOf (191 : Word) 0 10) = true ∧ idmWritable (idmWho .host) (fieldOf (1023 : Word) 0 10) = true) ∧
    ((mgtDev 0 {}).i3cFailed = false ∧ (mgtDev 0 {}).fld Reg.MGT_I3C_STATUS 0 2 = 0 ∧ (mgtDev 1 {}).fld Reg.MGT_I3C_STATUS 0 2 = 1 ∧
     (mgtDev 6 {}).fld Reg.MGT_I3C_STATUS 0 2 = 2 ∧ (mgtDev 6 {}).fld Reg.MGT_I3C_STATUS 2 2 = 1 ∧
     (mgtDev 10 {}).fld Reg.MGT_I3C_STATUS 0 2 = 2 ∧ (mgtDev 10 {}).fld Reg.MGT_I3C_STATUS 2 2 = 2 ∧
     (mgtDev 15 {}).i3cFailed = true ∧ (mgtDev 15 {}).refusal .host Reg.MGT_I3C_CTRL true = none) ∧
    ([3, 5].all fun c =>
      let d := mgtDev 0 {}
      d.takesHere (mgmt1 c) 0x18 && !(d.held (mgmt1 c)).bad && d.boot.slot.isSome && atLe (d.held (mgmt1 c)).pay 0 1 == c &&
      (d.held (mgmt1 c)).hdr.src == d.fld Reg.BUR_FM 0 16) = true := by decide +kernel


/-! ### Witnesses: reset, power-up and power -/

/-- Bytes from an address on, as cells of a non-volatile memory. -/
def cellsAt (a : Nat) (bs : Bytes) : SMap Byte := (upFrom a bs.length).zip bs

theorem mapGet_cellsAt (bs : Bytes) : ∀ (a : Nat) (pre : SMap Byte), (∀ e ∈ pre, e.1 < a) →
    (upFrom a bs.length).map (mapGet (fun _ => (0 : Byte)) (pre ++ cellsAt a bs)) = bs := by
  induction bs with
  | nil => intros; rfl
  | cons b t ih =>
    intro a pre h
    have skip : ∀ (p : SMap Byte), (∀ e ∈ p, e.1 < a) → mapFind (p ++ cellsAt a (b :: t)) a = some b := by
      intro p
      induction p with
      | nil => intro _; simp [cellsAt, upFrom, mapFind]
      | cons e p ihp =>
        intro hp
        have := hp e (by simp)
        simp only [List.cons_append, mapFind]
        rw [if_neg (by omega)]
        exact ihp fun k hk => hp k (by simp [hk])
    have rest := ih (a + 1) (pre ++ [(a, b)]) (by
      intro e he
      rcases List.mem_append.mp he with he | he
      · exact Nat.lt_succ_of_lt (h e he)
      · simp at he; simp [he])
    simp only [List.length_cons, upFrom, List.map_cons, mapGet, skip pre h, Option.getD_some]
    congr 1
    simpa [cellsAt, upFrom] using rest

theorem nvGet_cellsAt (a : Nat) (bs : Bytes) : nvGet (cellsAt a bs) a bs.length = bs := mapGet_cellsAt bs a [] (by simp)

theorem upFrom_append (n k : Nat) : ∀ a, upFrom a (n + k) = upFrom a n ++ upFrom (a + n) k := by
  induction n with
  | zero => simp [upFrom]
  | succ n ih =>
    intro a
    rw [show n + 1 + k = n + k + 1 by omega]
    simp only [upFrom, ih, List.cons_append]
    rw [show a + 1 + n = a + (n + 1) by omega]

/-- A signing key. -/
def fwKey : Bytes :=
  [4] ++ beBytes 48 0x9bf01b50f0203e9a29dbddbbbfa0d038119aecfec506e66040353ee734d7cfbbab38fc0f8bc9df6f54a396bd31719ac5 ++
    beBytes 48 0xa35d04a878bb639812a85459694eedea5c281b9b95c5cbb7ed44044455a5ee9d671dcc94f3fa1e898df2c5ffc0a19162

/-- The signed part of the header of a slot with the image [1], and its signature. -/
def fwSigned : Bytes :=
  leBytes 4 0x57464E43 ++ [1, 0, 0, 0] ++ leBytes 4 1 ++ [0, 1, 0, 1, 0] ++ List.replicate 15 0 ++ sha384 [1] ++ fwKey ++ List.replicate 15 0 ++
    beBytes 48 0x917bd43c97d3bfbd2cf56042579d745ec86d8d0bf349355a7dbf65f1d0c4b7e0c58c22364cad4567b3feb06a064cf214 ++
    beBytes 48 0x4b3a5e05309d3c100304136f96ab6591daf5e1a0fa4d689b146b02a2a015429efa197b931812c64a700c45c703c32127

/-- The header of that slot. -/
def fwHead : Bytes := fwSigned ++ List.replicate 3808 0

/-- A package at a stage of the sequence, with a slot that holds that header and image, and AON_FW_CTRL as given. -/
def fwDev (stage fw : Nat) (slot : Option Nat) : Dev :=
  { onDev.setReg Reg.AON_FW_CTRL (BitVec.ofNat 64 fw) with
    boot := { stage := stage, perst := false }
    nv := { fw := match slot with | some s => cellsAt (s * 2 ^ 24) (fwHead ++ [1]) | none => [], rootHash := sha384 fwKey } }

theorem fwHead_length : fwHead.length = 4096 := by decide +kernel

theorem slotBytes_fwDev (stage fw s : Nat) :
    (fwDev stage fw (some s)).slotBytes s 0 4096 = fwHead ∧ (fwDev stage fw (some s)).slotBytes s 0x1000 1 = [1] := by
  have h := nvGet_cellsAt (s * 2 ^ 24) (fwHead ++ [1])
  rw [List.length_append, fwHead_length, nvGet, upFrom_append, List.map_append] at h
  have inj := List.append_inj h (by rw [List.length_map, upFrom_length, fwHead_length])
  have e : (fwDev stage fw (some s)).nv.fw = cellsAt (s * 2 ^ 24) (fwHead ++ [1]) := by simp only [fwDev]
  simp only [Dev.slotBytes, nvGet, e, Nat.add_zero]
  exact inj

set_option maxRecDepth 100000 in
theorem header_ok :
    (atLe fwHead 0 4 == 0x57464E43 && decide (atLe fwHead 7 1 < 2) && zeroAt fwHead 0x11 15 && zeroAt fwHead 0xB1 15 &&
      zeroAt fwHead 0x120 3808 && decide (1 ≤ atLe fwHead 8 4) && decide (atLe fwHead 8 4 ≤ 16773120) &&
      sha384 ((fwHead.drop 0x50).take 97) == sha384 fwKey &&
      ecdsaOk ((fwHead.drop 0x50).take 97) ((fwHead.drop 0xC0).take 96) (sha384 (fwHead.take 0xC0)) &&
      decide (0 ≤ atLe fwHead 0xC 1) && decide (atLe fwHead 0xC 1 ≤ 63) && atLe fwHead 8 4 == 1 && sha384 [1] == (fwHead.drop 0x20).take 48) =
    true := by decide +kernel

theorem slotValid_fwDev (stage fw s : Nat) (h : (fwDev stage fw (some s)).svnFused = 0) : (fwDev stage fw (some s)).slotValid s = true := by
  have ok := header_ok
  simp only [Bool.and_eq_true, beq_iff_eq] at ok
  obtain ⟨⟨ok, one⟩, hash⟩ := ok
  have b := slotBytes_fwDev stage fw s
  have root : (fwDev stage fw (some s)).nv.rootHash = sha384 fwKey := by simp only [fwDev]
  simp only [Dev.slotValid, b.1, one, b.2, h, root, Bool.and_eq_true, beq_iff_eq]
  rw [one] at ok
  simp only [hash, and_true]
  exact ⟨⟨⟨⟨⟨⟨⟨⟨⟨⟨⟨rfl, ok.1.1.1.1.1.1.1.1.1.1⟩, ok.1.1.1.1.1.1.1.1.1.2⟩, ok.1.1.1.1.1.1.1.1.2⟩, ok.1.1.1.1.1.1.1.2⟩, ok.1.1.1.1.1.1.2⟩,
    ok.1.1.1.1.1.2⟩, ok.1.1.1.1.2⟩, ok.1.1.1.2⟩, ok.1.1.2⟩, ok.1.2⟩, ok.2⟩

/-- A package that is powered, with a part of its boot state. -/
def bootDev (b : Boot) : Dev := { onDev with boot := b }

/-- That package with sensor 33 at a temperature in sixteenths of a degree. -/
def atTemp (d : Dev) (t : Nat) : Dev := d.setFld (Reg.AON_TEMP 8) 16 16 t

set_option maxRecDepth 100000 in
theorem witness_PowerUp_slots :
    ([(fwDev 3 0 (some 0)), (fwDev 3 2 (some 1)), (fwDev 3 0 (some 1)), (fwDev 3 0 none)].all fun d =>
      d.boot.stage == 3 && !d.boot.restart && d.domOn 26 && d.tablesWf && d.fwActive == 0 && d.svnFused == 0) = true ∧
    ((fwDev 3 0 (some 0)).bit Reg.AON_FW_CTRL 1 = false ∧ (fwDev 3 0 (some 0)).slotValid 0 = true) ∧
    ((fwDev 3 2 (some 1)).bit Reg.AON_FW_CTRL 1 = true ∧ (fwDev 3 2 (some 1)).slotValid (1 - 0) = true) ∧
    ((fwDev 3 0 (some 1)).bit Reg.AON_FW_CTRL 1 = false ∧ (fwDev 3 0 (some 1)).slotValid 0 = false ∧
     (fwDev 3 0 (some 1)).slotValid (1 - 0) = true) ∧
    ((fwDev 3 0 none).slotValid 0 = false ∧ (fwDev 3 0 none).slotValid 1 = false) := by
  refine ⟨by decide +kernel, ⟨by decide +kernel, slotValid_fwDev 3 0 0 (by decide +kernel)⟩,
    ⟨by decide +kernel, slotValid_fwDev 3 2 1 (by decide +kernel)⟩,
    ⟨by decide +kernel, by decide +kernel, slotValid_fwDev 3 0 1 (by decide +kernel)⟩, by decide +kernel, by decide +kernel⟩

set_option maxRecDepth 100000 in
theorem witness_PowerUp :
    ((bootDev { pwrGood := false }).boot.pwrGood = false ∧ (bootDev {}).boot.pwrGood = true) ∧
    ((bootDev { perst := false }).boot.perst = false ∧ ({ bootDev { perst := false } with boot := { perst := true } } : Dev).anyAt 85 = false ∧
     (let d := atTemp (bootDev { perst := false }) 1360
      d.boot.perst = false ∧ ({ d with boot := { d.boot with perst := true } } : Dev).anyAt 85 = true)) ∧
    ((bootDev {}).tablesWf = true ∧ (26 : Nat) < 27 ∧ (bootDev {}).boot.perst = true ∧ (bootDev {}).boot.coldWait = false ∧
     (bootDev { coldWait := true }).boot.coldWait = true) ∧
    ((bootDev { stage := 1 }).boot.stage = 1 ∧ (bootDev { stage := 1 }).boot.pwrGood = true) ∧
    ((bootDev { stage := 2 }).boot.stage = 2 ∧ (bootDev { stage := 2 }).nv.repair = [] ∧ (bootDev { stage := 2 }).tablesWf = true ∧
     (127 : Nat) < 128) ∧
    ((bootDev { stage := 4 }).boot.stage = 4 ∧ (bootDev { stage := 4 }).nv.repair = [] ∧ (bootDev { stage := 4 }).tablesWf = true ∧
     (bootDev { stage := 4 }).bit Reg.AON_THERM 16 = false) ∧
    (let d : Dev := { bootDev { stage := 6 } with nv := { idm := [(4098, 4)] } }
     d.boot.stage = 6 ∧ d.nv.repair = [] ∧ d.tablesWf = true ∧ leNat (nvGet d.nv.idm 4098 1) = 4 ∧ leNat (nvGet d.nv.idm 4099 1) ≠ 1) ∧
    (let e := fun (st n : Nat) => ((bootDev { stage := st, rising := [n] }).domUp n).endRise n
     ([(8, 26), (8, 25), (5, 20), (7, 25)].all fun p => (bootDev { stage := p.1, rising := [p.2] }).boot.rising.contains p.2 && p.2 != 21 && p.2 != 22 &&
        (e p.1 p.2).boot.stage == p.1) = true ∧
     (∀ k ∈ upFrom 0 16 ++ [20], (e 5 20).domOn k = true) ∧ (∀ k ∈ [18, 19, 23, 25], (e 7 25).domOn k = true) ∧
     (e 7 25).boot.restart = false) ∧
    ((regAt Reg.FAB_TIMEOUT).any (fun r => regDomain Reg.FAB_TIMEOUT == 21 && r.w1s == 0 && r.w1c == 0 && r.rw != 0) = true ∧ onDev.tablesWf = true) ∧
    (onDev.refusal .host Reg.AON_FW_CTRL true = none ∧ onDev.refusal .bureau Reg.AON_FW_CTRL true = none ∧ Master.host ≠ .bureau ∧
     fieldOf ((0xA0000 : Word) ||| 0x10) 16 16 = 10 ∧ fieldOf ((0xE100000 : Word) ||| 0x10) 16 16 = 3600 ∧
     (bootDev { slot := some 1 }).boot.slot = some 1 ∧ (bootDev { slot := some 1 }).refusal .bureau Reg.AON_FW_CTRL true = none ∧
     (bootDev { slot := some 1 }).tablesWf = true) ∧
    (let d : Dev := { (bootDev { slot := some 1 }).setBit Reg.AON_FW_CTRL 2 true with time := BitVec.ofNat 64 (2 ^ 63) }
     d.boot.slot = some 1 ∧ d.bit Reg.AON_FW_CTRL 2 = true ∧ d.boot.released + d.fld Reg.AON_FW_CTRL 16 16 * 1600000000 ≤ d.time.toNat) ∧
    (onDev.domOn 26 = true ∧ ((inState .running).ctx 0).state.active = true ∧ (inState .running).tablesWf = true) ∧
    (let d : Dev := { inState .running with objs := [(65535, { owned := true })], trks := [(262143, { kind := 1, state := 3 })] }
     d.domOn 21 = true ∧ (d.obj 65535).owned = true ∧ (d.obj 0).owned = false ∧ (d.trk 262143).state ≠ 0 ∧ (d.trk 0).state = 0 ∧
     d.tablesWf = true) ∧
    (let d := (inState .loaded).setFld (Reg.CAB_CTX_P_STATE 0 7) 32 15 16384
     d.domOn 21 = true ∧ (16383 : Nat) < d.fld (Reg.CAB_CTX_P_STATE 0 7) 32 15 ∧ d.loaded 0 = true) ∧
    (let d := (inState .loaded).setReg (Reg.DRS_CTX_BIAS 0) (65535 + 1 * 2 ^ 32)
     d.domOn 20 = true ∧ d.biasOwner 65535 = some 0) ∧
    (inState .running).domOn (127 / 8) = true := by decide +kernel

/-- The package with the operation of the always-on controller in progress, at time 2^63. -/
def opDev (c : CtxState) (o : AonOp) : Dev := { inState c with aon := { op := some o }, time := BitVec.ofNat 64 (2 ^ 63) }

set_option maxRecDepth 100000 in
theorem witness_PowerControl_commands :
    (let ctl := fun (m : Word) (d : Dev) (w : Word) =>
        (d.plainWrite Reg.PWR_DOMAIN_CTRL (w ||| m)).domCode (fieldOf (w ||| m) 0 5) (bitOf (w ||| m) 8) (bitOf (w ||| m) 9) (bitOf (w ||| m) 10)
     let off := onDev.setBit Reg.PWR_DOMAIN_STATUS 25 false
     onDev.refusal .host Reg.PWR_DOMAIN_CTRL true = none ∧ onDev.bit Reg.PWR_DOMAIN_STATUS 28 = false ∧
     (onDev.setBit Reg.PWR_DOMAIN_STATUS 28 true).refusal .host Reg.PWR_DOMAIN_CTRL true = none ∧
     (onDev.setBit Reg.PWR_DOMAIN_STATUS 28 true).bit Reg.PWR_DOMAIN_STATUS 28 = true ∧
     ctl 0x100 onDev 25 = 0 ∧ ctl 0x100 onDev 24 ≠ 0 ∧ off.refusal .host Reg.PWR_DOMAIN_CTRL true = none ∧ ctl 0x200 off 25 = 0 ∧
     off.bit Reg.PWR_DOMAIN_STATUS 28 = false ∧ off.domOn 25 = false ∧ ctl 0x400 onDev 25 = 0 ∧ onDev.domOn 25 = true) ∧
    ((inState .running).domHeld 0 = true ∧ onDev.domHeld 16 = false ∧ prereq 0 = some 16 ∧ onDev.domOn 0 = true ∧ prereq 7 = some 16 ∧
     (onDev.setBit Reg.PWR_DOMAIN_STATUS 16 false).domOn 16 = false) ∧
    (onDev.refusal .host Reg.AON_OP true = none ∧ onDev.refusal .bureau Reg.AON_OP true = none ∧ Master.bureau ≠ .host ∧
     (onDev.setBit Reg.AON_OP_STATUS 16 true).refusal .bureau Reg.AON_OP true = none ∧ (onDev.setBit Reg.AON_OP_STATUS 16 true).bit Reg.AON_OP_STATUS 16 = true ∧
     onDev.bit Reg.AON_OP_STATUS 16 = false ∧ (inState .running).refusal .bureau Reg.AON_OP true = none ∧
     (inState .running).bit Reg.AON_OP_STATUS 16 = false ∧ ((inState .running).ctx 0).state.active = true ∧
     (let b := fun (op : Nat) => ((onDev.setFld Reg.AON_OP_STATUS 0 8 op).setFld Reg.AON_OP_STATUS 8 8 0).setBit Reg.AON_OP_STATUS 16 true
      prereq 0 = some 16 ∧ (b 6).domOn 16 = true ∧ (b 6).bit Reg.AON_THERM 16 = false ∧ (b 9).anyAt 85 = false)) ∧
    (onDev.tablesWf = true ∧ (26 : Nat) < 27) ∧
    (let done : AonOp := { op := 7, arg := 0, code := 0, since := 0 }
     let runs : AonOp := { op := 1, arg := 0, code := 0, since := 0 }
     (opDev .running done).aon.op = some done ∧ (opDev .running done).aonEnded done = true ∧ (opDev .frozen runs).aon.op = some runs ∧
     (opDev .frozen runs).aonEnded runs = false ∧ (opDev .frozen runs).loaded 0 = true ∧
     runs.since + 160000000 ≤ (opDev .frozen runs).time.toNat) := by decide +kernel

set_option maxRecDepth 100000 in
theorem witness_PowerControl_sensors :
    (onDev.refusal .bureau Reg.AON_MR_EXTC true = none ∧ 3 ≤ fieldOf ((7 : Word) ||| 8) 0 3 ∧ fieldOf ((2 : Word) ||| 8) 0 3 < 3) ∧
    ((onDev.setBit Reg.PWR_CLK 29 true).braked = true) ∧
    (let hot := fun (t : Nat) => List.replicate 33 0 ++ [t]
     onDev.aon.hots = [] ∧ onDev.boot.coldWait = false ∧ (∀ k, k < 34 → toSigned 16 ((hot 1679).getD k 0) < 1680) ∧
     1680 ≤ toSigned 16 ((hot 1680).getD 33 0) ∧ onDev.bit Reg.AON_THERM 16 = false ∧
     ({ onDev with aon := { hots := [(33, 3)] } } : Dev).aon.hots = [(33, 3)]) ∧
    (({ onDev with hubLocked := true } : Dev).hubLocked = true ∧ onDev.hubLocked = false ∧ 2 ≤ (bootDev { stage := 2 }).boot.stage ∧
     ({ onDev with plls := [(15, .locked)] } : Dev).pll 15 = .locked) ∧
    (let d : Dev := { bootDev { slot := some 0 } with time := BitVec.ofNat 64 (2 ^ 63) }
     let e := d.setFld Reg.BUR_FM 32 16 65535
     0 < e.fld Reg.BUR_FM 32 16 ∧ e.boot.slot.isSome = true ∧ e.aon.telLast + e.fld Reg.BUR_FM 32 16 * 1600000 ≤ e.time.toNat) ∧
    (let a := 0x200000000000
     inHbm 0 1 = true ∧ inSpad a 1 = true ∧ scrubWindow a = (3, 0) ∧ ({ onDev with windows := [(48, true)], time := 32768 } : Dev).windowOpen 3 0 = true ∧
     onDev.windowOpen 3 0 = false) := by decide +kernel


/-! ### The worked examples of the spec, and check values of the standards it names -/

/-- The state after one step that runs a command, where it answers a next state. -/
def after (c : Instr) (d : Dev) : Option Dev :=
  match step { dev := d, pending := [c] } with
  | .next s => if s.pending.isEmpty then some s.dev else none
  | _ => none

/-- Cluster 0 with S2 = 5 and S4 = 3. -/
def regDev : Dev := { runDev with seqs := [(0, (({} : SeqRegs).setS 2 5).setS 4 3)] }

/-- An empty queue: one hub cycle of Trestle time (log entry 2). -/
theorem test_idle : (match step State.reset with | .next s => s.pending == [] && s.dev.csr == State.reset.dev.csr | _ => false) = true := by decide +kernel

/-- 03_sequencer_isa, worked example: the S slot 0x0084_2FFF is s.addi s2, s2, -1. -/
theorem test_addi_example :
    ((after (.sAddi (sl (BitVec.ofNat 22 0x00842FFF))) regDev).map fun d => (d.seqr 0 0).sr 2) = some 4 := by decide +kernel

/-- 03_sequencer_isa, worked example: the X slot 0x0104_0101 waits for object 0x0101 to reach S4. -/
theorem test_wait_example :
    ((after (.syncWait (sl (BitVec.ofNat 22 0x01040101))) { regDev with objs := [(0x101, { owned := true, ctx := 0 })] }).map fun d =>
      (d.clu 0).wait) = some (some (0x101, 3)) := by decide +kernel

/-- 01_architecture and 15_reliability_checkpoint, worked examples: cluster 77. -/
theorem test_cluster_77 :
    spadAddr 77 (5 * 0x100000) = 0x20004D500000 ∧ spareMap [77] 1 = 13 + 16 ∧
    ((after (.clusterBistDone [77]) { onDev with boot := { stage := 2 } }).map fun d => (d.reg (Reg.BUR_SPARE_MAP 1), d.bit Reg.AON_RAS_STATUS 4)) =
      some (29, true) := by decide +kernel

/-- 04_dresser, worked example: profile E = 8, k = 2, NORM_TOPK, and the scores of token 7. -/
def example4 : Bytes := leBytes 2 7 ++ [2, 2, 0, 0, 0, 0] ++ leBytes 4 0x3F800000 ++ List.replicate 116 0

/-- Its scores, canonical. -/
def scores4 : List Nat := [0x3DCCCCCD, 0x3F800000, 0xC0000000, 0x40200000, 0, 0x40200000, 0x40000000, 0x7FC00000].map canonScore

/-- Its keys with a bias of expert 6. -/
def keys4 (bias : Nat) : List Nat := scores4.mapIdx fun i k => if i = 6 then fadd k bias else k

set_option maxRecDepth 100000 in
theorem test_selection_example :
    selectExperts example4 (keys4 0x3F000000) = [3, 5] ∧ gateWeights example4 scores4 [3, 5] = ([0x3F000000, 0x3F000000], false) ∧
    selectExperts example4 (keys4 0x3F000004) = [6, 3] := by decide +kernel

/-- 04_dresser, worked examples of expert 9 and of expert 17. -/
theorem test_rank_counts :
    (rankCount 12 0 2, rankCount 9 0 2, rankCount 12 1 2, rankCount 9 1 2, rankCount 10 0 2, rankCount 11 1 2, rankCount 98304 3 4) =
      (6, 5, 6, 4, 5, 5, 24576) := by decide

/-- 05_expert_exchange, worked example: the row is split at 4 KiB, and the tag of token 8, k-slot 1. -/
theorem test_dispatch_example :
    cutAt 4096 0x010000011680 4096 = [(0x010000011680, 2432), (0x010000012000, 1664)] ∧ leNat (drawerTag 0x0212 8 1) = 0x0000011000080212 := by
  decide +kernel

/-- A product of two MXFP8 E4M3 elements with block scales. -/
def prod6 (a sa b sb : Nat) : Option FVal := some ((mxVal 6 a sa).mul (mxVal 6 b sb))

/-- The addends of the worked example of 06_matrix_array. -/
def addends6 : List (Option FVal) := [prod6 0x39 0x57 0x3A 0x7F, prod6 0xB4 0x54 0x30 0x7F]

theorem test_ois_example :
    accOut 2 20 (accDot 2 20 (.num 0) addends6).1 = (0x2BA80000, false) ∧
    (let r := accDot 2 20 (.num 0) (addends6 ++ [prod6 0x7E 0xA7 0x7E 0x7F])
     r.2 = 1 ∧ accOut 2 20 r.1 = (0x59000000, true)) := by decide +kernel

/-- 08_vector_engine, worked example: 1 + 2^-9 to BF16 under SR, and the bound of r. -/
theorem test_sr_example :
    ([0xD1E30A52, 0x2B0799C4, 0xC0000000, 0xBFFFFFFF].map fun r => (fBF16.enc (.sr r) (fFP32.dec 0x3F804000)).1) =
      [0x3F81, 0x3F80, 0x3F81, 0x3F80] := by decide +kernel

/-- 11_nonex_fabric, worked example: the header of the first piece, its size and its port. -/
def hdr11 : Hdr :=
  { ty := 1, vc := 2, dst := 0x0211, src := 0x0212, pkey := 0x1234, job := 7, len := 152, sop := 3, sync := 0x0300, addr := 0x010000011680,
    seq := ({ trkGen := [(245900, 5)] } : Dev).tag 245900 }

theorem test_packet_example :
    ((upFrom 0 4).map fun i => atLe hdr11.bytes (8 * i) 8) = [0x1234021202110041, 0x0000030030980007, 0x0000010000011680, 0x000000000017C08C] ∧
    hdr11.wire = 155 ∧ (({} : Dev).setReg Reg.FAB_NODE 0x0212).benchPort 1 = 14 := by decide +kernel

/-- The member at a rank in the worked example of 12_collectives: ALLREDUCE SUM of FP32 on six members with q = 2. -/
def member12 (mode cfmt rank : Nat) : CollEnv :=
  { op := 0, mode := mode, rop := 0, ifmt := 2, ofmt := 2, cfmt := cfmt, w := 0, count := 4, root := 0, q := 2, rank := rank,
    nodes := [0, 1, 16, 17, 32, 33], ll := false }

/-- The input of a member there: elements 0 and 1, then two zeros. -/
def input12 (rank : Nat) : Bytes :=
  let v := [0x3F800000, 0x33800000, 0x33800000, 0, 0xBF800000, 0].getD rank 0
  leBytes 4 v ++ leBytes 4 v ++ leBytes 8 0

/-- The streams that member 0 receives there: its slice of member 1, and the carried values of the other benches. -/
def arrived12 (up1 up2 down : Nat) (w : Nat) : Arrived := fun f =>
  match f.src, f.phase with
  | 1, 0 => some (leBytes 4 0x33800000 ++ leBytes 4 0x33800000)
  | 16, 1 => some (leBytes w up1)
  | 32, 1 => some (leBytes w up2)
  | 16, 4 => some (leBytes w down)
  | 32, 4 => some (leBytes w down)
  | 1, 5 => some (leBytes 8 0)
  | _, _ => none

/-- Element 0 at member 0: tree 0 at its root, from the carried values of its children. -/
theorem test_tree_example :
    ([(0, 0, 4, 0x33800000, 0xBF800000), (1, 1, 2, 0x3380, 0xBF80)].map fun p =>
      ((member12 p.1 p.2.1 0).treeRoot (input12 0) (arrived12 p.2.2.2.1 p.2.2.2.2 0 p.2.2.1) 0).map fun bs =>
        (((member12 p.1 p.2.1 0).cIn 1 bs).map fun a => ((member12 p.1 p.2.1 0).out a).1)) =
      [some [0], some [0x34000000]] := by decide +kernel

/-- 14_contexts_faults, worked example: a PHBM segment over stacks 4 and 5. -/
theorem test_partition_example :
    phbm 0x30 0x200300 = 0x800D00 ∧ phbm 0x30 0x200400 = 0x801400 ∧ (hbmChannel 0x800D00).1 = 5 ∧ (hbmChannel 0x801400).1 = 4 := by decide

/-- The check value of CRC-32C and of CRC-64/ECMA-182 over the digits 1 to 9. -/
theorem test_crc_check :
    crc32c [0x31, 0x32, 0x33, 0x34, 0x35, 0x36, 0x37, 0x38, 0x39] = 0xE3069283 ∧
    crc64 [0x31, 0x32, 0x33, 0x34, 0x35, 0x36, 0x37, 0x38, 0x39] = 0x6C40DF5F0B497347 := by decide +kernel

/-- FIPS 180-4: the digests of the three letters abc. -/
theorem test_sha_abc :
    beNat (sha256 [0x61, 0x62, 0x63]) = 0xBA7816BF8F01CFEA414140DE5DAE2223B00361A396177A9CB410FF61F20015AD ∧
    beNat (sha384 [0x61, 0x62, 0x63]) =
      0xCB00753F45A35E8BB5A03D699AC65007272C32AB0EDED1631A8B605A43FF5BED8086072BA1E7CC2358BAECA134C825A7 := by decide +kernel

/-! ### Reset and single steps -/

/-- Reset (R828): some values of the register tables, and nothing held. -/
theorem test_reset :
    State.reset.dev.fld Reg.BUR_DEV_ID 0 32 = 0x01200720 ∧ State.reset.dev.mem = [] ∧ State.reset.dev.ctxs = [] ∧ State.reset.pending = [] ∧
    State.reset.dev.fld Reg.CHEST_CFG 0 16 = 512 := by decide +kernel

/-- A write of four bytes to a register is discarded and logged (R22). -/
theorem test_narrow_write :
    ((after (.csrWrite .host Reg.BUR_FM [1, 2, 3, 4]) onDev).map fun d => (d.reg Reg.BUR_FM, d.fld Reg.AON_LOG_STATUS 0 32)) =
      some (onDev.reg Reg.BUR_FM, 1) := by decide +kernel

/-- A write of eight bytes to BUR_FM: FM_NODE is little-endian (R20). -/
theorem test_write_of_a_register :
    ((after (.csrWrite .host Reg.BUR_FM [1, 2, 3, 4, 5, 0, 0, 0]) onDev).map fun d => d.fld Reg.BUR_FM 0 16) = some 0x0201 := by decide +kernel


/-- After the worked example of R509 to R511: a vx.stt in cluster 12 loses words of the row that DIN wrote in the same cycle. -/
theorem test_lost_words :
    (let a := spadAddr 12 0x400100
     let e := ({} : Dev).write a (List.replicate 16 1)
     let f := (e.write a (List.replicate 24 2)).loseWords e (fun _ => 3) (fun w => decide (a ≤ w) && decide (w < a + 24)) [(a, 4), (a + 8, 4)]
     [f.byte a, f.byte (a + 15), f.byte (a + 16)] == [1, 1, 2] && f.reg (Reg.SEQ_SPM_LOST 12) == 0xC001000008 &&
       f.reg (Reg.SEQ_SPM_LOSTCNT 12) == 2) = true := by decide +kernel

end Sys2Proof.Tests
end

namespace Sys2Proof.Machine

/-! ## Division (R164, R165) -/

theorem divS_zero (a : Word) : divS a 0 = BitVec.allOnes 64 := if_pos rfl
theorem divU_zero (a : Word) : divU a 0 = BitVec.allOnes 64 := if_pos rfl
theorem remS_zero (a : Word) : remS a 0 = a := if_pos rfl
theorem remU_zero (a : Word) : remU a 0 = a := if_pos rfl

/-- The quotient 2^63 of the one signed overflow wraps round to the dividend. -/
theorem divS_overflow : divS (BitVec.intMin 64) (BitVec.allOnes 64) = BitVec.intMin 64 := by decide

theorem remS_overflow : remS (BitVec.intMin 64) (BitVec.allOnes 64) = 0 := by decide

theorem divU_eq_udiv (a b : Word) (hb : b ≠ 0) : divU a b = a / b := by
  rw [divU, if_neg hb, BitVec.udiv_def]

theorem remU_eq_umod (a b : Word) (hb : b ≠ 0) : remU a b = a % b := by
  rw [remU, if_neg hb, BitVec.umod_def]

/-- Unsigned division with remainder: a = q · b + r with r below b. -/
theorem divU_remU_euclid (a b : Word) (hb : b ≠ 0) :
    a.toNat = (divU a b).toNat * b.toNat + (remU a b).toNat ∧ (remU a b).toNat < b.toNat := by
  rw [divU_eq_udiv a b hb, remU_eq_umod a b hb, BitVec.toNat_udiv, BitVec.toNat_umod]
  have hpos : 0 < b.toNat := Nat.pos_of_ne_zero fun h => hb (BitVec.eq_of_toNat_eq h)
  exact ⟨(Nat.div_add_mod' a.toNat b.toNat).symm, Nat.mod_lt _ hpos⟩

/-- Settles O10: the zero divisor by the guards of the four functions, the overflow by their values on it, and every other unsigned
division by Euclid's equation. -/
theorem divisionSpecialCases : Obligations.DivisionSpecialCases := by
  unfold Obligations.DivisionSpecialCases
  refine ⟨fun a => ?zeroDivisor, ?quotient, ?remainder, fun a b hb => ?unsigned⟩
  case zeroDivisor =>
    exact ⟨congrArg some (divS_zero a), congrArg some (divU_zero a), congrArg some (remS_zero a), congrArg some (remU_zero a)⟩
  case quotient => exact congrArg some divS_overflow
  case remainder => exact congrArg some remS_overflow
  case unsigned => exact ⟨divU a b, remU a b, rfl, rfl, divU_remU_euclid a b hb⟩

/-! ## Control transfers and loops (R173 to R178) -/

/-! ### The meaning of each command, before its tables settle -/

theorem after_sBr (d : Dev) (a : Slot) : d.after (.sBr a) =
    (d.sSlot a 0x16 false fun x r => d.branchTo x a.cl (jmpTarget r a) []).settle := rfl

theorem after_sCall (d : Dev) (a : Slot) : d.after (.sCall a) =
    (d.sSlot a 0x17 false fun x r =>
      d.branchTo x a.cl (jmpTarget r a) [.setS 31 (BitVec.ofNat 64 (r.pc + 16))]).settle := rfl

theorem after_sJr (d : Dev) (a : Slot) : d.after (.sJr a) =
    (d.sSlot a 0x18 (opF a 0 17 != 0) fun x r => d.branchTo x a.cl (fieldOf (r.sr (opF a 17 5)) 0 32) []).settle := rfl

theorem after_sLoop (d : Dev) (a : Slot) : d.after (.sLoop a) =
    (d.sSlot a 0x19 (opF a 0 17 == 0) fun x r => openLoop (d.imageLen x a.cl) r a).settle := rfl

theorem after_sLpop (d : Dev) (a : Slot) : d.after (.sLpop a) =
    (d.sSlot a 0x1D (a.args != 0) fun _ r =>
      if r.loops.isEmpty then .error (.exc 7 r.pc 0) else .ok [.popLoop]).settle := rfl

theorem after_sNop (d : Dev) (a : Slot) (slot opc : Nat) : d.after (.sNop a slot opc) = (d.sNop a slot opc).settle := rfl

/-! ### PC and loop stack -/

/-- A taken control transfer leaves the loop stack (R178). -/
theorem nextPc_jump (pc t : Nat) (effs : List SlotEff) (loops : List LoopLevel) (h : jumpOf effs = some t) :
    nextPc pc effs loops = (t, loops) := by
  simp only [nextPc, h]

/-- An s.loop that skips its body in a bundle that ends no open level leaves the loop stack. -/
theorem nextPc_skip (pc t : Nat) (loops : List LoopLevel) (h : ∀ l ∈ loops, l.last ≠ pc) :
    nextPc pc [.skipTo t] loops = (t, loops) := by
  cases loops with
  | nil => rfl
  | cons l ls => simp [nextPc, jumpOf, skipOf, h l]

/-! ### Transfers -/

/-- A slot alone in its bundle whose effects neither stall, wait nor end the stream, though they may decide the next PC: the effects,
then the end of the bundle at the PC and loop stack that they give. -/
theorem Dev.slot_alone_control (d : Dev) (a : Slot) (ix opc : Nat) (tile : Option Nat)
    (work : Nat → SeqRegs → Except SlotFault (List SlotEff)) (effs : List SlotEff) (h : d.aloneOn a = true)
    (hw : work (d.slotCtx a) (d.slotRegs a) = .ok effs) (hk : issueOrder effs = effs)
    (hs : effs.any (d.stalls a.cl (d.slotCtx a)) = false)
    (hf : ∀ (e : Dev) (n : Nat), effs.foldl (Dev.finish a.cl (d.slotCtx a) (d.slotRegs a).pc n) e = e) :
    d.slot a ix opc false tile work =
      (let e := effs.foldl (Dev.applyEff a.cl (d.slotCtx a) (d.slotRegs a).pc) d
       e.bundleEnd a.cl (d.slotCtx a) (d.slotRegs a).pc
         (nextPc (d.slotRegs a).pc effs (e.seqr a.cl (d.slotCtx a)).loops) (jumpOf effs).isSome) := by
  rw [d.slot_alone_issue a ix opc tile work effs h hw, d.issueBundle_one _ _ _ _ _ _ (by rw [hk]; exact hs), hk]
  exact hf _ _

/-- A control transfer to a bundle of the image raises no BRANCH (R174). -/
theorem Dev.branchTo_ok (d : Dev) (x c t : Nat) (effs : List SlotEff) (h16 : t % 16 = 0) (hlen : t < d.imageLen x c) :
    d.branchTo x c t effs = .ok (effs ++ [.jump t]) := by
  simp [Dev.branchTo, h16, hlen]

/-- A slot alone in its bundle that transfers control to a bundle of the image and does nothing else. -/
theorem Dev.slot_alone_branch (d : Dev) (a : Slot) (opc t : Nat) (work : Nat → SeqRegs → Except SlotFault (List SlotEff))
    (h : d.aloneOn a = true) (hw : work (d.slotCtx a) (d.slotRegs a) = d.branchTo (d.slotCtx a) a.cl t [])
    (h16 : t % 16 = 0) (hlen : t < d.imageLen (d.slotCtx a) a.cl) :
    d.slot a 0 opc false none work =
      d.bundleEnd a.cl (d.slotCtx a) (d.slotRegs a).pc (t, (d.slotRegs a).loops) true :=
  d.slot_alone_control a 0 opc none work [.jump t] h (hw.trans (d.branchTo_ok _ _ t [] h16 hlen)) rfl rfl fun _ _ => rfl

section Transfers

variable (d : Dev) (a : Slot) (h : d.aloneOn a = true)
include h

theorem becomes_sBr (h16 : jmpTarget (d.slotRegs a) a % 16 = 0)
    (hlen : jmpTarget (d.slotRegs a) a < d.imageLen (d.slotCtx a) a.cl) :
    Becomes (.sBr a) d (d.bundleEnd a.cl (d.slotCtx a) (d.slotRegs a).pc
      (jmpTarget (d.slotRegs a) a, (d.slotRegs a).loops) true) :=
  becomes_of_after (after_sBr d a) (d.slot_alone_branch a 0x16 _ _ h rfl h16 hlen)

/-- s.call writes s31 before its bundle ends. -/
theorem becomes_sCall (h16 : jmpTarget (d.slotRegs a) a % 16 = 0)
    (hlen : jmpTarget (d.slotRegs a) a < d.imageLen (d.slotCtx a) a.cl) :
    Becomes (.sCall a) d (let e := d.regsBy a (·.setS 31 (BitVec.ofNat 64 ((d.slotRegs a).pc + 16)))
      e.bundleEnd a.cl (d.slotCtx a) (d.slotRegs a).pc
        (jmpTarget (d.slotRegs a) a, (e.seqr a.cl (d.slotCtx a)).loops) true) :=
  becomes_of_after (after_sCall d a)
    (d.slot_alone_control a 0 0x17 none _ [.setS 31 _, .jump (jmpTarget (d.slotRegs a) a)] h
      (d.branchTo_ok _ _ _ [.setS 31 _] h16 hlen) rfl rfl fun _ _ => rfl)

theorem becomes_sJr (hz : opF a 0 17 = 0) (h16 : fieldOf ((d.slotRegs a).sr (opF a 17 5)) 0 32 % 16 = 0)
    (hlen : fieldOf ((d.slotRegs a).sr (opF a 17 5)) 0 32 < d.imageLen (d.slotCtx a) a.cl) :
    Becomes (.sJr a) d (d.bundleEnd a.cl (d.slotCtx a) (d.slotRegs a).pc
      (fieldOf ((d.slotRegs a).sr (opF a 17 5)) 0 32, (d.slotRegs a).loops) true) := by
  refine becomes_of_after (after_sJr d a) ?_
  have legal : (opF a 0 17 != 0) = false := by simp [hz]
  rw [Dev.sSlot, legal]
  exact d.slot_alone_branch a 0x18 _ _ h rfl h16 hlen

theorem becomes_sLpop (hz : a.args = 0) (hl : (d.slotRegs a).loops ≠ []) :
    Becomes (.sLpop a) d (d.issuedBy a fun d => d.regsBy a fun r => { r with loops := r.loops.tail }) := by
  refine becomes_of_after (after_sLpop d a) ?_
  have legal : (a.args != 0) = false := by simp [hz]
  rw [Dev.sSlot, legal]
  exact d.slot_alone_quiet a 0 0x1D none _ [.popLoop] h (if_neg (by simpa using hl)) rfl rfl

theorem becomes_sNop (slot : Nat) (hslot : slot < 4) (hz : a.args = 0) :
    Becomes (.sNop a slot 0) d (d.issuedBy a id) := by
  refine becomes_of_after (after_sNop d a slot 0) ?_
  have here : d.sNop a slot 0 = d.slot a slot 0 false none fun _ _ => .ok [] := by
    simp [Dev.sNop, hz, Nat.not_le.2 hslot]
  exact here.trans (d.slot_alone_quiet a slot 0 none _ [] h rfl rfl rfl)

end Transfers

/-! ### Loops -/

/-- An s.loop with a free level, whose body lies in the image and inside every open level, raises no LOOP: it opens a level, or with
the count 0 skips its body (R176, R177). -/
theorem openLoop_ok (len : Nat) (r : SeqRegs) (a : Slot) (hroom : r.loops.length ≠ 2) (hlen : r.pc + 16 * opF a 0 17 < len)
    (hin : ∀ l ∈ r.loops, r.pc + 16 * opF a 0 17 ≤ l.last) :
    openLoop len r a = .ok [if fieldOf (r.sr (opF a 17 5)) 0 32 = 0 then .skipTo (r.pc + 16 * opF a 0 17 + 16)
      else .openLoop { first := r.pc + 16, last := r.pc + 16 * opF a 0 17, left := fieldOf (r.sr (opF a 17 5)) 0 32 }] := by
  have free : ¬ (r.loops.length = 2 || len ≤ r.pc + 16 * opF a 0 17) = true := by simp [hroom, hlen]
  have inside : ¬ (r.loops.any fun l => decide (l.last < r.pc + 16 * opF a 0 17)) = true := by simpa using hin
  unfold openLoop
  dsimp only
  rw [if_neg free, if_neg inside]
  split <;> rfl

section Loops

variable (d : Dev) (a : Slot) (h : d.aloneOn a = true) (hend : opF a 0 17 ≠ 0) (hroom : (d.slotRegs a).loops.length ≠ 2)
  (hlen : (d.slotRegs a).pc + 16 * opF a 0 17 < d.imageLen (d.slotCtx a) a.cl)
  (hin : ∀ l ∈ (d.slotRegs a).loops, (d.slotRegs a).pc + 16 * opF a 0 17 ≤ l.last)
include h hend hroom hlen hin

theorem becomes_sLoop_opens (hn : fieldOf ((d.slotRegs a).sr (opF a 17 5)) 0 32 ≠ 0) :
    Becomes (.sLoop a) d (d.issuedBy a fun d => d.regsBy a fun r =>
      { r with loops := { first := r.pc + 16, last := (d.slotRegs a).pc + 16 * opF a 0 17,
                          left := fieldOf (r.sr (opF a 17 5)) 0 32 } :: r.loops }) := by
  refine becomes_of_after (after_sLoop d a) ?_
  have opens := openLoop_ok _ _ a hroom hlen hin
  rw [if_neg hn] at opens
  rw [Dev.sSlot, beq_eq_false_iff_ne.2 hend]
  exact d.slot_alone_quiet a 0 0x19 none _ [.openLoop _] h opens rfl rfl

/-- The bundle of a skipping s.loop ends no open level, since every level ends at or after the skipped body. -/
theorem becomes_sLoop_skips (hn : fieldOf ((d.slotRegs a).sr (opF a 17 5)) 0 32 = 0) :
    Becomes (.sLoop a) d (d.bundleEnd a.cl (d.slotCtx a) (d.slotRegs a).pc
      ((d.slotRegs a).pc + 16 * opF a 0 17 + 16, (d.slotRegs a).loops) false) := by
  refine becomes_of_after (after_sLoop d a) ?_
  have skips := openLoop_ok _ _ a hroom hlen hin
  rw [if_pos hn] at skips
  have noEnd : ∀ l ∈ (d.slotRegs a).loops, l.last ≠ (d.slotRegs a).pc := fun l hl => by
    have := hin l hl
    omega
  rw [Dev.sSlot, beq_eq_false_iff_ne.2 hend, ← nextPc_skip _ _ _ noEnd]
  exact d.slot_alone_control a 0 0x19 none _ [.skipTo _] h skips rfl rfl fun _ _ => rfl

end Loops

/-- Settles O13: one lemma per command, over the issue of a slot alone in its bundle. -/
theorem controlTransfers : Obligations.ControlTransfers := by
  unfold Obligations.ControlTransfers
  intro d a h
  refine ⟨fun h16 hlen => ⟨becomes_sBr d a h h16 hlen, becomes_sCall d a h h16 hlen⟩,
    fun h16 hlen hz => becomes_sJr d a h hz h16 hlen, fun hend hroom hlen hin => ⟨?opens, ?skips⟩,
    becomes_sLpop d a h, becomes_sNop d a h⟩
  case opens => exact becomes_sLoop_opens d a h hend hroom hlen hin
  case skips => exact becomes_sLoop_skips d a h hend hroom hlen hin

end Sys2Proof.Machine

namespace Sys2Proof.Machine

/-! ## Register writes with a rule of their own (R324, R547, R588, R656, R657, R659, R660, R721, R725, R726, R827) -/

/-- Command c writes the register at off for the master src: where the write passes the common checks, the block becomes f if ok holds,
and else the write is discarded and logged. -/
def Dev.Takes (d : Dev) (src : Master) (c : Instr) (off : Nat) (ok : Bool) (f : Dev) : Prop :=
  d.refusal src off true = none → (ok = true → Becomes c d f) ∧ (ok = false → Becomes c d (d.logDiscard off))

/-- A write that passes the common checks is left to the register's own rule. -/
theorem Dev.guard_of_passes (d : Dev) {src : Master} {off : Nat} (h : d.refusal src off true = none) (f : Dev → Dev) :
    d.guard src off f = f d := by
  simp only [Dev.guard, h]

/-- A guarded write whose rule discards it exactly where ok fails. -/
theorem Dev.takes_of_rule {d f : Dev} {src : Master} {c : Instr} {off : Nat} {ok : Bool} {rule : Dev → Dev} {bad : Prop}
    {_ : Decidable bad} (hc : d.after c = (d.guard src off rule).settle) (hrule : rule d = if bad then d.logDiscard off else f)
    (hok : ok = true ↔ ¬ bad) : d.Takes src c off ok f := by
  intro passes
  have here : d.guard src off rule = if bad then d.logDiscard off else f := (d.guard_of_passes passes rule).trans hrule
  refine ⟨fun h => ?taken, fun h => ?discarded⟩
  case taken => exact becomes_of_after hc (here.trans (if_neg (hok.1 h)))
  case discarded =>
    have isBad : bad := Decidable.byContradiction fun hb => Bool.false_ne_true (h.symm.trans (hok.2 hb))
    exact becomes_of_after hc (here.trans (if_pos isBad))

/-! ### What a plain write leaves in its own register -/

/-- The register file of a block in canonical form. -/
theorem Dev.csr_wf (d : Dev) (h : d.tablesWf = true) : mapWf csrReset d.csr = true := by
  simp only [Dev.tablesWf, Bool.and_eq_true] at h
  obtain ⟨⟨⟨⟨⟨⟨⟨_, hcsr⟩, _⟩, _⟩, _⟩, _⟩, _⟩, _⟩ := h
  exact hcsr

/-- A plain write leaves in its register what the access types of its fields make of it (R22). -/
theorem Dev.reg_plainWrite_same (d : Dev) (off : Nat) (w : Word) (r : RegRow) (hwf : d.tablesWf = true) (hr : regAt off = some r) :
    (d.plainWrite off w).reg off = writeFields r (d.reg off) w := by
  simp only [Dev.plainWrite, hr]
  exact d.setReg_same off _ (d.csr_wf hwf)

/-- A bit that reads and writes, and is neither cleared nor set by a one, takes the value written (R22). -/
theorem bitOf_writeFields_rw (r : RegRow) (old w : Word) (i : Nat) (hi : i < 64) (hrw : r.rw.testBit i = true)
    (hc : r.w1c.testBit i = false) (hs : r.w1s.testBit i = false) : bitOf (writeFields r old w) i = bitOf w i := by
  simp only [writeFields, bitOf, BitVec.getLsbD_or, BitVec.getLsbD_and, BitVec.getLsbD_not, BitVec.getLsbD_ofNat, hi, hrw, hc, hs,
    decide_true, Bool.and_true, Bool.and_false, Bool.not_true, Bool.not_false, Bool.or_false, Bool.false_or]

/-- The grandmaster bit of TRS_CFG reads as a plain write left it. -/
theorem Dev.bit_plainWrite_trsCfg (d : Dev) (w : Word) (hwf : d.tablesWf = true) :
    (d.plainWrite Reg.TRS_CFG w).bit Reg.TRS_CFG 0 = bitOf w 0 := by
  rw [Dev.bit, d.reg_plainWrite_same Reg.TRS_CFG w _ hwf rfl]
  exact bitOf_writeFields_rw _ _ w 0 (by decide) rfl rfl rfl

/-! ### The rule of each register -/

section RegisterRules

variable (d : Dev) (src : Master) (n : Nat) (w : Word)

theorem takes_placeSwapWrite : d.Takes src (.placeSwapWrite src w) Reg.BUR_PLACE_SWAP (!d.bit Reg.BUR_PLACE_STATUS 19)
    (d.plainWrite Reg.BUR_PLACE_SWAP w) :=
  have here : d.after (.placeSwapWrite src w) = (d.wPlaceSwap src w).settle := rfl
  Dev.takes_of_rule here rfl (by simp only [Bool.not_eq_true', Bool.not_eq_true])

theorem takes_tierPoolWrite (hn : n < 2) : d.Takes src (.tierPoolWrite src n w) (Reg.TIER_POOL_CFG n)
    (!allCtxs.any d.loaded && fieldOf w 0 48 % 65536 == 0 &&
      !overlap (fieldOf w 0 48) (fieldOf w 48 16 * 1024 * 65536) (d.mapAddr 0) d.mapBytes)
    (d.plainWrite (Reg.TIER_POOL_CFG n) w) :=
  have here : d.after (.tierPoolWrite src n w) = (d.wTierPool src n w).settle := congrArg Dev.settle (if_pos hn)
  Dev.takes_of_rule here rfl (by
    simp only [Dev.anyLoaded, Bool.and_eq_true, Bool.not_eq_true', beq_iff_eq, Bool.not_eq_true, Bool.or_eq_false_iff,
      bne_eq_false_iff_eq])

theorem takes_chestCfgWrite : d.Takes src (.chestCfgWrite src w) Reg.CHEST_CFG
    (!allCtxs.any d.loaded && decide (16 ≤ fieldOf w 0 16) && decide (1000 ≤ fieldOf w 32 24)) (d.plainWrite Reg.CHEST_CFG w) :=
  have here : d.after (.chestCfgWrite src w) = (d.wChestCfg src w).settle := rfl
  Dev.takes_of_rule here rfl (by
    simp only [Dev.anyLoaded, Bool.and_eq_true, Bool.not_eq_true', decide_eq_true_eq, Bool.not_eq_true, Bool.or_eq_false_iff,
      decide_eq_false_iff_not, Nat.not_lt])

theorem takes_fabPkeyWrite (hn : n < 16) : d.Takes src (.fabPkeyWrite src n w) (Reg.FAB_PKEY n)
    (!(fieldOf w 0 16 == 0xFFFF && bitOf w 16)) (d.plainWrite (Reg.FAB_PKEY n) w) :=
  have here : d.after (.fabPkeyWrite src n w) = (d.guard src (Reg.FAB_PKEY n) (·.wPkey n w)).settle :=
    congrArg Dev.settle (if_pos hn)
  Dev.takes_of_rule here rfl (by
    simp only [Bool.not_eq_true', Bool.not_eq_true, Bool.and_eq_false_iff, beq_eq_false_iff_ne, decide_eq_false_iff_not, ne_eq])

theorem takes_ctxPkeyWrite (hn : n < 8) : d.Takes src (.ctxPkeyWrite src n w) (Reg.FAB_CTX_ID n) (!d.loaded n)
    (d.plainWrite (Reg.FAB_CTX_ID n) w) :=
  have here : d.after (.ctxPkeyWrite src n w) = (d.guard src (Reg.FAB_CTX_ID n) (·.wCtxId n w)).settle :=
    congrArg Dev.settle (if_pos hn)
  Dev.takes_of_rule here rfl (by simp only [Bool.not_eq_true', Bool.not_eq_true])

/-- The four fabric registers share one command, whose operand is the register's place after FAB_NODE. -/
theorem after_fabConfigWrite (hn : n < 4) : d.after (.fabConfigWrite src n w) =
    (d.guard src (Reg.FAB_NODE + 8 * n) (·.wFabConfig (Reg.FAB_NODE + 8 * n) w)).settle := congrArg Dev.settle (if_pos hn)

theorem takes_fabNodeWrite : d.Takes src (.fabConfigWrite src 0 w) Reg.FAB_NODE (!allCtxs.any d.loaded)
    (d.plainWrite Reg.FAB_NODE w) :=
  Dev.takes_of_rule (bad := d.anyLoaded = true) (after_fabConfigWrite d src 0 w (by decide)) rfl
    (by simp only [Dev.anyLoaded, Bool.not_eq_true', Bool.not_eq_true])

theorem takes_fabTimeoutWrite : d.Takes src (.fabConfigWrite src 1 w) Reg.FAB_TIMEOUT
    (!allCtxs.any d.loaded && decide (fieldOf w 32 16 + 10 ≤ fieldOf w 0 16) && decide (fieldOf w 48 16 < fieldOf w 16 16))
    (d.plainWrite Reg.FAB_TIMEOUT w) :=
  Dev.takes_of_rule
    (bad := (d.anyLoaded || decide (fieldOf w 0 16 < fieldOf w 32 16 + 10) || decide (fieldOf w 16 16 ≤ fieldOf w 48 16)) = true)
    (after_fabConfigWrite d src 1 w (by decide)) rfl (by
      simp only [Dev.anyLoaded, Bool.and_eq_true, Bool.not_eq_true', decide_eq_true_eq, Bool.not_eq_true, Bool.or_eq_false_iff,
        decide_eq_false_iff_not, Nat.not_lt, Nat.not_le])

theorem takes_fabVcwWrite : d.Takes src (.fabConfigWrite src 2 w) Reg.FAB_VCW
    ((upFrom 0 5).all fun i => fieldOf w (4 * i) 4 != 0) (d.plainWrite Reg.FAB_VCW w) :=
  Dev.takes_of_rule (bad := ((upFrom 0 5).any fun i => fieldOf w (4 * i) 4 == 0) = true)
    (after_fabConfigWrite d src 2 w (by decide)) rfl (by
      simp only [List.all_eq_true, bne_iff_ne, ne_eq, Bool.not_eq_true, List.any_eq_false, beq_eq_false_iff_ne])

theorem takes_fabCombineWrite : d.Takes src (.fabConfigWrite src 3 w) Reg.FAB_COMBINE
    (decide (1 ≤ fieldOf w 8 7) && decide (fieldOf w 8 7 ≤ 64)) (d.plainWrite Reg.FAB_COMBINE w) :=
  Dev.takes_of_rule (bad := (fieldOf w 8 7 == 0 || decide (64 < fieldOf w 8 7)) = true)
    (after_fabConfigWrite d src 3 w (by decide)) rfl (by
      simp only [Bool.and_eq_true, decide_eq_true_eq, Nat.one_le_iff_ne_zero, Bool.not_eq_true, Bool.or_eq_false_iff,
        beq_eq_false_iff_ne, decide_eq_false_iff_not, Nat.not_lt])

/-- The grandmaster's time base is LOCKED at once (R707, R725). -/
theorem takes_trsCfgWrite (hwf : d.tablesWf = true) : d.Takes src (.trsCfgWrite src w) Reg.TRS_CFG (decide (4096 ≤ fieldOf w 8 24))
    (if bitOf w 0 then (d.plainWrite Reg.TRS_CFG w).setFld Reg.TRS_SYNC 0 2 1 else d.plainWrite Reg.TRS_CFG w) :=
  have here : d.after (.trsCfgWrite src w) = (d.guard src Reg.TRS_CFG (·.wTrsCfg w)).settle := rfl
  have rule : d.wTrsCfg w = if fieldOf w 8 24 < 4096 then d.logDiscard Reg.TRS_CFG else
      if bitOf w 0 then (d.plainWrite Reg.TRS_CFG w).setFld Reg.TRS_SYNC 0 2 1 else d.plainWrite Reg.TRS_CFG w := by
    simp only [Dev.wTrsCfg, Dev.setSync, d.bit_plainWrite_trsCfg w hwf, ite_self]
  Dev.takes_of_rule here rule (by simp only [decide_eq_true_eq, Nat.not_lt])

theorem takes_jheadWrite (hn : n < 8) : d.Takes src (.jheadWrite src n w) (Reg.FPU_CTX_JHEAD n)
    (decide ((d.reg (Reg.FPU_CTX_JHEAD n)).toNat ≤ w.toNat) && decide (w.toNat ≤ (d.reg (Reg.FPU_CTX_JTAIL n)).toNat))
    (d.setReg (Reg.FPU_CTX_JHEAD n) w) :=
  have here : d.after (.jheadWrite src n w) = (d.guard src (Reg.FPU_CTX_JHEAD n) (·.wJhead n w)).settle :=
    congrArg Dev.settle (if_pos hn)
  Dev.takes_of_rule here rfl (by
    simp only [Bool.and_eq_true, decide_eq_true_eq, Bool.not_eq_true, Bool.or_eq_false_iff, decide_eq_false_iff_not, Nat.not_lt])

/-- A write of JSIZE that is taken begins the ring anew: LOST, HEAD and TAIL read 0. -/
theorem takes_journalSizeWrite (hn : n < 8) : d.Takes src (.journalRingWrite src n true w) (Reg.FPU_CTX_JSIZE n)
    (!(d.ctx n).state.active && fieldOf w 0 40 % 64 == 0 && d.fld (Reg.FPU_CTX_JBASE n) 0 48 % 64 == 0 &&
      (fieldOf w 0 40 == 0 || inHbm (d.fld (Reg.FPU_CTX_JBASE n) 0 48) (fieldOf w 0 40)) &&
      d.poolRanges.all (fun r => !overlap (d.fld (Reg.FPU_CTX_JBASE n) 0 48) (fieldOf w 0 40) r.1 r.2))
    ((((d.plainWrite (Reg.FPU_CTX_JSIZE n) w).setFld (Reg.FPU_CTX_JCFG n) 32 32 0).setReg (Reg.FPU_CTX_JHEAD n) 0).setReg
      (Reg.FPU_CTX_JTAIL n) 0) :=
  have here : d.after (.journalRingWrite src n true w) = (d.guard src (Reg.FPU_CTX_JSIZE n) (·.wRing n true w)).settle :=
    congrArg Dev.settle (if_pos hn)
  Dev.takes_of_rule here rfl (by
    rw [Bool.not_eq_true]
    simp only [Bool.and_eq_true, Bool.or_eq_true, Bool.not_eq_true', beq_iff_eq, List.all_eq_true, Bool.or_eq_false_iff,
      Bool.and_eq_false_iff, Bool.not_eq_false', bne_eq_false_iff_eq, List.any_eq_false, Bool.not_eq_true, if_true, and_assoc,
      and_left_comm])

theorem takes_vfCfgWrite (h1 : 1 ≤ n) (h8 : n ≤ 8) : d.Takes src (.vfCfgWrite src n w) (Reg.HIF_VF_CFG n)
    (!(d.bit (Reg.HIF_VF_CFG n) 3 && (d.ctx (d.fld (Reg.HIF_VF_CFG n) 0 3)).state.active) && !(d.ctx (fieldOf w 0 3)).state.active)
    (d.plainWrite (Reg.HIF_VF_CFG n) w) :=
  have here : d.after (.vfCfgWrite src n w) = (d.guard src (Reg.HIF_VF_CFG n) (·.wVfCfg n w)).settle :=
    congrArg Dev.settle (if_pos (Bool.and_eq_true_iff.2 ⟨decide_eq_true h1, decide_eq_true h8⟩))
  Dev.takes_of_rule here rfl (by simp only [Bool.and_eq_true, Bool.not_eq_true', Bool.not_eq_true, Bool.or_eq_false_iff])

end RegisterRules

/-- Settles O42: one lemma per register, over what a guarded write with a rule of its own becomes. -/
theorem registerWriteRules : Obligations.RegisterWriteRules := by
  unfold Obligations.RegisterWriteRules
  intro d src n w hwf
  exact ⟨takes_placeSwapWrite d src w, takes_tierPoolWrite d src n w, takes_chestCfgWrite d src w, takes_fabPkeyWrite d src n w,
    takes_ctxPkeyWrite d src n w, takes_fabNodeWrite d src w, takes_fabTimeoutWrite d src w, takes_fabVcwWrite d src w,
    takes_fabCombineWrite d src w, takes_trsCfgWrite d src w hwf, takes_jheadWrite d src n w, takes_journalSizeWrite d src n w,
    takes_vfCfgWrite d src n w⟩

end Sys2Proof.Machine

namespace Sys2Proof.Machine

/-! ## The block as a whole (R17) -/

/-- What any command leaves has every table in canonical form (log entry 56). -/
theorem Dev.after_tablesWf (d : Dev) (c : Instr) : (d.after c).tablesWf = true := by
  cases c <;> exact Dev.settle_tablesWf _

/-- A step with commands waiting runs the first of them. -/
theorem step_cons (c : Instr) (rest : List Instr) (d : Dev) :
    step { pending := c :: rest, dev := d } = .next { pending := rest, dev := d.after c } := exec_after c _

/-- A step with no command is one hub cycle (log entry 2). -/
theorem step_nil (d : Dev) : step { pending := [], dev := d } = .next { pending := [], dev := d.cycle.settle } := rfl

/-- Settles O4: a step leaves either what a command made of the block or what a hub cycle made of it, each settled. -/
theorem stepKeepsTables : Obligations.StepKeepsTables := by
  unfold Obligations.StepKeepsTables
  rintro ⟨pending, d⟩ t _ hstep
  cases pending with
  | nil =>
    rw [step_nil] at hstep
    cases hstep
    exact ⟨Dev.settle_tablesWf _, fun _ _ h => (List.cons_ne_nil _ _ h.symm).elim, fun _ => rfl⟩
  | cons c rest =>
    rw [step_cons] at hstep
    cases hstep
    exact ⟨d.after_tablesWf c, fun _ _ h => (List.cons.inj h).2, fun h => (List.cons_ne_nil _ _ h).elim⟩

/-- Settles O1: by the definition of a step. -/
theorem stepRunsFrontCommand : Obligations.StepRunsFrontCommand := fun _ _ => rfl

/-- Settles O3: what a command leaves is a function of the block alone. -/
theorem commandsLeaveQueue : Obligations.CommandsLeaveQueue :=
  fun c d => ⟨d.after c, d.after_tablesWf c, fun _ => exec_after c _⟩

/-- Settles O5. -/
theorem resetHasTables : Obligations.ResetHasTables := ⟨rfl, rfl⟩

/-- Settles O6: the laws of canonical form, one for each table. -/
theorem canonicalFormChangesNoRead : Obligations.CanonicalFormChangesNoRead :=
  ⟨Dev.settle_of_wf, fun d => ⟨d.settle_reg, d.settle_byte, d.settle_ctx, d.settle_obj, d.settle_trk, d.settle_seqr, d.settle_clu⟩⟩

theorem Dev.write_poison (d : Dev) (a : Nat) (bs : Bytes) : (d.write a bs).poison = clearPoison d.poison a bs.length := rfl

/-- A write clears the marks of the poison units that it covers whole, and no other (R762). -/
theorem Dev.write_poison_find (d : Dev) (a k : Nat) (bs : Bytes) : mapFind (d.write a bs).poison k =
    if a ≤ k ∧ k + poisonUnit k ≤ a + bs.length then none else mapFind d.poison k := by
  rw [d.write_poison, clearPoison, mapFind_mapKeep]
  by_cases covered : a ≤ k ∧ k + poisonUnit k ≤ a + bs.length
  · simp [covered]
  · rw [if_neg covered, if_pos]
    rw [Bool.not_eq_true', Bool.and_eq_false_iff, decide_eq_false_iff_not, decide_eq_false_iff_not]
    omega

/-- A write keeps every table in canonical form. -/
theorem Dev.write_tablesWf (d : Dev) (a : Nat) (bs : Bytes) (h : d.tablesWf = true) : (d.write a bs).tablesWf = true := by
  simp only [Dev.tablesWf, Bool.and_eq_true] at h ⊢
  obtain ⟨⟨⟨⟨⟨⟨⟨hmem, hcsr⟩, hpoison⟩, hctxs⟩, hobjs⟩, htrks⟩, hseqs⟩, hclus⟩ := h
  rw [d.write_poison]
  exact ⟨⟨⟨⟨⟨⟨⟨memSets_wf _ a bs hmem, hcsr⟩, mapWf_mapKeep _ _ d.poison hpoison⟩, hctxs⟩, hobjs⟩, htrks⟩, hseqs⟩, hclus⟩

/-- Settles O7: the laws of a write, one for each clause. -/
theorem memoryReadsWhatWasWritten : Obligations.MemoryReadsWhatWasWritten :=
  fun d a bs hwf => ⟨fun i h => d.write_byte_at a i bs h, fun b h => d.write_byte_other a b bs h,
    fun k => d.write_poison_find a k bs, d.write_tablesWf a bs hwf⟩

/-! ### The registers of a sequencer (R145) -/

theorem SeqRegs.setS_sr_same (r : SeqRegs) (i : Nat) (v : Word) (hi : i ≠ 0) (hr : keysRise (r.s.map Prod.fst) = true) :
    (r.setS i v).sr i = v := by
  simp only [SeqRegs.setS, SeqRegs.sr, if_neg hi]
  exact mapGet_mapSet_same _ r.s i v hr

theorem SeqRegs.setS_sr_other (r : SeqRegs) (i j : Nat) (v : Word) (hj : j ≠ i) : (r.setS i v).sr j = r.sr j := by
  unfold SeqRegs.setS
  split
  · rfl
  · simp only [SeqRegs.sr, mapGet_mapSet_other _ r.s i j v hj]

theorem SeqRegs.setS_ar (r : SeqRegs) (i k : Nat) (v : Word) : (r.setS i v).ar k = r.ar k := by
  unfold SeqRegs.setS
  split <;> rfl

theorem SeqRegs.setS_pr (r : SeqRegs) (i k : Nat) (v : Word) : (r.setS i v).pr k = r.pr k := by
  unfold SeqRegs.setS
  split <;> rfl

theorem SeqRegs.setP_pr_same (r : SeqRegs) (i : Nat) (b : Bool) (hi : i ≠ 0) (hr : keysRise (r.p.map Prod.fst) = true) :
    (r.setP i b).pr i = b := by
  simp only [SeqRegs.setP, SeqRegs.pr, if_neg hi]
  exact mapGet_mapSet_same _ r.p i b hr

/-- Settles O11: s0 and p0 by the guards of their readers and writers, every other register by the laws of its table. -/
theorem hardWiredRegisters : Obligations.HardWiredRegisters := by
  unfold Obligations.HardWiredRegisters
  intro r
  exact ⟨rfl, rfl, fun _ => rfl, fun _ => rfl, r.setS_sr_same, fun i v hr => mapGet_mapSet_same _ r.a i v hr, r.setP_pr_same,
    fun i j v hj => ⟨r.setS_sr_other i j v hj, fun k => r.setS_ar i k v, fun k => r.setS_pr i k v⟩⟩

/-- Settles O32. -/
theorem waitsComplete : Obligations.WaitsComplete := by
  unfold Obligations.WaitsComplete
  intro d c hwaits hok
  have meaning : d.after (.waitComplete c) = (d.waitDone c).settle := rfl
  exact becomes_of_after meaning (if_pos (by simp [hwaits, hok]))

/-! ### The hub cycle of an empty queue (log entry 2) -/

theorem upFrom_eq_range' (a n : Nat) : upFrom a n = List.range' a n := by
  induction n generalizing a with
  | zero => rfl
  | succ n ih => simp only [upFrom, ih, List.range'_succ]

theorem mem_upFrom {a n k : Nat} : k ∈ upFrom a n ↔ a ≤ k ∧ k < a + n := by
  rw [upFrom_eq_range', List.mem_range'_1]

theorem nodup_upFrom (a n : Nat) : (upFrom a n).Nodup := by
  rw [upFrom_eq_range']
  exact List.nodup_range'

/-- Entries that a test passes over are none of its business: a put under such a key leaves what the test keeps. -/
theorem filter_mapPut {α : Type} (p : Nat × α → Bool) (m : SMap α) (k : Nat) (o : Option α) (h : ∀ v, p (k, v) = false) :
    (mapPut m k o).filter p = m.filter p := by
  induction m with
  | nil => cases o <;> simp [mapPut, h]
  | cons e t ih =>
    obtain ⟨k', v'⟩ := e
    unfold mapPut
    split
    · cases o <;> simp [h]
    · split
      · subst_vars
        cases o <;> simp [h]
      · simp [List.filter_cons, ih]

/-- Writes under keys that a test passes over leave what the test keeps. -/
theorem filter_foldl_mapSet {α β : Type} [DecidableEq α] (dflt : Nat → α) (p : Nat × α → Bool) (key : β → Nat) (val : SMap α → β → α)
    (l : List β) (m : SMap α) (h : ∀ e ∈ l, ∀ v, p (key e, v) = false) :
    (l.foldl (fun m e => mapSet dflt m (key e) (val m e)) m).filter p = m.filter p := by
  induction l generalizing m with
  | nil => rfl
  | cons e t ih =>
    rw [List.foldl_cons, ih _ fun f hf => h f (List.mem_cons_of_mem _ hf)]
    exact filter_mapPut p m _ _ (h e List.mem_cons_self)

/-- The credit due that a superframe of a port names is due at that port. -/
theorem Dev.dueAt_port (d : Dev) (n : Nat) {e : Nat × Nat} (h : e ∈ d.dueAt n) : e.1 / 32 = n := by
  obtain ⟨f, hf, rfl⟩ := List.mem_map.1 h
  have := (List.mem_filter.1 (List.mem_of_mem_take hf)).2
  simp only [Bool.and_eq_true, beq_iff_eq] at this
  exact this.1

/-- A superframe of one port leaves the credit due at another. -/
theorem Dev.sendFrame_dueAt (d : Dev) (n k : Nat) (h : k ≠ n) : (d.sendFrame n).dueAt k = d.dueAt k := by
  unfold Dev.sendFrame
  dsimp only
  split
  · rfl
  · have kept := filter_foldl_mapSet (fun _ => 0) (fun e : Nat × Nat => e.1 / 32 == k && e.2 != 0) (fun e : Nat × Nat => e.1)
      (fun m e => mapGet (fun _ => 0) m e.1 - e.2) (d.dueAt n) d.creditDue fun e he v => by
        simp [d.dueAt_port n he, Ne.symm h]
    exact congrArg (fun l => (l.take 2).map fun e : Nat × Nat => (e.1, min 1023 e.2)) kept

/-- A superframe of one port leaves the link of another. -/
theorem Dev.sendFrame_link_other (d : Dev) (n k : Nat) (h : k ≠ n) : (d.sendFrame n).link k = d.link k := by
  unfold Dev.sendFrame
  dsimp only
  split
  · rfl
  · exact mapGet_mapSet_other _ d.links n k _ h

/-- A superframe changes no register. -/
theorem Dev.sendFrame_reg (d : Dev) (n o : Nat) : (d.sendFrame n).reg o = d.reg o := by
  unfold Dev.sendFrame
  dsimp only
  split <;> rfl

/-- A superframe of one port gives another nothing to say. -/
theorem Dev.sendFrame_says_other (d : Dev) (n k : Nat) (h : k ≠ n) : (d.sendFrame n).says k = d.says k := by
  simp only [Dev.says, Dev.portState, Dev.fld, d.sendFrame_reg n, d.sendFrame_link_other n k h, d.sendFrame_dueAt n k h]

/-- A port that has something to say sends a superframe. -/
def Dev.speak (d : Dev) (n : Nat) : Dev := if d.says n then d.sendFrame n else d

/-- Ports with nothing to say send nothing. -/
theorem Dev.speak_silent (d : Dev) (l : List Nat) (h : ∀ k ∈ l, d.says k = false) : l.foldl Dev.speak d = d := by
  induction l with
  | nil => rfl
  | cons a t ih =>
    rw [List.foldl_cons, Dev.speak, h a List.mem_cons_self]
    exact ih fun k hk => h k (List.mem_cons_of_mem _ hk)

/-- The one port that has something to say sends a superframe. -/
theorem Dev.speak_one (d : Dev) (n : Nat) (l : List Nat) (hl : l.Nodup) (hn : n ∈ l) (hs : d.says n = true)
    (h : ∀ k ∈ l, k ≠ n → d.says k = false) : l.foldl Dev.speak d = d.sendFrame n := by
  induction l with
  | nil => simp at hn
  | cons a t ih =>
    obtain ⟨ha, ht⟩ := List.nodup_cons.1 hl
    rw [List.foldl_cons]
    by_cases han : a = n
    · subst han
      rw [Dev.speak, if_pos hs]
      refine Dev.speak_silent _ t fun k hk => ?_
      have hka : k ≠ a := fun he => ha (he ▸ hk)
      rw [d.sendFrame_says_other a k hka]
      exact h k (List.mem_cons_of_mem _ hk) hka
    · rw [Dev.speak, h a List.mem_cons_self han]
      exact ih ht ((List.mem_cons.1 hn).resolve_left (Ne.symm han)) fun k hk => h k (List.mem_cons_of_mem _ hk)

theorem Dev.linkCycle_silent (d : Dev) (h : ∀ k, k < 32 → d.says k = false) : d.linkCycle = d :=
  d.speak_silent _ fun k hk => h k (by simpa using (mem_upFrom.1 hk).2)

theorem Dev.linkCycle_one (d : Dev) (n : Nat) (hn : n < 32) (hs : d.says n = true) (h : ∀ k, k < 32 → k ≠ n → d.says k = false) :
    d.linkCycle = d.sendFrame n :=
  d.speak_one n _ (nodup_upFrom 0 32) (mem_upFrom.2 ⟨Nat.zero_le n, by omega⟩) hs
    fun k hk => h k (by simpa using (mem_upFrom.1 hk).2)

/-- With no evidence the Bureau declares nothing. -/
theorem Dev.declare_quiet (d : Dev) (h : d.aon.ues = []) : d.declare = d := by
  have nothing : d.failing = [] := by rw [Dev.failing, h]; rfl
  rw [Dev.declare, nothing]
  rfl

section IdleCycle

variable (d : Dev) (hlock : d.hubLocked = true) (hslew : d.trs.slew = 0) (hues : d.aon.ues = [])
include hlock hslew hues

theorem Dev.idle_quiet : d.idle = { d with time := d.time + 1 } := by
  have ticks : d.tick = { d with time := d.time + 1 } := by
    rw [Dev.tick, if_neg (by simp [hlock]), if_pos hslew]
  rw [Dev.idle, ticks]
  exact Dev.declare_quiet _ hues

/-- A hub cycle in which nothing waits is the count of time and what the ports say. -/
theorem Dev.cycle_quiet (hcab : d.cabPend = []) (hnet : d.netWait = []) (hsnaps : d.snaps = []) :
    d.cycle = ({ d with time := d.time + 1 } : Dev).linkCycle := by
  cases d
  subst hcab hnet hsnaps
  rw [Dev.cycle, Dev.idle_quiet _ hlock hslew hues]
  rfl

end IdleCycle

/-- Settles O2: with nothing waiting a cycle counts time, and each port speaks that has something to say. -/
theorem idleStepCountsTime : Obligations.IdleStepCountsTime := by
  unfold Obligations.IdleStepCountsTime
  constructor
  case left =>
    intro d n hn hlock hslew hues hcab hnet hsnaps hsays _ hothers
    rw [step_nil, d.cycle_quiet hlock hslew hues hcab hnet hsnaps,
      Dev.linkCycle_one { d with time := d.time + 1 } n hn hsays hothers]
  case right =>
    intro d hlock hslew hues hcab hnet hsnaps hsilent
    refine ⟨_, step_nil d, rfl, ?_⟩
    rw [d.cycle_quiet hlock hslew hues hcab hnet hsnaps, Dev.linkCycle_silent { d with time := d.time + 1 } hsilent]
    exact ⟨rfl, Dev.settle_reg _, Dev.settle_byte _, Dev.settle_clu _, Dev.settle_obj _, Dev.settle_trk _, Dev.settle_ctx _⟩

end Sys2Proof.Machine

namespace Sys2Proof.Machine

/-! ## Packets as bytes (R17, R604, R605, R608) -/

/-! ### Little-endian fields -/

theorem leBytes_length (n v : Nat) : (leBytes n v).length = n := by
  induction n generalizing v with
  | zero => rfl
  | succ n ih => simp only [leBytes, List.length_cons, ih]

theorem leNat_leBytes (n v : Nat) : leNat (leBytes n v) = v % 256 ^ n := by
  induction n generalizing v with
  | zero => simp only [leBytes, leNat, Nat.pow_zero, Nat.mod_one]
  | succ n ih =>
    simp only [leBytes, leNat, ih, BitVec.toNat_ofNat]
    rw [show 256 ^ (n + 1) = 256 * 256 ^ n from Nat.pow_succ', Nat.mod_mul]
    omega

theorem leNat_append (a b : Bytes) : leNat (a ++ b) = leNat a + 256 ^ a.length * leNat b := by
  induction a with
  | nil => simp only [List.nil_append, leNat, List.length_nil, Nat.pow_zero, Nat.one_mul, Nat.zero_add]
  | cons x t ih =>
    simp only [List.cons_append, leNat, ih, List.length_cons, Nat.pow_succ']
    rw [Nat.mul_add, ← Nat.add_assoc, ← Nat.mul_assoc]

/-- A field that lies in the first part of a string. -/
theorem atLe_append_left (a b : Bytes) (off n : Nat) (h : off + n ≤ a.length) : atLe (a ++ b) off n = atLe a off n := by
  unfold atLe
  rw [List.drop_append_of_le_length (by omega), List.take_append_of_le_length (by rw [List.length_drop]; omega)]

/-- A field that lies in the second part of a string. -/
theorem atLe_append_right (a b : Bytes) (off n : Nat) : atLe (a ++ b) (a.length + off) n = atLe b off n := by
  unfold atLe
  rw [List.drop_append, List.drop_eq_nil_of_le (by omega), List.nil_append, Nat.add_sub_cancel_left]

theorem atLe_leBytes (n v : Nat) (t : Bytes) : atLe (leBytes n v ++ t) 0 n = v % 256 ^ n := by
  unfold atLe
  rw [List.drop_zero, List.take_append_of_le_length (Nat.le_of_eq (leBytes_length n v).symm),
    List.take_of_length_le (Nat.le_of_eq (leBytes_length n v)), leNat_leBytes]

/-! ### The header -/

theorem Hdr.bytes_length (h : Hdr) : h.bytes.length = 32 := by
  simp only [Hdr.bytes, List.length_append, leBytes_length]

/-- Words that follow each other in a string, eight bytes each. -/
theorem atLe_words (w0 w1 w2 w3 : Nat) (t : Bytes) :
    let s := leBytes 8 w0 ++ leBytes 8 w1 ++ leBytes 8 w2 ++ leBytes 8 w3 ++ t
    atLe s 0 8 = w0 % 2 ^ 64 ∧ atLe s 8 8 = w1 % 2 ^ 64 ∧ atLe s 16 8 = w2 % 2 ^ 64 ∧ atLe s 24 8 = w3 % 2 ^ 64 := by
  have skip : ∀ (w k : Nat) (r : Bytes), atLe (leBytes 8 w ++ r) (8 + k) 8 = atLe r k 8 := fun w k r => by
    simpa only [leBytes_length] using atLe_append_right (leBytes 8 w) r k 8
  simp only [List.append_assoc]
  refine ⟨atLe_leBytes 8 w0 _, ?_, ?_, ?_⟩
  · exact (skip w0 0 _).trans (atLe_leBytes 8 w1 _)
  · exact (skip w0 8 _).trans ((skip w1 0 _).trans (atLe_leBytes 8 w2 _))
  · exact (skip w0 16 _).trans ((skip w1 8 _).trans ((skip w2 0 _).trans (atLe_leBytes 8 w3 _)))

/-- The fields of a header lie within their widths, and the bits sent as 0 are 0 (R605). -/
structure Hdr.Fits (h : Hdr) : Prop where
  ty : h.ty < 2 ^ 5
  vc : h.vc < 2 ^ 3
  esc : h.esc < 2
  sub : h.sub < 2
  hops : h.hops < 2 ^ 6
  dst : h.dst < 2 ^ 16
  src : h.src < 2 ^ 16
  pkey : h.pkey < 2 ^ 16
  job : h.job < 2 ^ 16
  len : h.len < 2 ^ 9
  rmode : h.rmode < 2 ^ 2
  sop : h.sop < 2 ^ 4
  sync : h.sync < 2 ^ 16
  mcast : h.mcast < 2 ^ 16
  addr : h.addr < 2 ^ 48
  aop : h.aop < 2 ^ 4
  asz : h.asz < 2 ^ 2
  seq : h.seq < 2 ^ 24
  proxy : h.proxy < 2
  sval : h.sval < 2 ^ 32
  z : h.z = 0

/-- The four words of a header (R605): the type, the routing bits and the addresses; the job, the length and the sync operation; the
address and the atomic; the sequence and the sync value. -/
def Hdr.word0 (h : Hdr) : Nat :=
  h.ty % 32 + h.vc % 8 * 2 ^ 5 + h.esc % 2 * 2 ^ 8 + h.sub % 2 * 2 ^ 9 + h.hops % 64 * 2 ^ 10 + h.dst % 65536 * 2 ^ 16 +
    h.src % 65536 * 2 ^ 32 + h.pkey % 65536 * 2 ^ 48
@[inherit_doc Hdr.word0]
def Hdr.word1 (h : Hdr) : Nat :=
  h.job % 65536 + h.len % 512 * 2 ^ 16 + h.rmode % 4 * 2 ^ 25 + h.sop % 16 * 2 ^ 28 + h.z % 2 * 2 ^ 27 + h.sync % 65536 * 2 ^ 32 +
    h.mcast % 65536 * 2 ^ 48
@[inherit_doc Hdr.word0]
def Hdr.word2 (h : Hdr) : Nat := h.addr % 2 ^ 48 + h.aop % 16 * 2 ^ 48 + h.asz % 4 * 2 ^ 52 + h.z / 2 % 2 ^ 10 * 2 ^ 54
@[inherit_doc Hdr.word0]
def Hdr.word3 (h : Hdr) : Nat :=
  h.seq % 2 ^ 24 + h.proxy % 2 * 2 ^ 24 + h.z / 2 ^ 11 % 2 ^ 7 * 2 ^ 25 + h.sval % 2 ^ 32 * 2 ^ 32

theorem Hdr.bytes_eq (h : Hdr) : h.bytes = leBytes 8 h.word0 ++ leBytes 8 h.word1 ++ leBytes 8 h.word2 ++ leBytes 8 h.word3 := rfl

section Fits

variable {h : Hdr} (hf : h.Fits)
include hf

theorem Hdr.Fits.bitsOf_word0 : let w := h.word0 % 2 ^ 64
    bitsOf w 0 5 = h.ty ∧ bitsOf w 5 3 = h.vc ∧ bitsOf w 8 1 = h.esc ∧ bitsOf w 9 1 = h.sub ∧ bitsOf w 10 6 = h.hops ∧
      bitsOf w 16 16 = h.dst ∧ bitsOf w 32 16 = h.src ∧ bitsOf w 48 16 = h.pkey := by
  obtain ⟨ty, vc, esc, sub, hops, dst, src, pkey, -⟩ := hf
  simp only [Hdr.word0, bitsOf, Nat.shiftRight_eq_div_pow]
  omega

theorem Hdr.Fits.bitsOf_word1 : let w := h.word1 % 2 ^ 64
    bitsOf w 0 16 = h.job ∧ bitsOf w 16 9 = h.len ∧ bitsOf w 25 2 = h.rmode ∧ bitsOf w 27 1 = 0 ∧ bitsOf w 28 4 = h.sop ∧
      bitsOf w 32 16 = h.sync ∧ bitsOf w 48 16 = h.mcast := by
  obtain ⟨-, -, -, -, -, -, -, -, job, len, rmode, sop, sync, mcast, -, -, -, -, -, -, z⟩ := hf
  simp only [Hdr.word1, bitsOf, Nat.shiftRight_eq_div_pow]
  omega

theorem Hdr.Fits.bitsOf_word2 : let w := h.word2 % 2 ^ 64
    bitsOf w 0 48 = h.addr ∧ bitsOf w 48 4 = h.aop ∧ bitsOf w 52 2 = h.asz ∧ bitsOf w 54 10 = 0 := by
  obtain ⟨-, -, -, -, -, -, -, -, -, -, -, -, -, -, addr, aop, asz, -, -, -, z⟩ := hf
  simp only [Hdr.word2, bitsOf, Nat.shiftRight_eq_div_pow]
  omega

theorem Hdr.Fits.bitsOf_word3 : let w := h.word3 % 2 ^ 64
    bitsOf w 0 24 = h.seq ∧ bitsOf w 24 1 = h.proxy ∧ bitsOf w 25 7 = 0 ∧ bitsOf w 32 32 = h.sval := by
  obtain ⟨-, -, -, -, -, -, -, -, -, -, -, -, -, -, -, -, -, seq, proxy, sval, z⟩ := hf
  simp only [Hdr.word3, bitsOf, Nat.shiftRight_eq_div_pow]
  omega

/-- A header that fits is read back from the front of any string that begins with its bytes. -/
theorem hdrOf_bytes (t : Bytes) : hdrOf (h.bytes ++ t) = h := by
  obtain ⟨e0, e1, e2, e3⟩ := atLe_words h.word0 h.word1 h.word2 h.word3 t
  obtain ⟨ty, vc, esc, sub, hops, dst, src, pkey⟩ := hf.bitsOf_word0
  obtain ⟨job, len, rmode, z1, sop, sync, mcast⟩ := hf.bitsOf_word1
  obtain ⟨addr, aop, asz, z2⟩ := hf.bitsOf_word2
  obtain ⟨seq, proxy, z3, sval⟩ := hf.bitsOf_word3
  have z := hf.z
  cases h
  simp_all only [hdrOf, Hdr.bytes_eq, Nat.zero_mul, Nat.add_zero]

end Fits

/-! ### The whole packet -/

theorem crcBits_lt {poly : Nat} (hp : poly < 2 ^ 32) (n c : Nat) (hc : c < 2 ^ 32) : crcBits poly n c < 2 ^ 32 := by
  induction n generalizing c with
  | zero => exact hc
  | succ n ih =>
    refine ih _ ?_
    split
    · exact Nat.xor_lt_two_pow (by omega) hp
    · omega

theorem crcRun_lt {poly : Nat} (hp : poly < 2 ^ 32) (bs : Bytes) (c : Nat) (hc : c < 2 ^ 32) : crcRun poly bs c < 2 ^ 32 := by
  induction bs generalizing c with
  | nil => exact hc
  | cons b t ih => exact ih _ (crcBits_lt hp 8 _ (Nat.xor_lt_two_pow hc (Nat.lt_trans b.isLt (by decide))))

theorem crc32c_lt (bs : Bytes) : crc32c bs < 2 ^ 32 :=
  Nat.xor_lt_two_pow (crcRun_lt (by decide) bs _ (by decide)) (by decide)

/-- What a packet's CRC is wrong by when it leaves: nothing where it is sound, and all bits where it is bad and names none. -/
def RPkt.wrongBy (q : RPkt) : Nat := if q.bad then (if q.flip = 0 then 2 ^ 32 - 1 else q.flip) else 0

theorem RPkt.wrongBy_lt (q : RPkt) (h : q.flip < 2 ^ 32) : q.wrongBy < 2 ^ 32 := by
  unfold RPkt.wrongBy
  split
  · split
    · decide
    · exact h
  · decide

theorem RPkt.wrongBy_bne_zero (q : RPkt) : (q.wrongBy != 0) = q.bad := by
  unfold RPkt.wrongBy
  cases q.bad with
  | false => rfl
  | true =>
    by_cases hflip : q.flip = 0 <;> simp [hflip]

/-- The trailer of a packet (R608): the CRC as it leaves, and the poison mark. -/
def RPkt.trailer (q : RPkt) : Bytes :=
  leBytes 4 (q.hdr.crc q.pay ^^^ q.wrongBy) ++ leBytes 12 (q.poison.toNat + q.hdr.z / 2 ^ 18 * 2)

theorem RPkt.bytes_eq (q : RPkt) : q.bytes = q.hdr.bytes ++ (q.pay ++ q.trailer) := by
  unfold RPkt.bytes RPkt.trailer RPkt.wrongBy
  cases q.bad <;> simp

theorem RPkt.trailer_length (q : RPkt) : q.trailer.length = 16 := by
  simp only [RPkt.trailer, List.length_append, leBytes_length]

/-- The CRC in a trailer. -/
theorem RPkt.trailer_crc (q : RPkt) (h : q.flip < 2 ^ 32) : atLe q.trailer 0 4 = q.hdr.crc q.pay ^^^ q.wrongBy := by
  rw [RPkt.trailer, atLe_leBytes]
  exact Nat.mod_eq_of_lt (Nat.xor_lt_two_pow (crc32c_lt _) (q.wrongBy_lt h))

/-- The mark in a trailer, and the bits after it sent as 0. -/
theorem RPkt.trailer_marks (q : RPkt) (hz : q.hdr.z = 0) :
    (bitsOf (leNat q.trailer) 32 1 == 1) = q.poison ∧ bitsOf (leNat q.trailer) 33 95 = 0 := by
  have value : leNat q.trailer = (q.hdr.crc q.pay ^^^ q.wrongBy) % 2 ^ 32 + 2 ^ 32 * q.poison.toNat := by
    simp only [RPkt.trailer, leNat_append, leNat_leBytes, leBytes_length, hz]
    cases q.poison <;> rfl
  have low := Nat.mod_lt (q.hdr.crc q.pay ^^^ q.wrongBy) (show 0 < 2 ^ 32 by decide)
  simp only [value, bitsOf, Nat.shiftRight_eq_div_pow]
  cases q.poison with
  | false => simp only [Bool.toNat_false, beq_eq_false_iff_ne]; omega
  | true => simp only [Bool.toNat_true, beq_iff_eq]; omega

/-- Flipping bits keeps a number only where none is flipped. -/
theorem xor_eq_self_iff (c w : Nat) : c ^^^ w = c ↔ w = 0 := by
  refine ⟨fun h => ?_, fun h => by rw [h, Nat.xor_zero]⟩
  have twice := congrArg (c ^^^ ·) h
  rwa [← Nat.xor_assoc, Nat.xor_self, Nat.zero_xor] at twice

/-- A packet that leaves a port arrives at its peer as it left. -/
theorem arrive_bytes (q : RPkt) (port vc now : Nat) (hf : q.hdr.Fits) (hpay : q.pay.length = 16 * q.hdr.units)
    (hflip : q.flip < 2 ^ 32) : arrive { port := port, vc := vc, bytes := q.bytes } now =
      { port := some port, hdr := q.hdr, pay := q.pay, poison := q.poison, bad := q.bad, at_ := now, inReg := true, flip := q.wrongBy } := by
  have front : ∀ t : Bytes, (q.hdr.bytes ++ t).drop 32 = t := fun t => List.drop_left' q.hdr.bytes_length
  have header : hdrOf q.bytes = q.hdr := by rw [q.bytes_eq]; exact hdrOf_bytes hf _
  have payload : (q.bytes.drop 32).take (16 * q.hdr.units) = q.pay := by rw [q.bytes_eq, front]; exact List.take_left' hpay
  have trailer : q.bytes.drop (32 + 16 * q.hdr.units) = q.trailer := by
    rw [q.bytes_eq, ← List.drop_drop, front]; exact List.drop_left' hpay
  have size : q.bytes.length = 16 * q.hdr.units + 48 := by
    simp only [q.bytes_eq, List.length_append, q.hdr.bytes_length, hpay, q.trailer_length]; omega
  obtain ⟨mark, rest⟩ := q.trailer_marks hf.z
  have crc := q.trailer_crc hflip
  have wrong : (q.hdr.crc q.pay ^^^ q.wrongBy != q.hdr.crc q.pay) = q.bad := by
    rw [← q.wrongBy_bne_zero]
    exact Bool.eq_iff_iff.2 (bne_iff_ne.trans ((not_congr (xor_eq_self_iff _ _)).trans bne_iff_ne.symm))
  have difference : (q.hdr.crc q.pay ^^^ q.wrongBy) ^^^ q.hdr.crc q.pay = q.wrongBy := by
    rw [Nat.xor_comm _ q.wrongBy, Nat.xor_assoc, Nat.xor_self, Nat.xor_zero]
  unfold arrive
  simp only [header, payload, trailer, size, mark, rest, crc, wrong, difference, Nat.zero_mul, Nat.add_zero, bne_self_eq_false,
    Bool.false_or]

/-- Settles O54: the header by its words, the packet by its header, payload and trailer. -/
theorem packetBytesRoundTrip : Obligations.PacketBytesRoundTrip := by
  unfold Obligations.PacketBytesRoundTrip
  intro h ty vc esc sub hops dst src pkey job len rmode sop sync mcast addr aop asz seq proxy sval z
  have fits : h.Fits :=
    ⟨ty, vc, esc, sub, hops, dst, src, pkey, job, len, rmode, sop, sync, mcast, addr, aop, asz, seq, proxy, sval, z⟩
  refine ⟨h.bytes_length, by simpa using hdrOf_bytes fits [], ?_⟩
  rintro q port ch now rfl hpay hflip
  exact arrive_bytes q port ch now fits hpay hflip

end Sys2Proof.Machine

namespace Sys2Proof.Machine

/-- A command whose meaning is a change of the block. -/
theorem Dev.after_of_run (d : Dev) {c : Instr} {f : Dev → Dev} (h : ∀ s, exec c s = s.run f) : d.after c = (f d).settle := by
  unfold Dev.after
  rw [h]
  rfl

/-! ## S slots alone in their bundle (R158 to R170, R203 to R208, R217) -/

/-! ### What a slot alone in its bundle becomes -/

section Alone

variable {c : Instr} {d : Dev} {a : Slot} {ix opc : Nat} {ill : Bool} {tile : Option Nat}
  {work : Nat → SeqRegs → Except SlotFault (List SlotEff)}

/-- A legal slot with quiet effects that do not stall. -/
theorem becomes_of_effs {effs : List SlotEff} (hc : d.after c = (d.slot a ix opc ill tile work).settle) (h : d.aloneOn a = true)
    (hill : ill = false) (hw : work (d.slotCtx a) (d.slotRegs a) = .ok effs) (hq : effs.all SlotEff.quiet = true)
    (hs : effs.any (d.stalls a.cl (d.slotCtx a)) = false) :
    Becomes c d (d.issuedBy a fun e => effs.foldl (Dev.applyEff a.cl (d.slotCtx a) (d.slotRegs a).pc) e) := by
  subst hill
  exact becomes_of_after hc (d.slot_alone_quiet a ix opc tile work effs h hw hq hs)

/-- A slot with a decode fault (R161). -/
theorem traps_of_ill (hc : d.after c = (d.slot a ix opc ill tile work).settle) (h : d.alone a = true) (hill : ill = true) :
    Traps c d a 1 (slotBits a opc) ix 0 := by
  subst hill
  exact becomes_of_after hc (d.slot_alone_ill a ix opc tile work h)

/-- A legal slot with a precise fault of its own (R215). -/
theorem traps_of_exc {code info tr : Nat} (hc : d.after c = (d.slot a ix opc ill tile work).settle) (h : d.aloneOn a = true)
    (hill : ill = false) (hw : work (d.slotCtx a) (d.slotRegs a) = .error (.exc code info tr)) :
    Traps c d a code info ix tr := by
  subst hill
  exact becomes_of_after hc (d.slot_alone_exc a ix opc code info tr tile work h hw)

/-- An S slot with a decode fault. -/
theorem traps_of_sSlot_ill (hc : d.after c = (d.sSlot a opc ill work).settle) (h : d.alone a = true) (hill : ill = true) :
    Traps c d a 1 (slotBits a opc) 0 0 :=
  traps_of_ill (ix := 0) (opc := opc) (ill := ill) (tile := none) (work := work) hc h hill

theorem traps_of_write_ill {v : SeqRegs → Word} (hc : d.after c = (d.sWrite a opc ill v).settle) (h : d.alone a = true)
    (hill : ill = true) : Traps c d a 1 (slotBits a opc) 0 0 :=
  traps_of_sSlot_ill (opc := opc) (ill := ill) (work := fun _ r => .ok [.setS (opF a 17 5) (v r)]) hc h hill

/-- A legal S slot with a precise fault of its own. -/
theorem traps_of_sSlot_exc {code info tr : Nat} (hc : d.after c = (d.sSlot a opc ill work).settle) (h : d.aloneOn a = true)
    (hill : ill = false) (hw : work (d.slotCtx a) (d.slotRegs a) = .error (.exc code info tr)) :
    Traps c d a code info 0 tr :=
  traps_of_exc (ix := 0) (opc := opc) (ill := ill) (tile := none) (work := work) hc h hill hw

/-- A legal S slot with quiet effects that do not stall. -/
theorem becomes_of_sSlot {effs : List SlotEff} (hc : d.after c = (d.sSlot a opc ill work).settle) (h : d.aloneOn a = true)
    (hill : ill = false) (hw : work (d.slotCtx a) (d.slotRegs a) = .ok effs) (hq : effs.all SlotEff.quiet = true)
    (hs : effs.any (d.stalls a.cl (d.slotCtx a)) = false) :
    Becomes c d (d.issuedBy a fun e => effs.foldl (Dev.applyEff a.cl (d.slotCtx a) (d.slotRegs a).pc) e) :=
  becomes_of_effs (ix := 0) (opc := opc) (ill := ill) (tile := none) (work := work) hc h hill hw hq hs

/-- A legal S slot that writes a scalar register. -/
theorem setsS_of_write {v : SeqRegs → Word} (hc : d.after c = (d.sWrite a opc ill v).settle) (h : d.aloneOn a = true)
    (hill : ill = false) : SetsS c d a (v (d.slotRegs a)) :=
  becomes_of_sSlot (opc := opc) (ill := ill) (work := fun _ r => .ok [.setS (opF a 17 5) (v r)]) hc h hill rfl rfl rfl

/-- A legal S slot whose work is to write a scalar register. -/
theorem setsS_of_sSlot {v : Word} (hc : d.after c = (d.sSlot a opc ill work).settle) (h : d.aloneOn a = true)
    (hill : ill = false) (hw : work (d.slotCtx a) (d.slotRegs a) = .ok [.setS (opF a 17 5) v]) : SetsS c d a v :=
  becomes_of_sSlot (opc := opc) (ill := ill) (work := work) hc h hill hw rfl rfl

/-- A legal S slot that writes an address register. -/
theorem setsA_of_sSlot {v : SeqRegs → BitVec 48} (hc : d.after c = (d.sSlot a opc ill fun _ r => .ok [.setA (opF a 18 4) (v r)]).settle)
    (h : d.aloneOn a = true) (hill : ill = false) : SetsA c d a (v (d.slotRegs a)) :=
  becomes_of_sSlot (opc := opc) (ill := ill) (work := fun _ r => .ok [.setA (opF a 18 4) (v r)]) hc h hill rfl rfl rfl

/-- A legal S slot that writes a predicate. -/
theorem setsP_of_sSlot {v : SeqRegs → Bool} (hc : d.after c = (d.sSlot a opc ill fun _ r => .ok [.setP (opF a 19 3) (v r)]).settle)
    (h : d.aloneOn a = true) (hill : ill = false) : SetsP c d a (v (d.slotRegs a)) :=
  becomes_of_sSlot (opc := opc) (ill := ill) (work := fun _ r => .ok [.setP (opF a 19 3) (v r)]) hc h hill rfl rfl rfl

end Alone

/-- A slot that runs is alone in its bundle. -/
theorem Dev.alone_of_aloneOn {d : Dev} {a : Slot} (h : d.aloneOn a = true) : d.alone a = true := (Bool.and_eq_true_iff.1 h).1

/-! ### The meaning of each command, before its tables settle -/

section Meanings

variable (d : Dev) (a : Slot)

theorem after_sAddi : d.after (.sAddi a) = (d.sWrite a 2 false fun r => r.sr (opF a 12 5) + sext64 (opImm a 12)).settle := rfl
theorem after_sAndi : d.after (.sAndi a) = (d.sWrite a 3 false fun r => r.sr (opF a 12 5) &&& sext64 (opImm a 12)).settle := rfl
theorem after_sOri : d.after (.sOri a) = (d.sWrite a 4 false fun r => r.sr (opF a 12 5) ||| sext64 (opImm a 12)).settle := rfl
theorem after_sXori : d.after (.sXori a) = (d.sWrite a 5 false fun r => r.sr (opF a 12 5) ^^^ sext64 (opImm a 12)).settle := rfl
theorem after_sShli : d.after (.sShli a) = (d.sWrite a 6 (opF a 6 6 != 0) fun r => r.sr (opF a 12 5) <<< opF a 0 6).settle := rfl
theorem after_sShri : d.after (.sShri a) = (d.sWrite a 7 (opF a 6 6 != 0) fun r => r.sr (opF a 12 5) >>> opF a 0 6).settle := rfl
theorem after_sSrai : d.after (.sSrai a) =
    (d.sWrite a 8 (opF a 6 6 != 0) fun r => (r.sr (opF a 12 5)).sshiftRight (opF a 0 6)).settle := rfl
theorem after_sMovi : d.after (.sMovi a) = (d.sWrite a 9 false fun _ => sext64 (opImm a 17)).settle := rfl
theorem after_sMovk (hi : Bool) : d.after (.sMovk a hi) = (d.sWrite a (if hi then 0x0B else 0x0A) false fun r =>
    setField (r.sr (opF a 17 5)) (16 * (opF a 16 1 + if hi then 2 else 0)) 16 (opF a 0 16)).settle := rfl
theorem after_sAlu : d.after (.sAlu a) =
    (d.sWrite a 1 ((aluFn (opF a 0 7) 0 0).isNone || (aluUnary (opF a 0 7) && opF a 7 5 != 0)) fun r =>
      (aluFn (opF a 0 7) (r.sr (opF a 12 5)) (r.sr (opF a 7 5))).getD 0).settle := rfl
theorem after_sSel : d.after (.sSel a) = (d.sWrite a 0x11 (opF a 0 4 != 0) fun r =>
    if r.pr (opF a 4 3) then r.sr (opF a 12 5) else r.sr (opF a 7 5)).settle := rfl
theorem after_sMovs : d.after (.sMovs a) = (d.sWrite a 0x13 (opF a 0 13 != 0) fun r => (r.ar (opF a 13 4)).setWidth 64).settle := rfl
theorem after_sMova : d.after (.sMova a) =
    (d.sSlot a 0x12 (opF a 0 13 != 0) fun _ r => .ok [.setA (opF a 18 4) ((r.sr (opF a 13 5)).setWidth 48)]).settle := rfl
theorem after_sAaddi : d.after (.sAaddi a) =
    (d.sSlot a 0x14 false fun _ r => .ok [.setA (opF a 18 4) (r.ar (opF a 14 4) + BitVec.ofInt 48 (opImm a 14))]).settle := rfl
theorem after_sAadd : d.after (.sAadd a) = (d.sSlot a 0x15 (opF a 0 9 != 0) fun _ r =>
    .ok [.setA (opF a 18 4) (r.ar (opF a 14 4) + (r.sr (opF a 9 5)).setWidth 48)]).settle := rfl
theorem after_sCmp : d.after (.sCmp a) = (d.sSlot a 0x0E ((cmpFn (opF a 5 4) 0 0).isNone || opF a 0 5 != 0) fun _ r =>
    .ok [.setP (opF a 19 3) ((cmpFn (opF a 5 4) (r.sr (opF a 14 5)) (r.sr (opF a 9 5))).getD false)]).settle := rfl
theorem after_sCmpi : d.after (.sCmpi a) = (d.sSlot a 0x0F (cmpFn (opF a 10 4) 0 0).isNone fun _ r =>
    .ok [.setP (opF a 19 3) ((cmpFn (opF a 10 4) (r.sr (opF a 14 5)) (sext64 (opImm a 10))).getD false)]).settle := rfl
theorem after_sPop : d.after (.sPop a) =
    (d.sSlot a 0x10 ((popFn (opF a 10 3) false false).isNone || opF a 0 10 != 0 || (decide (5 ≤ opF a 10 3) && opF a 13 3 != 0))
      fun _ r => .ok [.setP (opF a 19 3) ((popFn (opF a 10 3) (r.pr (opF a 16 3)) (r.pr (opF a 13 3))).getD false)]).settle := rfl
theorem after_sLd (e : Ecc) : d.after (.sLd a e) = (d.sLd a e).settle := rfl
theorem after_sSt (lost : List (Nat × Nat)) : d.after (.sSt ⟨a, lost⟩) = (d.sSlot a 0x0D false fun x r =>
    match scalarCheck d x a.cl (memEa r a) (2 ^ opF a 11 2) 2 with
    | some f => .error f
    | none => .ok [if lost.isEmpty then .store (memEa r a) (leBytes (2 ^ opF a 11 2) (r.sr (opF a 17 5)).toNat)
        else .storeLosing 7 (memEa r a) (leBytes (2 ^ opF a 11 2) (r.sr (opF a 17 5)).toNat) lost]).settle := by
  exact d.after_of_run (f := fun d => d.sSlot a 0x0D false fun x r =>
    match scalarCheck d x a.cl (memEa r a) (2 ^ opF a 11 2) 2 with
    | some f => .error f
    | none => .ok [if lost.isEmpty then .store (memEa r a) (leBytes (2 ^ opF a 11 2) (r.sr (opF a 17 5)).toNat)
        else .storeLosing 7 (memEa r a) (leBytes (2 ^ opF a 11 2) (r.sr (opF a 17 5)).toNat) lost]) fun _ => rfl
theorem after_sCsrr : d.after (.sCsrr a) = (d.sSlot a 0x1A (opF a 0 3 != 0) fun _ _ =>
    if csrrForbidden (opF a 3 14 * 8) then .error (.exc 8 (opF a 3 14 * 8) 0)
    else .ok [.setS (opF a 17 5) (d.seqRead a.cl (opF a 3 14 * 8))]).settle := rfl
theorem after_sCsrw : d.after (.sCsrw a) = (d.sSlot a 0x1B (opF a 0 3 != 0) fun _ r =>
    if seqWritable (opF a 3 14 * 8) = 0 then .error (.exc 8 (opF a 3 14 * 8) 0)
    else .ok [.csrw (opF a 3 14 * 8) (r.sr (opF a 17 5) &&& BitVec.ofNat 64 (seqWritable (opF a 3 14 * 8)))]).settle := rfl
theorem after_sTrap : d.after (.sTrap a) =
    (d.sSlot a 0x1C (opF a 16 6 != 0) fun _ _ => .error (.exc 0x0C (opF a 0 16) 0)).settle := rfl

end Meanings

theorem bne_zero_of_eq {n : Nat} (hn : n = 0) : (n != 0) = false := by rw [hn]; rfl

/-! ### Immediate forms (R163) -/

/-- Settles O8: each form is a slot that writes one scalar register. -/
theorem scalarImmediateResults : Obligations.ScalarImmediateResults := by
  unfold Obligations.ScalarImmediateResults
  intro d a h
  exact ⟨(setsS_of_write (after_sAddi d a) h rfl :), (setsS_of_write (after_sAndi d a) h rfl :), (setsS_of_write (after_sOri d a) h rfl :),
    (setsS_of_write (after_sXori d a) h rfl :), (setsS_of_write (after_sMovi d a) h rfl :), (setsS_of_write (after_sMovk d a false) h rfl :),
    (setsS_of_write (after_sMovk d a true) h rfl :),
    fun hz => ⟨(setsS_of_write (after_sShli d a) h (bne_zero_of_eq hz) :), (setsS_of_write (after_sShri d a) h (bne_zero_of_eq hz) :),
      (setsS_of_write (after_sSrai d a) h (bne_zero_of_eq hz) :)⟩⟩

/-! ### Register forms (R163, R164, R166, R167) -/

/-- Whether a code of the tables of R164 is a function does not depend on the operands. -/
theorem aluFn_isNone (fn : Nat) (x y : Word) : (aluFn fn x y).isNone = (aluFn fn 0 0).isNone := by
  simp only [aluFn]
  split <;> simp only [Option.isNone]

theorem cmpFn_isNone (cond : Nat) (x y : Word) : (cmpFn cond x y).isNone = (cmpFn cond 0 0).isNone := by
  simp only [cmpFn]
  split <;> simp only [Option.isNone]

theorem popFn_isNone (fn : Nat) (x y : Bool) : (popFn fn x y).isNone = (popFn fn false false).isNone := by
  simp only [popFn]
  split <;> simp only [Option.isNone]

section RegisterForms

variable {d : Dev} {a : Slot} (h : d.aloneOn a = true)
include h

theorem setsS_sAlu {v : Word} (hv : aluFn (opF a 0 7) ((d.slotRegs a).sr (opF a 12 5)) ((d.slotRegs a).sr (opF a 7 5)) = some v)
    (hu : aluUnary (opF a 0 7) = true → opF a 7 5 = 0) : SetsS (.sAlu a) d a v := by
  have legal : ((aluFn (opF a 0 7) 0 0).isNone || (aluUnary (opF a 0 7) && opF a 7 5 != 0)) = false := by
    rw [← aluFn_isNone _ ((d.slotRegs a).sr (opF a 12 5)) ((d.slotRegs a).sr (opF a 7 5)), hv]
    cases hun : aluUnary (opF a 0 7) with
    | false => rfl
    | true => rw [hu hun]; rfl
  have writes := setsS_of_write (after_sAlu d a) h legal
  rwa [hv] at writes

theorem setsP_sCmp {b : Bool} (hb : cmpFn (opF a 5 4) ((d.slotRegs a).sr (opF a 14 5)) ((d.slotRegs a).sr (opF a 9 5)) = some b)
    (hz : opF a 0 5 = 0) : SetsP (.sCmp a) d a b := by
  have legal : ((cmpFn (opF a 5 4) 0 0).isNone || opF a 0 5 != 0) = false := by
    rw [← cmpFn_isNone _ ((d.slotRegs a).sr (opF a 14 5)) ((d.slotRegs a).sr (opF a 9 5)), hb, hz]
    rfl
  have writes := setsP_of_sSlot (after_sCmp d a) h legal
  rwa [hb] at writes

theorem setsP_sCmpi {b : Bool} (hb : cmpFn (opF a 10 4) ((d.slotRegs a).sr (opF a 14 5)) (sext64 (opImm a 10)) = some b) :
    SetsP (.sCmpi a) d a b := by
  have legal : (cmpFn (opF a 10 4) 0 0).isNone = false := by
    rw [← cmpFn_isNone _ ((d.slotRegs a).sr (opF a 14 5)) (sext64 (opImm a 10)), hb]
    rfl
  have writes := setsP_of_sSlot (after_sCmpi d a) h legal
  rwa [hb] at writes

theorem setsP_sPop {b : Bool} (hb : popFn (opF a 10 3) ((d.slotRegs a).pr (opF a 16 3)) ((d.slotRegs a).pr (opF a 13 3)) = some b)
    (hz : opF a 0 10 = 0) (hu : 5 ≤ opF a 10 3 → opF a 13 3 = 0) : SetsP (.sPop a) d a b := by
  have legal : ((popFn (opF a 10 3) false false).isNone || opF a 0 10 != 0 || (decide (5 ≤ opF a 10 3) && opF a 13 3 != 0)) = false := by
    rw [← popFn_isNone _ ((d.slotRegs a).pr (opF a 16 3)) ((d.slotRegs a).pr (opF a 13 3)), hb, hz]
    by_cases h5 : 5 ≤ opF a 10 3
    · rw [hu h5]; simp
    · simp [h5]
  have writes := setsP_of_sSlot (after_sPop d a) h legal
  rwa [hb] at writes

end RegisterForms

/-- Settles O9: one slot that writes one register for each form. -/
theorem scalarRegisterResults : Obligations.ScalarRegisterResults := by
  unfold Obligations.ScalarRegisterResults
  intro d a h
  exact ⟨fun v hv hu => setsS_sAlu h hv hu, fun hz => (setsS_of_write (after_sSel d a) h (bne_zero_of_eq hz) :),
    fun hz => (setsS_of_write (after_sMovs d a) h (bne_zero_of_eq hz) :), fun hz => (setsA_of_sSlot (after_sMova d a) h (bne_zero_of_eq hz) :),
    (setsA_of_sSlot (after_sAaddi d a) h rfl :), fun hz => (setsA_of_sSlot (after_sAadd d a) h (bne_zero_of_eq hz) :),
    fun b hb hz => setsP_sCmp h hb hz, fun b hb => setsP_sCmpi h hb, fun b hb hz hu => setsP_sPop h hb hz hu⟩

/-! ### Loads and stores (R168, R169) -/

/-- An aligned access that its segment permits raises neither ALIGN nor ADDR. -/
theorem scalarCheck_ok {d : Dev} {x c ea n perm : Nat} (hal : ea % n = 0) (hok : d.localCheck x c ea n perm = 0) :
    scalarCheck d x c ea n perm = none := by
  simp only [scalarCheck, hal, hok, ne_eq, not_true, if_false]

/-- A load that finds no error is the slot alone. -/
theorem Dev.sLd_clean (d : Dev) (a : Slot) : d.sLd a .clean = d.sSlot a 0x0C false fun x r =>
    match scalarCheck d x a.cl (memEa r a) (2 ^ opF a 11 2) 1 with
    | some f => .error f
    | none => if d.poisoned (spadAddr a.cl (memEa r a)) (2 ^ opF a 11 2) then .error .poison
      else .ok [.setS (opF a 17 5) (BitVec.ofNat 64 (leNat (d.localRead a.cl (memEa r a) (2 ^ opF a 11 2))))] := by
  unfold Dev.sLd Dev.eccEvent
  dsimp only
  rw [ite_self] <;> rfl

section LoadsAndStores

variable {d : Dev} {a : Slot} (h : d.aloneOn a = true) (hal : memEa (d.slotRegs a) a % 2 ^ opF a 11 2 = 0)
include h hal

theorem setsS_sLd (hok : d.localCheck (d.slotCtx a) a.cl (memEa (d.slotRegs a) a) (2 ^ opF a 11 2) 1 = 0)
    (hp : d.poisoned (spadAddr a.cl (memEa (d.slotRegs a) a)) (2 ^ opF a 11 2) = false) :
    SetsS (.sLd a .clean) d a (BitVec.ofNat 64 (leNat (d.read (spadAddr a.cl (memEa (d.slotRegs a) a)) (2 ^ opF a 11 2)))) := by
  refine setsS_of_sSlot ((after_sLd d a .clean).trans (congrArg Dev.settle (d.sLd_clean a))) h rfl ?_
  simp only [scalarCheck_ok hal hok, hp, Bool.false_eq_true, if_false, Dev.localRead]

theorem becomes_sSt (lost : List (Nat × Nat)) (hok : d.localCheck (d.slotCtx a) a.cl (memEa (d.slotRegs a) a) (2 ^ opF a 11 2) 2 = 0) :
    let ea := memEa (d.slotRegs a) a
    let bs := leBytes (2 ^ opF a 11 2) ((d.slotRegs a).sr (opF a 17 5)).toNat
    Becomes (.sSt ⟨a, lost⟩) d (d.issuedBy a fun e => Dev.applyEff a.cl (d.slotCtx a) (d.slotRegs a).pc e
      (if lost.isEmpty then .store ea bs else .storeLosing 7 ea bs lost)) := by
  refine becomes_of_sSlot (effs := [_]) (after_sSt d a lost) h rfl ?_ ?_ ?_
  · simp only [scalarCheck_ok hal hok]
  · cases lost <;> rfl
  · cases lost <;> rfl

end LoadsAndStores

/-- Settles O12. -/
theorem scalarLoadsAndStores : Obligations.ScalarLoadsAndStores := by
  unfold Obligations.ScalarLoadsAndStores
  intro d a h n ea hal
  refine ⟨setsS_sLd h hal, fun hok => ⟨becomes_sSt h hal [] hok, fun lost hlost => ?_⟩⟩
  cases lost with
  | nil => exact absurd rfl hlost
  | cons w ws => exact becomes_sSt h hal (w :: ws) hok

/-! ### Registers and traps from the stream (R203 to R208) -/

/-- Settles O14: the write of VEC_SRIDX keeps its bundle's order (R206), every other effect is quiet. -/
theorem sequencerRegisterAccess : Obligations.SequencerRegisterAccess := by
  unfold Obligations.SequencerRegisterAccess
  intro d a h off
  refine ⟨fun hz hr => ?read, fun hz hr => ?readForbidden, fun hz hw hne => ?write, fun hz hoff => ?writeIdx, fun hz hw => ?writeForbidden,
    fun hz => ?trap⟩
  case read =>
    exact setsS_of_sSlot (after_sCsrr d a) h (bne_zero_of_eq hz) (if_neg (by rw [hr]; exact Bool.false_ne_true))
  case readForbidden => exact traps_of_sSlot_exc (after_sCsrr d a) h (bne_zero_of_eq hz) (if_pos hr)
  case write =>
    refine becomes_of_sSlot (after_sCsrw d a) h (bne_zero_of_eq hz) (if_neg hw) ?_ rfl
    exact Bool.and_eq_true_iff.2 ⟨bne_iff_ne.2 hne, rfl⟩
  case writeIdx =>
    have place : 0x1000000 + a.cl * 0x20000 + 0x10028 = Reg.VEC_SRIDX a.cl := by simp only [Reg.VEC_SRIDX]; omega
    have all : ∀ v : Word, v &&& BitVec.ofNat 64 (seqWritable 0x10028) = v := fun v => BitVec.and_allOnes
    refine becomes_of_after (after_sCsrw d a) ?_
    rw [bne_zero_of_eq hz, show opF a 3 14 * 8 = 0x10028 from hoff]
    refine (d.slot_alone a 0 0x1B none _ [.csrw 0x10028 ((d.slotRegs a).sr (opF a 17 5))] h ?_ rfl rfl rfl rfl fun _ _ => rfl).trans ?_
    · exact congrArg (fun v => Except.ok [SlotEff.csrw 0x10028 v]) (all _)
    · exact congrArg (fun o => d.issuedBy a fun e => e.setReg o ((d.slotRegs a).sr (opF a 17 5))) place
  case writeForbidden => exact traps_of_sSlot_exc (after_sCsrw d a) h (bne_zero_of_eq hz) (if_pos hw)
  case trap => exact traps_of_sSlot_exc (after_sTrap d a) h (bne_zero_of_eq hz) rfl

/-! ### Decode faults (R161, R214) -/

/-- Opcode 0 of a slot, whose operand bits are to be 0. -/
theorem Dev.sNop_zero (d : Dev) (a : Slot) {slot : Nat} (h : slot < 4) :
    d.sNop a slot 0 = d.slot a slot 0 (a.args != 0) none fun _ _ => .ok [] := by
  simp [Dev.sNop, Nat.not_le.2 h]

/-- An opcode that its slot does not define. -/
theorem Dev.sNop_undefined (d : Dev) (a : Slot) {slot opc : Nat} (hslot : slot < 4) (hopc : opc < 64) (hne : opc ≠ 0)
    (hundef : opcDefined slot opc = false) : d.sNop a slot opc = d.slot a slot opc true none fun _ _ => .ok [] := by
  have ill : (opc != 0 || a.args != 0) = true := by rw [bne_iff_ne.2 hne]; rfl
  rw [Dev.sNop, if_neg (by simp [Nat.not_le.2 hslot, Nat.not_le.2 hopc, hundef]), ill]

theorem after_syncEndstep (d : Dev) (a : Slot) :
    d.after (.syncEndstep a) = (d.slot a 3 7 (a.args != 0) none fun _ _ => .ok [.endstep]).settle := rfl

/-- Settles O15: each is a slot whose operand bits are no instruction. -/
theorem decodeFaultsAreIllegal : Obligations.DecodeFaultsAreIllegal := by
  unfold Obligations.DecodeFaultsAreIllegal
  intro d a h
  refine ⟨fun hf => traps_of_write_ill (after_sAlu d a) h (by rw [hf]; rfl), fun hn => ⟨traps_of_write_ill (after_sShli d a) h (bne_iff_ne.2 hn),
    traps_of_write_ill (after_sShri d a) h (bne_iff_ne.2 hn), traps_of_write_ill (after_sSrai d a) h (bne_iff_ne.2 hn)⟩,
    fun hn => ⟨traps_of_sSlot_ill (after_sLpop d a) h (bne_iff_ne.2 hn), traps_of_ill (after_syncEndstep d a) h (bne_iff_ne.2 hn),
      fun slot hslot => ?noOp⟩,
    fun hz => traps_of_sSlot_ill (after_sLoop d a) h (beq_iff_eq.2 hz), fun slot opc hslot hopc hne hundef => ?undefined⟩
  case noOp =>
    exact traps_of_ill ((after_sNop d a slot 0).trans (congrArg Dev.settle (d.sNop_zero a hslot))) h (bne_iff_ne.2 hn)
  case undefined =>
    exact traps_of_ill ((after_sNop d a slot opc).trans (congrArg Dev.settle (d.sNop_undefined a hslot hopc hne hundef))) h rfl

end Sys2Proof.Machine

namespace Sys2Proof.Machine

/-! ## Sync instructions (R193 to R198) -/

section Sync

variable (d : Dev) (a : Slot)

theorem after_syncInc : d.after (.syncInc a) = (d.syiSlot a 1 true fun o _ => .sync o 1).settle := rfl
theorem after_syncAdd : d.after (.syncAdd a) = (d.syiSlot a 3 false .sync).settle := rfl
theorem after_syncWait : d.after (.syncWait a) = (d.syiSlot a 4 false .wait).settle := rfl
theorem after_syncIncr : d.after (.syncIncr a) = (d.syrSlot a 2 true fun o _ => .sync o 1).settle := rfl
theorem after_syncAddr : d.after (.syncAddr a) = (d.syrSlot a 6 false .sync).settle := rfl
theorem after_syncWaitr : d.after (.syncWaitr a) = (d.syrSlot a 5 false .wait).settle := rfl

variable {d a} (h : d.aloneOn a = true)
include h

/-- A slot whose one effect sends an update. -/
theorem Dev.slot_alone_sync {opc o v : Nat} {ill : Bool} {work : Nat → SeqRegs → Except SlotFault (List SlotEff)} (hill : ill = false)
    (hw : work (d.slotCtx a) (d.slotRegs a) = .ok [.sync o v]) :
    d.slot a 3 opc ill none work = d.issuedBy a fun d =>
      { d with syncQ := d.syncQ ++ [{ ctx := d.slotCtx a, obj := o, val := v, issuer := some (a.cl, (d.slotRegs a).pc) }] } := by
  subst hill
  exact d.slot_alone_quiet a 3 opc none work [.sync o v] h hw rfl rfl

/-- A slot whose one effect comes after the end of its bundle. -/
theorem Dev.slot_alone_finish {opc : Nat} {ill : Bool} {work : Nat → SeqRegs → Except SlotFault (List SlotEff)} {e : SlotEff} (hill : ill = false)
    (hw : work (d.slotCtx a) (d.slotRegs a) = .ok [e]) (he : (∃ o thr, e = .wait o thr) ∨ e = .endstep) :
    d.slot a 3 opc ill none work =
      (let next := nextPc (d.slotRegs a).pc [] (d.slotRegs a).loops
       Dev.finish a.cl (d.slotCtx a) (d.slotRegs a).pc next.1
        (d.bundleEnd a.cl (d.slotCtx a) (d.slotRegs a).pc next false) e) := by
  subst hill
  rw [d.slot_alone_issue a 3 opc none work [e] h hw]
  obtain ⟨o, thr, rfl⟩ | rfl := he <;> exact d.issueBundle_one _ _ _ _ _ _ rfl

end Sync

theorem bor_false_of {n m : Nat} {b : Bool} (hn : n = 0) (hm : b = true → m = 0) : (n != 0 || (b && m != 0)) = false := by
  cases b with
  | false => rw [hn]; rfl
  | true => rw [hn, hm rfl]; rfl

section SyncForms

variable {c : Instr} {d : Dev} {a : Slot} {opc : Nat} {zero : Bool} {eff : Nat → Nat → SlotEff} (h : d.aloneOn a = true)
include h

/-- The immediate form of an update (R193). -/
theorem sends_of_syi {o v : Nat} (hc : d.after c = (d.syiSlot a opc zero eff).settle) (hi : opF a 21 1 = 0)
    (hr : zero = true → opF a 16 5 = 0) (he : eff (opF a 0 16) (fieldOf ((d.slotRegs a).sr (opF a 16 5)) 0 32) = .sync o v) :
    Becomes c d (d.issuedBy a fun d =>
      { d with syncQ := d.syncQ ++ [{ ctx := d.slotCtx a, obj := o, val := v, issuer := some (a.cl, (d.slotRegs a).pc) }] }) :=
  becomes_of_after hc (Dev.slot_alone_sync (opc := opc) (ill := opF a 21 1 != 0 || (zero && opF a 16 5 != 0))
    (work := fun _ r => .ok [eff (opF a 0 16) (fieldOf (r.sr (opF a 16 5)) 0 32)]) h (bor_false_of hi hr) (congrArg (Except.ok [·]) he))

/-- The register form of an update. -/
theorem sends_of_syr {o v : Nat} (hc : d.after c = (d.syrSlot a opc zero eff).settle) (hi : opF a 0 12 = 0)
    (hr : zero = true → opF a 12 5 = 0)
    (he : eff (fieldOf ((d.slotRegs a).sr (opF a 17 5)) 0 16) (fieldOf ((d.slotRegs a).sr (opF a 12 5)) 0 32) = .sync o v) :
    Becomes c d (d.issuedBy a fun d =>
      { d with syncQ := d.syncQ ++ [{ ctx := d.slotCtx a, obj := o, val := v, issuer := some (a.cl, (d.slotRegs a).pc) }] }) :=
  becomes_of_after hc (Dev.slot_alone_sync (opc := opc) (ill := opF a 0 12 != 0 || (zero && opF a 12 5 != 0))
    (work := fun _ r => .ok [eff (fieldOf (r.sr (opF a 17 5)) 0 16) (fieldOf (r.sr (opF a 12 5)) 0 32)]) h (bor_false_of hi hr)
    (congrArg (Except.ok [·]) he))

/-- The immediate form of a wait (R195). -/
theorem waits_of_syi (hc : d.after c = (d.syiSlot a opc false .wait).settle) (hi : opF a 21 1 = 0) :
    Becomes c d (let next := nextPc (d.slotRegs a).pc [] (d.slotRegs a).loops
      (d.bundleEnd a.cl (d.slotCtx a) (d.slotRegs a).pc next false).startWait a.cl (d.slotCtx a) (opF a 0 16)
        (fieldOf ((d.slotRegs a).sr (opF a 16 5)) 0 32) (d.slotRegs a).pc next.1) :=
  becomes_of_after hc (Dev.slot_alone_finish (opc := opc) (ill := opF a 21 1 != 0 || (false && opF a 16 5 != 0))
    (work := fun _ r => .ok [.wait (opF a 0 16) (fieldOf (r.sr (opF a 16 5)) 0 32)]) h (bor_false_of hi fun e => (Bool.false_ne_true e).elim) rfl
    (.inl ⟨_, _, rfl⟩))

/-- The register form of a wait. -/
theorem waits_of_syr (hc : d.after c = (d.syrSlot a opc false .wait).settle) (hi : opF a 0 12 = 0) :
    Becomes c d (let next := nextPc (d.slotRegs a).pc [] (d.slotRegs a).loops
      (d.bundleEnd a.cl (d.slotCtx a) (d.slotRegs a).pc next false).startWait a.cl (d.slotCtx a)
        (fieldOf ((d.slotRegs a).sr (opF a 17 5)) 0 16) (fieldOf ((d.slotRegs a).sr (opF a 12 5)) 0 32) (d.slotRegs a).pc next.1) :=
  becomes_of_after hc (Dev.slot_alone_finish (opc := opc) (ill := opF a 0 12 != 0 || (false && opF a 12 5 != 0))
    (work := fun _ r => .ok [.wait (fieldOf (r.sr (opF a 17 5)) 0 16) (fieldOf (r.sr (opF a 12 5)) 0 32)]) h
    (bor_false_of hi fun e => (Bool.false_ne_true e).elim) rfl (.inl ⟨_, _, rfl⟩))

/-- The end of the stream (R198). -/
theorem becomes_syncEndstep (hz : a.args = 0) :
    Becomes (.syncEndstep a) d ((d.bundleEnd a.cl (d.slotCtx a) (d.slotRegs a).pc
      (nextPc (d.slotRegs a).pc [] (d.slotRegs a).loops) false).endStream a.cl (d.slotCtx a)) :=
  becomes_of_after (after_syncEndstep d a) (Dev.slot_alone_finish (opc := 7) (ill := a.args != 0) (work := fun _ _ => .ok [.endstep]) h
    (by rw [hz]; rfl) rfl (.inr rfl))

end SyncForms

section Waits

variable {d : Dev} {c x y o thr pc pc' : Nat}

/-- A wait on an object of another context (R198). -/
theorem Dev.startWait_foreign (h : d.owns x o = false) : d.startWait c x o thr pc pc' = d.seqExc c x 0x10 o 3 0 pc false false 0 := by
  simp only [Dev.startWait, h, Bool.not_false, if_true]

/-- A wait on an overflowed object. -/
theorem Dev.startWait_ovf (h : d.owns x o = true) (hv : (d.obj o).ovf = true) :
    d.startWait c x o thr pc pc' = d.seqExc c x 0x11 o 3 0 pc' true false 0 := by
  simp only [Dev.startWait, h, hv, Bool.not_true, Bool.false_eq_true, if_false, if_true]

/-- A wait with threshold 0 passes. -/
theorem Dev.startWait_zero (h : d.owns x o = true) (hv : (d.obj o).ovf = false) : d.startWait c x o 0 pc pc' = d := by
  simp only [Dev.startWait, h, hv, Bool.not_true, Bool.false_eq_true, if_false, if_true]

/-- A wait with a threshold stalls its sequencer. -/
theorem Dev.startWait_stalls (h : d.owns x o = true) (hv : (d.obj o).ovf = false) (ht : 0 < thr) :
    d.startWait c x o thr pc pc' =
      d.modClu c fun k => { k with seq := .waiting, wait := some (o, thr), waitOk := decide (thr ≤ (d.obj o).count.toNat) } := by
  simp only [Dev.startWait, h, hv, Bool.not_true, Bool.false_eq_true, if_false, Nat.ne_of_gt ht]

end Waits

/-- Settles O17: one slot with one effect, which for a wait and the end of the stream follows the end of the bundle. -/
theorem syncInstructions : Obligations.SyncInstructions := by
  unfold Obligations.SyncInstructions
  intro d a h
  have noZero : ∀ {p : Prop}, false = true → p := fun e => (Bool.false_ne_true e).elim
  refine ⟨fun hi hr => sends_of_syi h (after_syncInc d a) hi (fun _ => hr) rfl,
    fun hi => ⟨sends_of_syi h (after_syncAdd d a) hi noZero rfl, waits_of_syi h (after_syncWait d a) hi⟩,
    fun hi hr => sends_of_syr h (after_syncIncr d a) hi (fun _ => hr) rfl,
    fun hi => ⟨sends_of_syr h (after_syncAddr d a) hi noZero rfl, waits_of_syr h (after_syncWaitr d a) hi⟩,
    becomes_syncEndstep h, ?_⟩
  intro e c y o thr pc pc'
  exact ⟨Dev.startWait_foreign, Dev.startWait_ovf, fun hx hv => ⟨Dev.startWait_zero hx hv, Dev.startWait_stalls hx hv⟩⟩

/-! ## Gathered slots (R159, R189, R202) -/

section Gathered

variable {c : Instr} {d : Dev} {a : Slot} {ix opc : Nat} {ill : Bool} {tile : Option Nat}
  {work : Nat → SeqRegs → Except SlotFault (List SlotEff)}

/-- A slot that comes where its sequencer may not issue. -/
theorem becomes_of_idle (hc : d.after c = (d.slot a ix opc ill tile work).settle) (h : d.mayIssue a.cl = false) : Becomes c d d :=
  becomes_of_after hc (d.slot_idle a ix opc ill tile work h)

/-- A slot that does not close its bundle, the first of it, joins the gathered slots where it does not stall. -/
theorem joins_of_slot (hc : d.after c = (d.slot a ix opc ill tile work).settle) (hm : d.mayIssue a.cl = true) (hl : a.last = false)
    (hp : (d.slotRegs a).pc < d.imageLen (d.slotCtx a) a.cl) (hg : (d.clu a.cl).staged = [])
    (hs : ∀ effs, work (d.slotCtx a) (d.slotRegs a) = .ok effs → effs.any (d.stalls a.cl (d.slotCtx a)) = false) :
    ∃ r : SlotRec, r.slot = ix ∧ r.bits = slotBits a opc ∧
      Becomes c d (d.modClu a.cl fun k => { k with staged := slotInsert r (d.clu a.cl).staged }) := by
  obtain ⟨r, hix, hbits, joined⟩ := d.slot_gathers a ix opc ill tile work hm (by rw [hg]; rfl) hp hl hs
  exact ⟨r, hix, hbits, becomes_of_after hc joined⟩

/-- A legal, enabled slot that stalls: where it does not close its bundle it is not gathered. -/
theorem Dev.slot_stalls {effs : List SlotEff} (hm : d.mayIssue a.cl = true) (hl : a.last = false) (hg : (d.clu a.cl).staged = [])
    (hp : (d.slotRegs a).pc < d.imageLen (d.slotCtx a) a.cl) (he : slotEnabled (d.slotRegs a) a = true) (hill : ill = false)
    (hw : work (d.slotCtx a) (d.slotRegs a) = .ok effs) (hs : effs.any (d.stalls a.cl (d.slotCtx a)) = true) :
    d.slot a ix opc ill tile work = d := by
  have inside : ¬ d.imageLen (d.slotCtx a) a.cl ≤ (d.slotRegs a).pc := Nat.not_le.2 hp
  unfold Dev.slotRegs Dev.slotCtx at *
  simp only [Dev.slot, hm, hg, inside, hl, he, hill, hw, hs, List.any_nil, Bool.not_true, Bool.or_self, Bool.false_eq_true, if_false, if_true]

/-- A bundle of one slot that stalls issues nothing, and its slot comes again (R189, R202). -/
theorem Dev.slot_alone_stalls {effs : List SlotEff} (h : d.aloneOn a = true) (hill : ill = false)
    (hw : work (d.slotCtx a) (d.slotRegs a) = .ok effs) (hs : (issueOrder effs).any (d.stalls a.cl (d.slotCtx a)) = true) :
    d.slot a ix opc ill tile work = d.modClu a.cl fun k => { k with staged := [] } := by
  have faultless : slotFaultIn [{ slot := ix, bits := slotBits a opc, tile := tile, fault := none, effs := effs }]
      { slot := ix, bits := slotBits a opc, tile := tile, fault := none, effs := effs } = none := by
    by_cases h2 : ix = 2 <;> simp [slotFaultIn, h2]
  subst hill
  rw [d.slot_alone_issue a ix opc tile work effs h hw]
  simp only [Dev.issueBundle, List.filter_cons, faultless, List.filter_nil, List.flatMap_cons, List.flatMap_nil, List.append_nil,
    Option.isSome_none, Bool.false_eq_true, if_false, hs, if_true]

end Gathered

section VecHeld

variable {d : Dev} {a : Slot} (held : d.vecHeld a.cl = true) (opc : Nat)
include held

/-- A V-slot instruction stalls while a vx.run or vx.wmax is queued or runs (R189). -/
theorem Dev.vecEffs_held : (d.vecEffs (d.slotCtx a) a.cl opc a).any (d.stalls a.cl (d.slotCtx a)) = true := by
  unfold Dev.vecEffs
  simp only [List.cons_append, List.any_cons, Dev.stalls, held, Bool.true_or]

end VecHeld

theorem after_vxAdd (d : Dev) (a : Slot) : d.after (.vxAdd a) = (d.vSlot a 1).settle := rfl

theorem after_vxLdt (d : Dev) (a : Slot) : d.after (.vxLdt a) = (d.slot a 3 8 false (some (opF a 16 6)) fun x r =>
    match rangeCheck d x a.cl (tileEa r a) 256 4096 1 with
    | some f => .error f
    | none =>
      if d.poisoned (spadAddr a.cl (tileEa r a)) 4096 then .error .poison
      else .ok [.useVec, .setTile (opF a 16 6) (tileOfBytes (d.localRead a.cl (tileEa r a) 4096))]).settle := by
  exact Dev.after_of_run d (f := fun d => d.slot a 3 8 false (some (opF a 16 6)) fun x r =>
    match rangeCheck d x a.cl (tileEa r a) 256 4096 1 with
    | some f => .error f
    | none =>
      if d.poisoned (spadAddr a.cl (tileEa r a)) 4096 then .error .poison
      else .ok [.useVec, .setTile (opF a 16 6) (tileOfBytes (d.localRead a.cl (tileEa r a) 4096))]) fun _ => rfl

section JoinForms

variable {c : Instr} {d : Dev} {a : Slot} {opc : Nat} (hm : d.mayIssue a.cl = true) (hl : a.last = false)
  (hp : (d.slotRegs a).pc < d.imageLen (d.slotCtx a) a.cl) (hg : (d.clu a.cl).staged = [])
include hm hl hp hg

/-- An S slot whose effects never stall joins the gathered slots. -/
theorem joins_of_sSlot {ill : Bool} {work : Nat → SeqRegs → Except SlotFault (List SlotEff)} (hc : d.after c = (d.sSlot a opc ill work).settle)
    (hs : ∀ effs, work (d.slotCtx a) (d.slotRegs a) = .ok effs → effs.any (d.stalls a.cl (d.slotCtx a)) = false) :
    ∃ r : SlotRec, r.slot = 0 ∧ r.bits = slotBits a opc ∧
      Becomes c d (d.modClu a.cl fun k => { k with staged := slotInsert r (d.clu a.cl).staged }) :=
  joins_of_slot (ix := 0) (opc := opc) (ill := ill) (tile := none) (work := work) hc hm hl hp hg hs

theorem joins_sAddi : ∃ r : SlotRec, r.slot = 0 ∧ r.bits = slotBits a 2 ∧
    Becomes (.sAddi a) d (d.modClu a.cl fun k => { k with staged := slotInsert r (d.clu a.cl).staged }) :=
  joins_of_sSlot (opc := 2) (ill := false) (work := fun _ r => .ok [.setS (opF a 17 5) (r.sr (opF a 12 5) + sext64 (opImm a 12))]) hm hl hp hg
    (after_sAddi d a) fun effs he => by cases he; rfl

/-- A store gives one effect or a fault. -/
theorem joins_sSt (lost : List (Nat × Nat)) : ∃ r : SlotRec, r.slot = 0 ∧ r.bits = slotBits a 0x0D ∧
    Becomes (.sSt ⟨a, lost⟩) d (d.modClu a.cl fun k => { k with staged := slotInsert r (d.clu a.cl).staged }) :=
  joins_of_sSlot hm hl hp hg (after_sSt d a lost) fun effs he => by
    split at he
    · cases he
    · cases he
      split <;> rfl

/-- A branch gives one effect or a fault. -/
theorem joins_sBr : ∃ r : SlotRec, r.slot = 0 ∧ r.bits = slotBits a 0x16 ∧
    Becomes (.sBr a) d (d.modClu a.cl fun k => { k with staged := slotInsert r (d.clu a.cl).staged }) :=
  joins_of_sSlot hm hl hp hg (after_sBr d a) fun effs he => by
    rw [Dev.branchTo] at he
    split at he
    · cases he
    · cases he
      rfl

theorem joins_syncInc : ∃ r : SlotRec, r.slot = 3 ∧ r.bits = slotBits a 1 ∧
    Becomes (.syncInc a) d (d.modClu a.cl fun k => { k with staged := slotInsert r (d.clu a.cl).staged }) :=
  joins_of_slot (ix := 3) (opc := 1) (ill := opF a 21 1 != 0 || (true && opF a 16 5 != 0)) (tile := none)
    (work := fun _ _ => .ok [.sync (opF a 0 16) 1]) (after_syncInc d a) hm hl hp hg fun effs he => by cases he; rfl

theorem joins_syncEndstep : ∃ r : SlotRec, r.slot = 3 ∧ r.bits = slotBits a 7 ∧
    Becomes (.syncEndstep a) d (d.modClu a.cl fun k => { k with staged := slotInsert r (d.clu a.cl).staged }) :=
  joins_of_slot (ix := 3) (opc := 7) (ill := a.args != 0) (tile := none) (work := fun _ _ => .ok [.endstep]) (after_syncEndstep d a) hm hl hp hg
    fun effs he => by cases he; rfl

variable (free : d.vecHeld a.cl = false)
include free

theorem joins_vxAdd : ∃ r : SlotRec, r.slot = 2 ∧ r.bits = slotBits a 1 ∧
    Becomes (.vxAdd a) d (d.modClu a.cl fun k => { k with staged := slotInsert r (d.clu a.cl).staged }) :=
  joins_of_slot (ix := 2) (opc := 1) (ill := vecIll 1 (opF a 0 4) (opF a 10 6) (opF a 4 6)) (tile := some (opF a 16 6))
    (work := fun x _ => .ok (d.vecEffs x a.cl 1 a)) (after_vxAdd d a) hm hl hp hg
    fun effs he => by cases he; exact d.vecEffs_stalls _ _ _ _ free

/-- A tile load uses the vector engine alone. -/
theorem joins_vxLdt : ∃ r : SlotRec, r.slot = 3 ∧ r.bits = slotBits a 8 ∧
    Becomes (.vxLdt a) d (d.modClu a.cl fun k => { k with staged := slotInsert r (d.clu a.cl).staged }) :=
  joins_of_slot (after_vxLdt d a) hm hl hp hg fun effs he => by
    split at he
    · cases he
    · split at he
      · cases he
      · cases he
        simp only [List.any_cons, List.any_nil, Dev.stalls, free, Bool.or_self]

end JoinForms

section HeldForms

variable {d : Dev} {a : Slot} (held : d.vecHeld a.cl = true) (legal : vecIll 1 (opF a 0 4) (opF a 10 6) (opF a 4 6) = false)
include held legal

theorem vxAdd_waits (hm : d.mayIssue a.cl = true) (hl : a.last = false) (hp : (d.slotRegs a).pc < d.imageLen (d.slotCtx a) a.cl)
    (hg : (d.clu a.cl).staged = []) (he : slotEnabled (d.slotRegs a) a = true) : Becomes (.vxAdd a) d d :=
  becomes_of_after (after_vxAdd d a) (Dev.slot_stalls (ix := 2) (opc := 1) (tile := some (opF a 16 6))
    (work := fun x _ => .ok (d.vecEffs x a.cl 1 a)) hm hl hg hp he legal rfl (d.vecEffs_held held 1))

theorem vxAdd_alone_waits (h : d.aloneOn a = true) : Becomes (.vxAdd a) d (d.modClu a.cl fun k => { k with staged := [] }) :=
  becomes_of_after (after_vxAdd d a) (Dev.slot_alone_stalls (ix := 2) (opc := 1) (tile := some (opF a 16 6))
    (work := fun x _ => .ok (d.vecEffs x a.cl 1 a)) h legal rfl
    (by rw [issueOrder_quiet _ (d.vecEffs_quiet _ _ _ _)]; exact d.vecEffs_held held 1))

end HeldForms

section IdleForms

variable {d : Dev} {a : Slot} (h : d.mayIssue a.cl = false)
include h

theorem idle_of_sSlot {c : Instr} {opc : Nat} {ill : Bool} {work : Nat → SeqRegs → Except SlotFault (List SlotEff)}
    (hc : d.after c = (d.sSlot a opc ill work).settle) : Becomes c d d :=
  becomes_of_idle (ix := 0) (opc := opc) (ill := ill) (tile := none) (work := work) hc h

theorem sAddi_idle : Becomes (.sAddi a) d d :=
  idle_of_sSlot (opc := 2) (ill := false) (work := fun _ r => .ok [.setS (opF a 17 5) (r.sr (opF a 12 5) + sext64 (opImm a 12))]) h
    (after_sAddi d a)

theorem vxAdd_idle : Becomes (.vxAdd a) d d :=
  becomes_of_idle (ix := 2) (opc := 1) (ill := vecIll 1 (opF a 0 4) (opF a 10 6) (opF a 4 6)) (tile := some (opF a 16 6))
    (work := fun x _ => .ok (d.vecEffs x a.cl 1 a)) (after_vxAdd d a) h

theorem syncInc_idle : Becomes (.syncInc a) d d :=
  becomes_of_idle (ix := 3) (opc := 1) (ill := opF a 21 1 != 0 || (true && opF a 16 5 != 0)) (tile := none)
    (work := fun _ _ => .ok [.sync (opF a 0 16) 1]) (after_syncInc d a) h

end IdleForms

/-- Settles O16: a slot that does not stall joins, one that stalls comes again, and one whose sequencer is idle does nothing. -/
theorem gatheredSlotsWait : Obligations.GatheredSlotsWait := by
  unfold Obligations.GatheredSlotsWait
  intro d a
  refine ⟨fun hm hl hp hg => ⟨joins_sAddi hm hl hp hg, joins_sSt hm hl hp hg [], joins_sBr hm hl hp hg, joins_syncInc hm hl hp hg,
      joins_syncEndstep hm hl hp hg, fun free => ⟨joins_vxAdd hm hl hp hg free, joins_vxLdt hm hl hp hg free⟩,
      fun held he legal => vxAdd_waits held legal hm hl hp hg he⟩,
    fun h held legal => vxAdd_alone_waits held legal h,
    fun idle => ⟨sAddi_idle idle, fun lost => idle_of_sSlot idle (after_sSt d a lost), idle_of_sSlot idle (after_sBr d a), vxAdd_idle idle,
      syncInc_idle idle, becomes_of_idle (after_syncEndstep d a) idle, becomes_of_idle (after_vxLdt d a) idle⟩⟩

end Sys2Proof.Machine

namespace Sys2Proof.Machine

/-! ## V slots (R465 to R502) -/

/-- A command that is a V-slot instruction, alone in its bundle and ready. -/
theorem becomes_of_vSlot {c : Instr} {d : Dev} {a : Slot} (opc : Nat) (hc : ∀ s, exec c s = s.run (·.vSlot a opc)) (h : d.vecReady a opc = true) :
    Becomes c d (d.issuedBy a fun d => d.vecDone a opc) :=
  becomes_of_after (d.after_of_run hc) (d.vSlot_alone a opc h)

/-- Settles O18: each command is the V slot of its opcode. -/
theorem vectorElementwiseResults : Obligations.VectorElementwiseResults := by
  unfold Obligations.VectorElementwiseResults
  intro d a
  exact ⟨becomes_of_vSlot 0x01 fun _ => rfl, becomes_of_vSlot 0x02 fun _ => rfl, becomes_of_vSlot 0x03 fun _ => rfl, becomes_of_vSlot 0x04 fun _ => rfl,
    becomes_of_vSlot 0x05 fun _ => rfl, becomes_of_vSlot 0x06 fun _ => rfl, becomes_of_vSlot 0x07 fun _ => rfl, becomes_of_vSlot 0x08 fun _ => rfl,
    becomes_of_vSlot 0x09 fun _ => rfl, becomes_of_vSlot 0x0A fun _ => rfl, becomes_of_vSlot 0x0B fun _ => rfl, becomes_of_vSlot 0x0C fun _ => rfl,
    becomes_of_vSlot 0x0D fun _ => rfl, becomes_of_vSlot 0x0E fun _ => rfl, becomes_of_vSlot 0x0F fun _ => rfl, becomes_of_vSlot 0x10 fun _ => rfl,
    becomes_of_vSlot 0x11 fun _ => rfl, becomes_of_vSlot 0x12 fun _ => rfl, becomes_of_vSlot 0x13 fun _ => rfl, becomes_of_vSlot 0x14 fun _ => rfl,
    becomes_of_vSlot 0x15 fun _ => rfl, becomes_of_vSlot 0x16 fun _ => rfl, becomes_of_vSlot 0x17 fun _ => rfl, becomes_of_vSlot 0x18 fun _ => rfl⟩

/-- Settles O19: each command is the V slot of its opcode. -/
theorem vectorOtherResults : Obligations.VectorOtherResults := by
  unfold Obligations.VectorOtherResults
  intro d a
  exact ⟨becomes_of_vSlot 0x19 fun _ => rfl, becomes_of_vSlot 0x1A fun _ => rfl, becomes_of_vSlot 0x1B fun _ => rfl, becomes_of_vSlot 0x1C fun _ => rfl,
    becomes_of_vSlot 0x1D fun _ => rfl, becomes_of_vSlot 0x1E fun _ => rfl, becomes_of_vSlot 0x1F fun _ => rfl, becomes_of_vSlot 0x20 fun _ => rfl,
    becomes_of_vSlot 0x21 fun _ => rfl, becomes_of_vSlot 0x22 fun _ => rfl, becomes_of_vSlot 0x23 fun _ => rfl, becomes_of_vSlot 0x24 fun _ => rfl,
    becomes_of_vSlot 0x25 fun _ => rfl, becomes_of_vSlot 0x26 fun _ => rfl, becomes_of_vSlot 0x27 fun _ => rfl, becomes_of_vSlot 0x28 fun _ => rfl,
    becomes_of_vSlot 0x29 fun _ => rfl⟩

/-! ## Tile loads and stores (R199 to R201) -/

theorem after_vxStt (d : Dev) (a : Slot) (lost : List (Nat × Nat)) :
    d.after (.vxStt a lost) = (d.slot a 3 9 false none fun x r =>
      match rangeCheck d x a.cl (tileEa r a) 256 4096 2 with
      | some f => .error f
      | none => .ok [.useVec, if lost.isEmpty then .store (tileEa r a) (tileBytesOf ((d.clu a.cl).tile (opF a 16 6)))
          else .storeLosing 3 (tileEa r a) (tileBytesOf ((d.clu a.cl).tile (opF a 16 6))) lost]).settle := by
  exact Dev.after_of_run d (f := fun d => d.slot a 3 9 false none fun x r =>
    match rangeCheck d x a.cl (tileEa r a) 256 4096 2 with
    | some f => .error f
    | none => .ok [.useVec, if lost.isEmpty then .store (tileEa r a) (tileBytesOf ((d.clu a.cl).tile (opF a 16 6)))
        else .storeLosing 3 (tileEa r a) (tileBytesOf ((d.clu a.cl).tile (opF a 16 6))) lost]) fun _ => rfl

theorem Dev.applyEff_useVec (c x pc : Nat) (d : Dev) : Dev.applyEff c x pc d .useVec = d := rfl

theorem Dev.applyEff_setTile (c x pc : Nat) (d : Dev) (t : Nat) (v : Tile) :
    Dev.applyEff c x pc d (.setTile t v) = d.modClu c fun k => k.setTile t v := rfl

theorem Dev.issuedBy_congr (d : Dev) (a : Slot) {f g : Dev → Dev} (h : f d = g d) : d.issuedBy a f = d.issuedBy a g :=
  congrArg (·.issuedFrom a.cl (d.slotCtx a) (d.slotRegs a).pc) h

section Tiles

variable {d : Dev} {a : Slot} (h : d.aloneOn a = true) (free : d.vecHeld a.cl = false)
include free

/-- The vector engine free, an effect that uses it does not stall. -/
theorem useVec_stalls_not (e : SlotEff) (he : d.stalls a.cl (d.slotCtx a) e = false) :
    [SlotEff.useVec, e].any (d.stalls a.cl (d.slotCtx a)) = false := by
  simp only [List.any_cons, List.any_nil, he, Bool.or_false]
  exact free

include h

theorem becomes_vxLdt (legal : rangeCheck d (d.slotCtx a) a.cl (tileEa (d.slotRegs a) a) 256 4096 1 = none)
    (clean : d.poisoned (spadAddr a.cl (tileEa (d.slotRegs a) a)) 4096 = false) :
    Becomes (.vxLdt a) d (d.issuedBy a fun e =>
      e.modClu a.cl fun k => k.setTile (opF a 16 6) (tileOfBytes (e.read (spadAddr a.cl (tileEa (d.slotRegs a) a)) 4096))) := by
  have loads := becomes_of_effs
    (effs := [.useVec, .setTile (opF a 16 6) (tileOfBytes (d.localRead a.cl (tileEa (d.slotRegs a) a) 4096))])
    (after_vxLdt d a) h rfl (by simp only [legal, clean, Bool.false_eq_true, if_false]) rfl (useVec_stalls_not free _ rfl)
  rwa [d.issuedBy_congr a (g := fun e => e.modClu a.cl fun k =>
    k.setTile (opF a 16 6) (tileOfBytes (e.read (spadAddr a.cl (tileEa (d.slotRegs a) a)) 4096)))
    (by rw [List.foldl_cons, List.foldl_cons, List.foldl_nil, Dev.applyEff_useVec, Dev.applyEff_setTile, Dev.localRead])] at loads

theorem becomes_vxStt (legal : rangeCheck d (d.slotCtx a) a.cl (tileEa (d.slotRegs a) a) 256 4096 2 = none) (lost : List (Nat × Nat))
    {e : SlotEff} (he : (if lost.isEmpty then .store (tileEa (d.slotRegs a) a) (tileBytesOf ((d.clu a.cl).tile (opF a 16 6)))
      else .storeLosing 3 (tileEa (d.slotRegs a) a) (tileBytesOf ((d.clu a.cl).tile (opF a 16 6))) lost) = e)
    (quiet : e.quiet = true) (goes : d.stalls a.cl (d.slotCtx a) e = false) :
    Becomes (.vxStt a lost) d (d.issuedBy a fun d => Dev.applyEff a.cl (d.slotCtx a) (d.slotRegs a).pc d e) := by
  have quiets : [SlotEff.useVec, e].all SlotEff.quiet = true := by
    rw [List.all_cons, List.all_cons, quiet]
    rfl
  have stores := becomes_of_effs (effs := [.useVec, e]) (after_vxStt d a lost) h rfl (by simp only [legal, he]) quiets
    (useVec_stalls_not free _ goes)
  simp only [List.foldl_cons, List.foldl_nil, Dev.applyEff_useVec] at stores
  exact stores

end Tiles

/-- Settles O21: a tile load is one tile, and a tile store one store or one store that loses words. -/
theorem tileLoadsAndStores : Obligations.TileLoadsAndStores := by
  unfold Obligations.TileLoadsAndStores
  intro d a h free
  refine ⟨becomes_vxLdt h free, fun legal => ⟨becomes_vxStt (e := .store (tileEa (d.slotRegs a) a) (tileBytesOf ((d.clu a.cl).tile (opF a 16 6)))) h free legal [] rfl rfl rfl,
    fun lost some_ => ?_⟩, fun e m y pc at_ bs lost => rfl⟩
  refine becomes_vxStt h free legal lost ?_ rfl rfl
  rw [List.isEmpty_eq_false_iff.2 some_]
  rfl

/-! ## Descriptors (R179 to R188) -/

theorem Dev.currArrive_descs (d : Dev) (c : Nat) : (d.currArrive c).descs = d.descs := by
  rw [Dev.currArrive]
  split <;> rfl

theorem Dev.currArrive_reg (d : Dev) (c r : Nat) : (d.currArrive c).reg r = d.reg r := by
  rw [Dev.currArrive]
  split <;> rfl

section Descriptors

variable {c : Instr} {d : Dev} {a : Slot} {ix opc kind : Nat} {mine : Bytes → Bool}

/-- A command that issues a ready descriptor whose body is its own. -/
theorem becomes_of_descSlot {d' : Dev} (ix opc kind : Nat) (mine : Bytes → Bool) (hc : ∀ s, exec c s = s.run fun d => d.descSlot a ix opc kind mine)
    (h : d.descReady a kind = true) (hm : mine (d.descBytes a) = true)
    (he : Dev.applyEff a.cl (d.slotCtx a) (d.slotRegs a).pc d (.issue kind (descEa (d.slotRegs a) a) (d.descBytes a)) = d') :
    Becomes c d (d'.issuedFrom a.cl (d.slotCtx a) (d.slotRegs a).pc) := by
  subst he
  exact becomes_of_after (d.after_of_run hc) (d.descSlot_alone a ix opc kind mine h hm)

/-- A descriptor of the vector engine, the Dresser, the collectives engine or the tier engine only joins the queue. -/
theorem Dev.issue_queues (h0 : kindQueue kind ≠ 0) (h2 : kindQueue kind ≠ 2) :
    Dev.applyEff a.cl (d.slotCtx a) (d.slotRegs a).pc d (.issue kind (descEa (d.slotRegs a) a) (d.descBytes a)) =
      { d with descs := d.descs ++ [d.descOf a kind none] } := by
  simp only [Dev.applyEff, h0, h2, if_false, Dev.descOf]

/-- A descriptor of the array wakes its current control. -/
theorem Dev.issue_wakes (h0 : kindQueue kind = 0) :
    Dev.applyEff a.cl (d.slotCtx a) (d.slotRegs a).pc d (.issue kind (descEa (d.slotRegs a) a) (d.descBytes a)) =
      { d.currArrive a.cl with descs := d.descs ++ [d.descOf a kind none] } := by
  simp only [Dev.applyEff, h0, (by decide : ¬ (0 = 2)), if_false, if_true, Dev.descOf, Dev.currArrive_descs, Dev.sampled, Dev.currArrive_reg]

/-- A DMA descriptor takes the free tracker. -/
theorem Dev.issue_takes {k : Nat} (h2 : kindQueue kind = 2) (hk : d.freeTrk = some k) :
    Dev.applyEff a.cl (d.slotCtx a) (d.slotRegs a).pc d (.issue kind (descEa (d.slotRegs a) a) (d.descBytes a)) =
      (let e : Dev := { d with descs := d.descs ++ [d.descOf a kind (some k)] }
       e.takeTrk k (e.issuedTrk (d.descOf a kind (some k)))) := by
  simp only [Dev.applyEff, h2, (by decide : ¬ (2 = 0)), if_false, if_true, hk, Dev.descOf]

end Descriptors

section Kinds

variable {c : Instr} {d : Dev} {a : Slot} {kind : Nat} (h : d.descReady a kind = true)
include h

/-- A descriptor of the array (R180). -/
theorem becomes_mxDesc (h0 : kindQueue kind = 0) (hc : ∀ s, exec c s = s.run fun d => d.descSlot a 1 kind kind anyBody) :
    Becomes c d (d.issuedBy a fun d => let e := d.currArrive a.cl; { e with descs := d.descs ++ [d.descOf a kind none] }) :=
  becomes_of_descSlot 1 kind kind anyBody hc h rfl (Dev.issue_wakes h0)

/-- A descriptor of an engine that takes no tracker. -/
theorem queues_of_descSlot (ix opc : Nat) (mine : Bytes → Bool) (h0 : kindQueue kind ≠ 0) (h2 : kindQueue kind ≠ 2)
    (hc : ∀ s, exec c s = s.run fun d => d.descSlot a ix opc kind mine) (hm : mine (d.descBytes a) = true) : Queues c d a kind :=
  becomes_of_descSlot ix opc kind mine hc h hm (Dev.issue_queues h0 h2)

/-- A DMA descriptor. -/
theorem becomes_dmaDesc {k : Nat} (hk : d.freeTrk = some k) (opc : Nat) (h2 : kindQueue kind = 2)
    (hc : ∀ s, exec c s = s.run fun d => d.descSlot a 3 opc kind anyBody) :
    Becomes c d (d.issuedBy a fun d =>
      let e : Dev := { d with descs := d.descs ++ [d.descOf a kind (some k)] }
      e.takeTrk k (e.issuedTrk (d.descOf a kind (some k)))) :=
  becomes_of_descSlot 3 opc kind anyBody hc h rfl (Dev.issue_takes h2 hk)

end Kinds

/-- A collective's descriptor. -/
theorem queues_collective {c : Instr} {d : Dev} {a : Slot} (mine : Bytes → Bool) (hc : ∀ s, exec c s = s.run fun d => d.descSlot a 3 0x12 0x22 mine)
    (h : d.descReady a 0x22 = true) (hm : mine (d.descBytes a) = true) : Queues c d a 0x22 :=
  queues_of_descSlot h 3 0x12 mine (by decide) (by decide) hc hm

/-- A tier engine's descriptor. -/
theorem queues_tier {c : Instr} {d : Dev} {a : Slot} (mine : Bytes → Bool) (hc : ∀ s, exec c s = s.run fun d => d.descSlot a 3 0x1C 0x38 mine)
    (h : d.descReady a 0x38 = true) (hm : mine (d.descBytes a) = true) : Queues c d a 0x38 :=
  queues_of_descSlot h 3 0x1C mine (by decide) (by decide) hc hm

/-- A tier engine's descriptor of one operation. -/
theorem queues_tierOp {c : Instr} {d : Dev} {a : Slot} (op : Nat) (hc : ∀ s, exec c s = s.run (·.tierSlot a op))
    (h : d.descReady a 0x38 = true) (hm : tierOp (d.descBytes a) = op) : Queues c d a 0x38 :=
  queues_tier (fun b => tierOp b == op) hc h (beq_iff_eq.2 hm)

/-- Settles O22: each command is the descriptor slot of its kind. -/
theorem descriptorsQueue : Obligations.DescriptorsQueue := by
  unfold Obligations.DescriptorsQueue
  intro d a
  refine ⟨fun h => becomes_mxDesc h rfl fun _ => rfl, fun h => becomes_mxDesc h rfl fun _ => rfl, fun h => becomes_mxDesc h rfl fun _ => rfl,
    fun h => becomes_mxDesc h rfl fun _ => rfl, fun h => becomes_mxDesc h rfl fun _ => rfl,
    fun h => queues_of_descSlot h 1 8 anyBody (by decide) (by decide) (fun _ => rfl) rfl,
    fun h => queues_of_descSlot h 1 9 anyBody (by decide) (by decide) (fun _ => rfl) rfl,
    fun h => queues_of_descSlot h 3 0x18 anyBody (by decide) (by decide) (fun _ => rfl) rfl,
    fun h => queues_of_descSlot h 3 0x19 anyBody (by decide) (by decide) (fun _ => rfl) rfl,
    fun h => queues_of_descSlot h 3 0x1A anyBody (by decide) (by decide) (fun _ => rfl) rfl, fun h => ?_, fun h => ?_⟩
  · exact ⟨queues_collective isAllreduce (fun _ => rfl) h, queues_collective (isOp 2) (fun _ => rfl) h, queues_collective (isOp 3) (fun _ => rfl) h,
      queues_collective (isOp 4) (fun _ => rfl) h, queues_collective (isOp 5) (fun _ => rfl) h, queues_collective (isOp 0x20) (fun _ => rfl) h,
      queues_collective (isOp 0x21) (fun _ => rfl) h, queues_collective (isOp 0x22) (fun _ => rfl) h, queues_collective (isOp 0x23) (fun _ => rfl) h⟩
  · refine ⟨fun hm => queues_tier isStage (fun _ => rfl) h ?_, queues_tierOp 2 (fun _ => rfl) h, queues_tierOp 3 (fun _ => rfl) h,
      queues_tierOp 4 (fun _ => rfl) h, queues_tierOp 6 (fun _ => rfl) h, queues_tierOp 7 (fun _ => rfl) h⟩
    simp only [isStage, hm, Nat.le_refl, decide_true, Bool.true_or]

/-- The tracker of an issued DMA descriptor, by its kind and its first transfer (R186, R188). -/
theorem Dev.issuedTrk_fields (e : Dev) (q : Desc) :
    (e.issuedTrk q).state = 1 ∧ (e.issuedTrk q).ctx = q.ctx ∧ (e.issuedTrk q).cluster = q.cl ∧ (e.issuedTrk q).hub = false := by
  unfold Dev.issuedTrk
  dsimp only
  split
  · exact ⟨rfl, rfl, rfl, rfl⟩
  · split
    · exact ⟨rfl, rfl, rfl, rfl⟩
    · split <;> exact ⟨rfl, rfl, rfl, rfl⟩

/-- Settles O23: the slot's one effect, and the cases of the tracker it takes. -/
theorem dmaDescriptorsTakeTrackers : Obligations.DmaDescriptorsTakeTrackers := by
  unfold Obligations.DmaDescriptorsTakeTrackers
  intro d a k hk
  refine ⟨fun h => becomes_dmaDesc h hk 0x10 rfl fun _ => rfl, fun h => becomes_dmaDesc h hk 0x11 rfl fun _ => rfl, fun e q => ?_⟩
  obtain ⟨state, ctx, cluster, hub⟩ := e.issuedTrk_fields q
  refine ⟨state, ctx, cluster, hub, fun amo => ?_, fun dma => ?_⟩
  · rw [Dev.issuedTrk, if_pos amo]
    exact ⟨rfl, rfl, rfl⟩
  · rw [Dev.issuedTrk, if_neg dma]
    by_cases src : gNode (atLe q.bytes 0x10 8) = e.node
    · by_cases dst : gNode (atLe q.bytes 0x18 8) = e.node
      · rw [if_neg (not_not_intro src), if_neg (not_not_intro dst)]
        exact ⟨rfl, fun far => absurd src far, fun _ far => absurd dst far, fun _ _ => ⟨rfl, rfl⟩⟩
      · rw [if_neg (not_not_intro src), if_pos dst]
        exact ⟨rfl, fun far => absurd src far, fun _ _ => ⟨rfl, rfl, rfl⟩, fun _ near => absurd near dst⟩
    · rw [if_pos src]
      exact ⟨rfl, fun _ => ⟨rfl, rfl, rfl⟩, fun near => absurd near src, fun near => absurd near src⟩

end Sys2Proof.Machine

namespace Sys2Proof.Machine

/-! ## Element values of INT32 and bit operations (R460, R469, R471) -/

/-- The number whose digits in base 2^w are given, least significant first. -/
def packDigits (w : Nat) (es : List Nat) : Nat := es.foldr (fun e v => e % 2 ^ w + v * 2 ^ w) 0

theorem packDigits_cons (w e : Nat) (es : List Nat) : packDigits w (e :: es) = e % 2 ^ w + packDigits w es * 2 ^ w := rfl

theorem packDigits_lt (w : Nat) (es : List Nat) : packDigits w es < 2 ^ (w * es.length) := by
  induction es with
  | nil => exact Nat.one_pos
  | cons e es ih =>
    have digit : e % 2 ^ w < 2 ^ w := Nat.mod_lt _ (Nat.two_pow_pos w)
    rw [packDigits_cons, List.length_cons, Nat.mul_succ, Nat.pow_add]
    calc e % 2 ^ w + packDigits w es * 2 ^ w < (packDigits w es + 1) * 2 ^ w := by rw [Nat.succ_mul]; omega
      _ ≤ 2 ^ (w * es.length) * 2 ^ w := Nat.mul_le_mul_right _ ih

theorem digitsOf_packDigits (w : Nat) (es : List Nat) : digitsOf w es.length (packDigits w es) = es.map (· % 2 ^ w) := by
  induction es with
  | nil => rfl
  | cons e es ih =>
    have pos : 0 < 2 ^ w := Nat.two_pow_pos w
    have digit : e % 2 ^ w < 2 ^ w := Nat.mod_lt _ pos
    rw [List.length_cons, digitsOf, packDigits_cons, Nat.add_mul_mod_self_right, Nat.mod_mod, Nat.add_mul_div_right _ _ pos,
      Nat.div_eq_of_lt digit, Nat.zero_add, ih, List.map_cons]

theorem length_digitsOf (w n v : Nat) : (digitsOf w n v).length = n := by
  induction n generalizing v with
  | zero => rfl
  | succ n ih => rw [digitsOf, List.length_cons, ih]

theorem tileRaw_ofRaw_int {es : List Nat} (hn : es.length = 1024) : tileRaw 0xD (ofRaw 0xD es) = es.map (· % 2 ^ 32) := by
  have small := packDigits_lt 32 es
  rw [hn, show 32 * 1024 = 32768 from rfl] at small
  have packed : (ofRaw 0xD es).toNat = packDigits 32 es := (BitVec.toNat_ofNat _ _).trans (Nat.mod_eq_of_lt small)
  have raw : tileRaw 0xD (ofRaw 0xD es) = digitsOf 32 1024 (ofRaw 0xD es).toNat := rfl
  rw [raw, packed, ← hn, digitsOf_packDigits]

/-- An element of a tile in the INT32 view. -/
def intElem (t : Tile) (i : Nat) : Nat := (tileElems 0xD t)[i]?.getD 0

theorem length_tileElems_int (t : Tile) : (tileElems 0xD t).length = 1024 := by
  rw [tileElems, List.length_map]
  exact length_digitsOf 32 1024 t.toNat

theorem getElem?_tileElems_int {t : Tile} {i : Nat} (hi : i < 1024) : (tileElems 0xD t)[i]? = some (intElem t i) := by
  rw [intElem, List.getElem?_eq_getElem (by rwa [length_tileElems_int]), Option.getD_some]

theorem intElem_lt (t : Tile) (i : Nat) : intElem t i < 2 ^ 32 := by
  by_cases hi : i < 1024
  · have inside : intElem t i ∈ tileElems 0xD t := List.mem_of_getElem? (getElem?_tileElems_int hi)
    rw [tileElems, List.mem_map] at inside
    obtain ⟨e, -, he⟩ := inside
    rw [← he]
    exact Nat.mod_lt _ (Nat.two_pow_pos _)
  · have outside : (tileElems 0xD t)[i]? = none := List.getElem?_eq_none (by rw [length_tileElems_int]; omega)
    rw [intElem, outside]
    exact Nat.two_pow_pos 32

theorem getElem?_zip_of {α β : Type} {l : List α} {m : List β} {i : Nat} {x : α} {y : β} (hl : l[i]? = some x) (hm : m[i]? = some y) :
    (List.zip l m)[i]? = some (x, y) := List.getElem?_zip_eq_some.2 ⟨hl, hm⟩

/-- An element of a tile made of containers. -/
theorem intElem_ofRaw {es : List Nat} {i e : Nat} (hn : es.length = 1024) (he : es[i]? = some e) : intElem (ofRaw 0xD es) i = e % 2 ^ 32 := by
  rw [intElem, tileElems, tileRaw_ofRaw_int hn, List.getElem?_map, List.getElem?_map, he]
  exact Nat.mod_mod _ _

/-- An element of a tile made of elements. -/
theorem intElem_ofElems {es : List Nat} {i e : Nat} (hn : es.length = 1024) (he : es[i]? = some e) : intElem (ofElems 0xD es) i = e % 2 ^ 32 := by
  have made := intElem_ofRaw (i := i) (es := es.map (container 0xD)) (e := e % 2 ^ 32) ((List.length_map _).trans hn)
    (by rw [List.getElem?_map, he]; rfl)
  rw [ofElems, made, Nat.mod_mod]

section Values

variable {i : Nat} (hi : i < 1024)
include hi

/-- Each element of an elementwise result depends on the elements of its own position. -/
theorem intElem_zipTiles (f : Nat → Nat → Nat → Nat → Nat × Bool) (ta tb td : Tile) :
    intElem (zipTiles 0xD f ta tb td).tile i = (f i (intElem ta i) (intElem tb i) (intElem td i)).1 % 2 ^ 32 := by
  refine intElem_ofElems ?_ ?_
  · simp only [List.length_map, List.length_mapIdx, List.length_zip, length_tileElems_int, Nat.min_self]
  · simp only [List.getElem?_map, List.getElem?_mapIdx, getElem?_zip_of (getElem?_tileElems_int (t := ta) hi)
      (getElem?_zip_of (getElem?_tileElems_int (t := tb) hi) (getElem?_tileElems_int (t := td) hi)), Option.map_some]

/-- A comparison gives all ones or 0. -/
theorem intElem_maskTile (f : Nat → Nat → Bool) (ta tb : Tile) :
    intElem (maskTile 0xD f ta tb).tile i = if f (intElem ta i) (intElem tb i) then 2 ^ 32 - 1 else 0 := by
  have made := intElem_ofRaw (i := i) (es := (List.zip (tileElems 0xD ta) (tileElems 0xD tb)).map fun e => if f e.1 e.2 then 2 ^ 32 - 1 else 0)
    (e := if f (intElem ta i) (intElem tb i) then 2 ^ 32 - 1 else 0)
    (by simp only [List.length_map, List.length_zip, length_tileElems_int, Nat.min_self])
    (by simp only [List.getElem?_map, getElem?_zip_of (getElem?_tileElems_int (t := ta) hi) (getElem?_tileElems_int (t := tb) hi), Option.map_some])
  refine Eq.trans made ?_
  split <;> rfl

end Values

theorem toSigned_emod (w x : Nat) : toSigned w x % (2 ^ w : Nat) = (x : Int) % (2 ^ w : Nat) := by
  unfold toSigned
  split <;> simp

theorem toSigned_int_inj {x y : Nat} (hx : x < 2 ^ 32) (hy : y < 2 ^ 32) : toSigned 32 x = toSigned 32 y ↔ x = y := by
  unfold toSigned
  rw [Nat.mod_eq_of_lt hx, Nat.mod_eq_of_lt hy]
  omega

theorem wrapTo_eq {w n : Nat} {x : Int} (h : x % (2 ^ w : Nat) = (n : Int) % (2 ^ w : Nat)) : wrapTo w x = n % 2 ^ w := by
  rw [wrapTo, h, ← Int.natCast_emod, Int.toNat_natCast]

section Arithmetic

variable (w x y z : Nat)

theorem intArith_add : intArith w .add x y z = (x + y) % 2 ^ w :=
  wrapTo_eq (by rw [Int.add_emod, toSigned_emod, toSigned_emod, ← Int.add_emod, Int.natCast_add])

theorem intArith_mul : intArith w .mul x y z = x * y % 2 ^ w :=
  wrapTo_eq (by rw [Int.mul_emod, toSigned_emod, toSigned_emod, ← Int.mul_emod, Int.natCast_mul])

theorem intArith_fma : intArith w .fma x y z = (x * y + z) % 2 ^ w :=
  wrapTo_eq (by
    rw [Int.add_emod, Int.mul_emod, toSigned_emod, toSigned_emod, toSigned_emod, ← Int.mul_emod, ← Int.add_emod, Int.natCast_add,
      Int.natCast_mul])

theorem intArith_sub {y : Nat} (hy : y ≤ 2 ^ w) : intArith w .sub x y z = (x + (2 ^ w - y)) % 2 ^ w :=
  wrapTo_eq (by
    rw [Int.sub_emod, toSigned_emod, toSigned_emod, ← Int.sub_emod, Int.natCast_add, Int.natCast_sub hy]
    rw [show (x : Int) + ((2 ^ w : Nat) - y) = x - y + (2 ^ w : Nat) from by omega, Int.add_emod_right])

end Arithmetic

theorem ite_lt_of {p : Prop} [Decidable p] {x y n : Nat} (hx : x < n) (hy : y < n) : (if p then x else y) < n := by
  split
  · exact hx
  · exact hy

/-- Settles O20: the operations element by element. -/
theorem vectorElementValues : Obligations.VectorElementValues := by
  unfold Obligations.VectorElementValues
  intro v tb_ ta tb td i hi
  have ha := intElem_lt ta i
  have hb := intElem_lt tb i
  have hd := intElem_lt td i
  refine ⟨?_, ?_, ?_, ?_, ?_, ?_, ?_, ?_, ?_, ?_, rfl, rfl, rfl, rfl, rfl⟩
  · refine (intElem_zipTiles hi (v.arith 0xD .add) ta tb td).trans ?_
    exact (congrArg (· % 2 ^ 32) (intArith_add 32 _ _ (intElem td i))).trans (Nat.mod_mod _ _)
  · refine (intElem_zipTiles hi (v.arith 0xD .sub) ta tb td).trans ?_
    exact (congrArg (· % 2 ^ 32) (intArith_sub 32 _ (intElem td i) (Nat.le_of_lt hb))).trans (Nat.mod_mod _ _)
  · refine (intElem_zipTiles hi (v.arith 0xD .mul) ta tb td).trans ?_
    exact (congrArg (· % 2 ^ 32) (intArith_mul 32 _ _ (intElem td i))).trans (Nat.mod_mod _ _)
  · refine (intElem_zipTiles hi (v.arith 0xD .fma) ta tb td).trans ?_
    exact (congrArg (· % 2 ^ 32) (intArith_fma 32 _ _ _)).trans (Nat.mod_mod _ _)
  · refine (intElem_zipTiles hi (fun _ a b _ => (shiftElem 0xD .shl a b, false)) ta tb td).trans ?_
    exact Nat.mod_mod _ _
  · refine (intElem_zipTiles hi (fun _ a b _ => (shiftElem 0xD .shr a b, false)) ta tb td).trans ?_
    refine (Nat.mod_eq_of_lt ?_).trans (congrArg (· / 2 ^ (intElem tb i % 32)) (Nat.mod_eq_of_lt ha))
    exact Nat.lt_of_le_of_lt (Nat.div_le_self _ _) (Nat.mod_lt _ (Nat.two_pow_pos 32))
  · refine (intElem_maskTile hi (cmpElem 0xD .eq) ta tb).trans (ite_congr (propext ?_) (fun _ => rfl) (fun _ => rfl))
    exact beq_iff_eq.trans (toSigned_int_inj ha hb)
  · refine (intElem_maskTile hi (cmpElem 0xD .ne) ta tb).trans ?_
    rw [← ite_not]
    refine ite_congr (propext ?_) (fun _ => rfl) (fun _ => rfl)
    exact (not_congr (bne_iff_ne.trans (not_congr (toSigned_int_inj ha hb)))).trans Decidable.not_not
  · refine (intElem_zipTiles hi (fun _ a b c => (if c ≠ 0 then a else b, false)) ta tb td).trans (Nat.mod_eq_of_lt ?_)
    exact ite_lt_of ha hb
  · refine (intElem_ofElems (es := upFrom 0 1024) (e := i) ?_ ?_).trans (Nat.mod_eq_of_lt (Nat.lt_trans hi (by decide)))
    · rw [upFrom_eq_range', List.length_range']
    · rw [upFrom_eq_range', List.getElem?_range' hi, Nat.zero_add, Nat.one_mul]

end Sys2Proof.Machine

namespace Sys2Proof.Machine

/-- A command whose meaning is a change of the block. -/
theorem becomes_of_run {c : Instr} {d d' : Dev} {f : Dev → Dev} (hc : ∀ s, exec c s = s.run f) (h : f d = d') : Becomes c d d' :=
  becomes_of_after (d.after_of_run hc) h

/-! ## The tables of a well-formed block -/

section Tables

variable (d : Dev) (h : d.tablesWf = true)
include h

/-- The keys of each table of a well-formed block rise. -/
theorem Dev.ctxs_rise : keysRise (d.ctxs.map Prod.fst) = true := by
  simp only [Dev.tablesWf, mapWf, Bool.and_eq_true] at h
  obtain ⟨⟨⟨⟨⟨_, hctx, _⟩, _⟩, _⟩, _⟩, _⟩ := h
  exact hctx

theorem Dev.clus_rise : keysRise (d.clus.map Prod.fst) = true := by
  simp only [Dev.tablesWf, mapWf, Bool.and_eq_true] at h
  obtain ⟨_, hclu, _⟩ := h
  exact hclu

end Tables

/-! ## Supply-current control of the array (R397) -/

section Current

variable (d : Dev) (c : Nat)

/-- No other cluster, no register and no byte. -/
def Dev.SameButClu (d e : Dev) (c : Nat) : Prop :=
  (∀ j, j ≠ c → e.clu j = d.clu j) ∧ (∀ o, e.reg o = d.reg o) ∧ ∀ a, e.byte a = d.byte a

theorem Dev.setClu_sameButClu (k : Cluster) : d.SameButClu (d.setClu c k) c :=
  ⟨fun _ hj => d.setClu_other c _ k hj, fun _ => rfl, fun _ => rfl⟩

/-- An array that holds a descriptor or whose control is off keeps its current. -/
theorem Dev.currDone_holds (h : d.mxEmpty c = false ∨ d.bit (Reg.MXA_CURR c) 0 = false) : d.currDone c = d := by
  rw [Dev.currDone, if_neg]
  obtain h | h := h <;> rw [h]
  · rw [Bool.and_false]; exact Bool.false_ne_true
  · rw [Bool.false_and]; exact Bool.false_ne_true

theorem Dev.currDone_sameButClu : d.SameButClu (d.currDone c) c := by
  rw [Dev.currDone]
  split
  · exact d.setClu_sameButClu c _
  · exact ⟨fun _ _ => rfl, fun _ => rfl, fun _ => rfl⟩

/-- An array that holds none leaves full activity. -/
theorem Dev.currDone_clu (hwf : d.tablesWf = true) (hm : d.mxEmpty c = true) (hb : d.bit (Reg.MXA_CURR c) 0 = true)
    (hcur : (d.clu c).cur = .active) : (d.currDone c).clu c = { d.clu c with
      cur := if (d.ctx (d.clu c).ctx).state = .running ∨ (d.ctx (d.clu c).ctx).state = .draining then .gap else .rampDown
      act := d.fld (Reg.MXA_CURR c) 8 5 } := by
  rw [Dev.currDone, hm, hb, Bool.and_self, if_pos rfl]
  refine (d.setClu_same c _ (d.clus_rise hwf)).trans ((if_pos hcur).trans ?_)
  simp only [Bool.or_eq_true, decide_eq_true_eq]

end Current

/-- Settles O25: the states of the control, then what leaving full activity changes. -/
theorem arrayCurrentRamps : Obligations.ArrayCurrentRamps := by
  unfold Obligations.ArrayCurrentRamps
  intro d c
  have tick : ∀ {e : Dev}, d.rampTick c = e → Becomes (.mxaRampTick c) d e := becomes_of_run (f := (·.rampTick c)) fun _ => rfl
  have expire : ∀ {e : Dev}, d.gapExpire c = e → Becomes (.mxaGapExpire c) d e := becomes_of_run (f := (·.gapExpire c)) fun _ => rfl
  refine ⟨fun hc ha => tick ?_, fun hc ha => tick ?_, fun hc ha => tick ?_, fun hc ha => tick ?_, fun hc => tick ?_, fun hc => expire ?_,
    fun hc => expire ?_, d.currDone_holds c, d.currDone_clu c,
    fun n => ⟨fun hwf => d.setClu_same c n (d.clus_rise hwf), fun e he => ?_⟩⟩
  · simp only [Dev.rampTick, hc, Nat.not_le.2 ha, if_false]
  · simp only [Dev.rampTick, hc, ha, if_true]
  · simp only [Dev.rampTick, hc, Nat.not_le.2 ha, if_false]
  · simp only [Dev.rampTick, hc, ha, if_true]
  · obtain hc | hc | hc := hc <;> simp only [Dev.rampTick, hc]
  · rw [Dev.gapExpire, Dev.modClu, Cluster.leaveGap, if_pos hc]
  · rw [Dev.gapExpire, Dev.modClu, Cluster.leaveGap, if_neg hc]
  · obtain rfl | rfl := he
    · exact d.setClu_sameButClu c n
    · exact d.currDone_sameButClu c

/-! ## The sync store (R113 to R117) -/

section SyncObjects

variable (o : SyncObj) {v : Nat} (hv : v < 2 ^ 32)
include hv

theorem SyncObj.add_count : (o.add v).count.toNat = (o.count.toNat + v) % 2 ^ 32 := by
  rw [SyncObj.add, BitVec.toNat_ofNat, Nat.mod_eq_of_lt hv]

theorem SyncObj.add_ovf : (o.add v).ovf = true ↔ o.ovf = true ∨ 2 ^ 32 ≤ o.count.toNat + v := by
  simp only [SyncObj.add, Nat.mod_eq_of_lt hv, Bool.or_eq_true, decide_eq_true_eq]

/-- The trigger fires where COUNT reaches TARGET from below with no overflow, once. -/
theorem SyncObj.fires_iff : o.fires v = true ↔ o.chain = true ∧ o.fired = false ∧ o.ovf = false ∧ o.count.toNat + v < 2 ^ 32 ∧
    o.count.toNat < o.target ∧ o.target ≤ o.count.toNat + v := by
  simp only [SyncObj.fires, SyncObj.add, Nat.mod_eq_of_lt hv, Bool.and_eq_true, Bool.or_eq_true, Bool.not_eq_true', decide_eq_true_eq,
    Bool.or_eq_false_iff, decide_eq_false_iff_not, Nat.not_le]
  cases o.fired
  · simp only [Bool.false_eq_true, false_or, and_true, true_and, and_assoc]
  · simp only [Bool.true_eq_false, and_false, false_and]

end SyncObjects

section SyncQueue

variable {d : Dev} {k : Nat} {r : SyncReq} (hr : d.syncQ[k]? = some r)
include hr

theorem Dev.syncFirst_issuer {c pc : Nat} (hi : r.issuer = some (c, pc)) :
    d.syncFirst k = !(d.syncQ.take k).any fun q => q.issuer.any (fun i => i.1 == c) && q.obj % 16 == r.obj % 16 := by
  simp only [Dev.syncFirst, hr, hi]

theorem Dev.syncFirst_engine (hi : r.issuer = none) : d.syncFirst k = true := by
  simp only [Dev.syncFirst, hr, hi]

/-- An update behind one of its cluster for the same bank is not first. -/
theorem Dev.syncFirst_behind {j c pc pc' : Nat} {q : SyncReq} (hj : j < k) (hq : d.syncQ[j]? = some q) (hqi : q.issuer = some (c, pc))
    (hi : r.issuer = some (c, pc')) (hbank : q.obj % 16 = r.obj % 16) : d.syncFirst k = false := by
  have before : q ∈ d.syncQ.take k := List.mem_of_getElem? ((List.getElem?_take_of_lt hj).trans hq)
  rw [Dev.syncFirst_issuer hr hi, Bool.not_eq_false']
  refine List.any_eq_true.2 ⟨q, before, ?_⟩
  simp only [hqi, hbank, Option.any_some, beq_self_eq_true, Bool.and_self]

theorem Dev.syncApply_owned (hf : d.syncFirst k = true) (ho : d.owns r.ctx r.obj = true) :
    d.syncApply k = Dev.syncAdd { d with syncQ := d.syncQ.eraseIdx k } r.obj r.val := by
  simp only [Dev.syncApply, hf, hr, if_true]
  exact if_pos ho

theorem Dev.syncApply_foreign {c pc : Nat} (hf : d.syncFirst k = true) (ho : d.owns r.ctx r.obj = false) (hi : r.issuer = some (c, pc)) :
    d.syncApply k = Dev.seqExc { d with syncQ := d.syncQ.eraseIdx k } c r.ctx 0x10 r.obj 3 0 pc false false 0 := by
  have outside : Dev.owns { d with syncQ := d.syncQ.eraseIdx k } r.ctx r.obj = false := ho
  simp only [Dev.syncApply, hf, hr, if_true, outside, Bool.false_eq_true, if_false, hi]

end SyncQueue

/-- Settles O31: what an addition does to an object, then what the store does with an update. -/
theorem syncStoreApplies : Obligations.SyncStoreApplies := by
  unfold Obligations.SyncStoreApplies
  refine ⟨fun o v hv => ⟨o.add_count hv, o.add_ovf hv, o.fires_iff hv, rfl, rfl, rfl⟩, fun d k r hr => ?_⟩
  have applies : ∀ {e : Dev}, d.syncApply k = e → Becomes (.syncUpdateApply k) d e := becomes_of_run (f := (·.syncApply k)) fun _ => rfl
  refine ⟨fun hf => ⟨fun ho => applies (Dev.syncApply_owned hr hf ho), fun c pc ho hi => applies (Dev.syncApply_foreign hr hf ho hi)⟩,
    fun hf => applies ?_, Dev.syncFirst_engine hr, fun j q c pc pc' => Dev.syncFirst_behind hr⟩
  simp only [Dev.syncApply, hf, Bool.false_eq_true, if_false]

/-! ## Plan commands accepted (R78 to R99) -/

section PlanCommands

variable {d : Dev} {src : Master} {w : Word} (passes : d.refusal src Reg.BUR_PLAN_CTRL true = none) (ready : d.bit Reg.BUR_STATUS 0 = true)
include passes ready

/-- A plan command while one runs. -/
theorem Dev.wPlanCtrl_busy (busy : d.bit Reg.BUR_PLAN_STATUS 19 = true) : d.wPlanCtrl src w = d.logDiscard Reg.BUR_PLAN_CTRL := by
  rw [Dev.wPlanCtrl, d.guard_of_passes passes]
  simp only [ready, busy, Bool.or_true, if_true]

/-- A plan command while none runs. -/
theorem Dev.wPlanCtrl_free (free : d.bit Reg.BUR_PLAN_STATUS 19 = false) {k : Nat}
    (hk : fieldOf w 56 3 = 1 ∧ k = 0 ∨ fieldOf w 56 3 = 2 ∧ k = 1 ∨ fieldOf w 56 3 = 4 ∧ k = 2) :
    d.wPlanCtrl src w = { (d.plainWrite Reg.BUR_PLAN_CTRL w).setBit Reg.BUR_PLAN_STATUS 19 true with
      planCmd := some { kind := k, ctx := fieldOf w 48 3, addr := fieldOf w 0 48 } } := by
  rw [Dev.wPlanCtrl, d.guard_of_passes passes]
  simp only [ready, free, Bool.not_true, Bool.or_self, Bool.false_eq_true, if_false]
  obtain ⟨hw, rfl⟩ | ⟨hw, rfl⟩ | ⟨hw, rfl⟩ := hk <;>
  · rw [hw]
    rfl

end PlanCommands

/-- Settles O33: the three plan commands are one write rule, and a stop step is another. -/
theorem planCommandsAccepted : Obligations.PlanCommandsAccepted := by
  unfold Obligations.PlanCommandsAccepted
  refine ⟨fun d src w passes ready => ?_, fun d src x w hx passes => ?_⟩
  · have load : ∀ {e : Dev}, d.wPlanCtrl src w = e → Becomes (.load src w) d e := becomes_of_run (f := (·.wPlanCtrl src w)) fun _ => rfl
    have start : ∀ {e : Dev}, d.wPlanCtrl src w = e → Becomes (.start src w) d e := becomes_of_run (f := (·.wPlanCtrl src w)) fun _ => rfl
    have unload : ∀ {e : Dev}, d.wPlanCtrl src w = e → Becomes (.unload src w) d e := becomes_of_run (f := (·.wPlanCtrl src w)) fun _ => rfl
    refine ⟨fun free => ⟨fun hw => load ?_, fun hw => start ?_, fun hw => unload ?_⟩, fun busy => ?_⟩
    · exact Dev.wPlanCtrl_free passes ready free (.inl ⟨hw, rfl⟩)
    · exact Dev.wPlanCtrl_free passes ready free (.inr (.inl ⟨hw, rfl⟩))
    · exact Dev.wPlanCtrl_free passes ready free (.inr (.inr ⟨hw, rfl⟩))
    · have discards : d.wPlanCtrl src w = d.logDiscard Reg.BUR_PLAN_CTRL := Dev.wPlanCtrl_busy passes ready busy
      exact ⟨load discards, start discards, unload discards⟩
  · have stop : ∀ {e : Dev}, d.wPlanStop src x w = e → Becomes (.planStopWrite src x w) d e := fun h =>
      becomes_of_run (f := fun d => if x < 8 then d.wPlanStop src x w else d) (fun _ => rfl) ((if_pos hx).trans h)
    have rule : d.wPlanStop src x w = if d.loaded x && w.toNat < (d.ctx x).step.toNat then d.logDiscard (Reg.BUR_PLAN_STOP x)
        else d.plainWrite (Reg.BUR_PLAN_STOP x) w := by
      rw [Dev.wPlanStop, d.guard_of_passes passes]
    refine ⟨fun ahead => stop ?_, fun loaded behind => stop ?_⟩
    · rw [rule, if_neg]
      rw [Bool.and_eq_true, decide_eq_true_eq]
      rintro ⟨loaded, behind⟩
      obtain unloaded | ahead := ahead
      · exact Bool.false_ne_true (unloaded.symm.trans loaded)
      · exact Nat.not_lt.2 ahead behind
    · rw [rule, loaded, decide_eq_true behind]
      rfl

/-! ## KILL, TEARDOWN and the phases of a teardown (R746 to R755) -/

/-- A fold keeps what each of its steps keeps. -/
theorem foldl_keeps {α β γ : Type} (g : β → γ) {f : β → α → β} (h : ∀ e a, g (f e a) = g e) (l : List α) (e : β) :
    g (l.foldl f e) = g e := by
  induction l generalizing e with
  | nil => rfl
  | cons a l ih => exact (ih (f e a)).trans (h e a)

/-- The contexts, the sequencers' copies of registers and the clusters. -/
def Dev.ctxPart (d : Dev) : SMap Ctx × SMap SeqRegs × SMap Cluster := (d.ctxs, d.seqs, d.clus)

theorem Dev.ctxs_of_ctxPart {d e : Dev} (h : e.ctxPart = d.ctxPart) : e.ctxs = d.ctxs := congrArg Prod.fst h

theorem Dev.copyFault_ctxPart (d : Dev) (x k r : Nat) (own : Bool) : (d.copyFault x k r own).ctxPart = d.ctxPart := by
  rw [Dev.copyFault]
  split <;> rfl

theorem Dev.copyFault_ctxs (d : Dev) (x k r : Nat) (own : Bool) : (d.copyFault x k r own).ctxs = d.ctxs :=
  Dev.ctxs_of_ctxPart (d.copyFault_ctxPart x k r own)

theorem emptyEntries_ctxPart (n : Nat) (d : Dev) : (emptyEntries n d).2.ctxPart = d.ctxPart := by
  induction n generalizing d with
  | zero => rfl
  | succ n ih => exact ih (d.freshBytes 12).2

theorem Dev.writePieces_ctxPart (x : Nat) (ps : List Piece) (bs : Bytes) (d : Dev) : (d.writePieces x ps bs).ctxPart = d.ctxPart := by
  induction ps generalizing d bs with
  | nil => rfl
  | cons p ps ih => exact ih _ _

theorem emptyEntries_write_ctxPart (n : Nat) (d : Dev) (a : Nat) :
    ((emptyEntries n d).2.write a (emptyEntries n d).1).ctxPart = d.ctxPart := emptyEntries_ctxPart n d

theorem Dev.fillBank_eq (d : Dev) (c bank : Nat) :
    d.fillBank c bank = (emptyEntries 65536 d).2.write (spadAddr c (bank * 0x100000)) (emptyEntries 65536 d).1 := by
  delta Dev.fillBank
  exact rfl

theorem Dev.fillBank_ctxPart (d : Dev) (c bank : Nat) : (d.fillBank c bank).ctxPart = d.ctxPart := by
  rw [Dev.fillBank_eq]
  exact emptyEntries_write_ctxPart _ d _

theorem Dev.loseOvf_ctxPart (d : Dev) (x : Nat) (h : Hacc) : (d.loseOvf x h).ctxPart = d.ctxPart := by
  rw [Dev.loseOvf]
  split
  · rfl
  · split
    · exact Dev.writePieces_ctxPart _ _ _ _
    · rfl

/-- What a teardown clears of a cluster changes no context, no sequencer's registers and no other cluster. -/
theorem Dev.clearCluster_eq (d : Dev) (x c : Nat) :
    d.clearCluster x c = d ∨ ∃ (e : Dev) (f : Cluster → Cluster), e.ctxPart = d.ctxPart ∧ d.clearCluster x c = e.modClu c f := by
  have regsKeep := foldl_keeps Dev.ctxPart (f := fun (e : Dev) (q : Nat × Nat) => (e.setReg (Reg.CTX_FR x q.2) (e.reg q.1)).setReg q.1 0)
    fun _ _ => rfl
  have faultsKeep := foldl_keeps Dev.ctxPart
    (f := fun (e : Dev) u => e.copyFault x (8 + u) (Reg.DRS_U_FAULT u) (e.fld (Reg.DRS_U_FAULT u) 16 7 == c))
    fun e u => e.copyFault_ctxPart _ _ _ _
  have setKeeps : ∀ (e : Dev) (o : Nat) (v : Word), (e.setReg o v).ctxPart = e.ctxPart := fun _ _ _ => rfl
  rw [Dev.clearCluster]
  split
  · exact .inl rfl
  · refine .inr ⟨_, _, ?_, rfl⟩
    split <;> simp only [Dev.loseOvf_ctxPart, Dev.fillBank_ctxPart, faultsKeep, setKeeps, regsKeep]

theorem Dev.clearCluster_ctxs (d : Dev) (x c : Nat) : (d.clearCluster x c).ctxs = d.ctxs := by
  obtain h | ⟨e, f, part, h⟩ := d.clearCluster_eq x c
  · rw [h]
  · rw [h]
    exact (e.setClu_ctxs c _).trans (Dev.ctxs_of_ctxPart part)

/-- The block whose context a CLEAR unloads (R755): what it owned is cleared, and its record is complete. -/
def Dev.cleared (d : Dev) (x : Nat) : Dev :=
  let d := d.clearSpad x
  let d := d.copyFault x 16 Reg.CAB_FAULT (d.fld Reg.CAB_FAULT 20 3 == x)
  let d := d.copyFault x 17 Reg.TIER_FAULT (d.fld Reg.TIER_FAULT 24 3 == x)
  let d := d.copyFault x 18 Reg.COL_FAULT (d.fld Reg.COL_FAULT 10 3 == x)
  let d := d.setReg (Reg.CTX_FR x 19) (d.reg (Reg.FAB_CTX_ID x))
  let d := d.copyFault x 20 Reg.CKP_FAULT (d.fld Reg.CKP_FAULT 24 3 == x)
  let d := (planOrder (d.ctx x).plan).foldl (fun e c => e.clearCluster x c) d
  d.setReg (Reg.CTX_FR x 4) d.time

theorem Dev.clearDone_eq (d : Dev) {x : Nat} (hs : (d.ctx x).state = .frozen) (hp : (d.ctx x).phase = 4) :
    d.clearDone x = (d.cleared x).toUnloaded x := by
  rw [Dev.clearDone, hs, hp]
  rfl

theorem Dev.cleared_ctxs (d : Dev) (x : Nat) : (d.cleared x).ctxs = d.ctxs := by
  have clustersKeep := foldl_keeps Dev.ctxs (f := fun (e : Dev) c => e.clearCluster x c) fun e c => e.clearCluster_ctxs x c
  have spadKeeps : (d.clearSpad x).ctxs = d.ctxs := rfl
  simp only [Dev.cleared, Dev.setReg_ctxs, clustersKeep, Dev.copyFault_ctxs, spadKeeps]

theorem Dev.noteLoaded_ctxs (d : Dev) : d.noteLoaded.ctxs = d.ctxs := rfl

theorem Dev.restartEnd_ctxs (d : Dev) : d.restartEnd.ctxs = d.ctxs := by
  simp only [Dev.restartEnd]
  split
  · split <;> rfl
  · rfl

/-- An unloaded context keeps its step, its lateness and its gap alone (R755). -/
theorem Dev.toUnloaded_ctx (d : Dev) (x : Nat) (h : d.tablesWf = true) :
    (d.toUnloaded x).ctx x = { step := (d.ctx x).step, late := (d.ctx x).late, gap := (d.ctx x).gap } := by
  refine Eq.trans ?_ (d.setCtx_same x { step := (d.ctx x).step, late := (d.ctx x).late, gap := (d.ctx x).gap } (d.ctxs_rise h))
  refine congrArg (mapGet (fun _ => ({} : Ctx)) · x) ?_
  rw [Dev.toUnloaded, Dev.restartEnd_ctxs, Dev.noteLoaded_ctxs]
  rfl

section Teardown

variable {d : Dev} {src : Master} {x : Nat} {w : Word}

theorem Dev.wCtxCtrl_kill (passes : d.refusal src (Reg.CTX_CTX_CTRL x) true = none) (h0 : bitOf w 0 = true) (h1 : bitOf w 1 = false) :
    d.wCtxCtrl src x w = d.kill x := by
  rw [Dev.wCtxCtrl, d.guard_of_passes passes, h0, h1]

theorem Dev.wCtxCtrl_teardown (passes : d.refusal src (Reg.CTX_CTX_CTRL x) true = none) (h0 : bitOf w 0 = false) (h1 : bitOf w 1 = true) :
    d.wCtxCtrl src x w = if d.inHold x then d.endHold x else d.logDiscard (Reg.CTX_CTX_CTRL x) := by
  rw [Dev.wCtxCtrl, d.guard_of_passes passes, h0, h1]

theorem Dev.inHold_of (hs : (d.ctx x).state = .frozen) (hp : (d.ctx x).phase = 1) : d.inHold x = true := by
  rw [Dev.inHold, hs, hp]
  rfl

theorem Dev.inHold_of_not_frozen (hs : (d.ctx x).state ≠ .frozen) : d.inHold x = false := by
  rw [Dev.inHold, beq_eq_false_iff_ne.2 hs, Bool.false_and]

/-- QUIESCE ends when no tracker of the context is in flight, but those of a snapshot. -/
theorem Dev.quiesceDone_of (hs : (d.ctx x).state = .frozen) (hp : (d.ctx x).phase = 2) (hsnap : mapFind d.snaps x = none)
    (ht : ∀ k t, (k, t) ∈ d.trks → t.ctx = x → t.kind = 0 ∨ t.src = 12 ∨ t.state = 4) :
    d.quiesceDone x = d.setCtx x { d.ctx x with phase := 3 } := by
  have quiet : (d.trks.any fun e => e.2.kind != 0 && e.2.src != 12 && e.2.ctx == x && e.2.state != 4) = false := by
    refine List.any_eq_false.2 fun e he busy => ?_
    simp only [Bool.and_eq_true, bne_iff_ne, beq_iff_eq] at busy
    obtain ⟨⟨⟨hk, hsrc⟩, hx⟩, hst⟩ := busy
    obtain h | h | h := ht e.1 e.2 he hx
    · exact hk h
    · exact hsrc h
    · exact hst h
  have noSnap : d.snapAbort x 4 = d := by rw [Dev.snapAbort, hsnap]
  rw [Dev.quiesceDone, hs, hp, quiet, noSnap]
  rfl

end Teardown

/-- Settles O39: each write and each phase's end by its own rule. -/
theorem teardownPhases : Obligations.TeardownPhases := by
  unfold Obligations.TeardownPhases
  intro d src x w hx
  have kills : ∀ {e : Dev}, d.wCtxCtrl src x w = e → Becomes (.kill src x w) d e := fun h =>
    becomes_of_run (f := fun d => if x < 8 then d.wCtxCtrl src x w else d) (fun _ => rfl) ((if_pos hx).trans h)
  have tears : ∀ {e : Dev}, d.wCtxCtrl src x w = e → Becomes (.teardown src x w) d e := fun h =>
    becomes_of_run (f := fun d => if x < 8 then d.wCtxCtrl src x w else d) (fun _ => rfl) ((if_pos hx).trans h)
  refine ⟨fun passes => ⟨fun h0 h1 => ⟨fun hf => kills ?_, fun hf => kills ?_⟩, fun h0 h1 => ⟨fun hs hp => tears ?_, fun hs => tears ?_⟩⟩,
    fun hs hp ht => ?_, fun hs hp hsnap ht => ?_, fun hs hp => ?_, fun hs hp => ⟨d.cleared x, ?_, ?_, fun f hf => ?_⟩⟩
  · rw [Dev.wCtxCtrl_kill passes h0 h1, Dev.kill, if_pos hf]
  · rw [Dev.wCtxCtrl_kill passes h0 h1, Dev.kill, hf]
    rfl
  · rw [Dev.wCtxCtrl_teardown passes h0 h1, Dev.inHold_of hs hp]
    rfl
  · rw [Dev.wCtxCtrl_teardown passes h0 h1, Dev.inHold_of_not_frozen hs]
    rfl
  · refine becomes_of_run (f := fun d => if d.inHold x && decide ((d.ctx x).holdEnd ≤ d.time.toNat) then d.endHold x else d) (fun _ => rfl) ?_
    rw [Dev.inHold_of hs hp, decide_eq_true ht]
    rfl
  · exact becomes_of_run (f := (·.quiesceDone x)) (fun _ => rfl) (Dev.quiesceDone_of hs hp hsnap ht)
  · refine becomes_of_run (f := (·.releaseDone x)) (fun _ => rfl) ?_
    rw [Dev.releaseDone, hs, hp]
    rfl
  · exact becomes_of_run (f := fun d => if x < 8 then d.clearDone x else d) (fun _ => rfl) ((if_pos hx).trans (d.clearDone_eq hs hp))
  · rw [Dev.ctx, Dev.cleared_ctxs]
    exact hs
  · rw [Dev.toUnloaded_ctx _ x hf]
    exact ⟨rfl, rfl, rfl⟩

end Sys2Proof.Machine

namespace Sys2Proof.Machine

/-! ## Fields of registers (R21) -/

/-- A bit of a word after a field is written. -/
theorem getLsbD_setField (v : Word) (lo w x i : Nat) (hi : i < 64) :
    (setField v lo w x).getLsbD i = if lo ≤ i ∧ i < lo + w then x.testBit (i - lo) else v.getLsbD i := by
  simp only [setField, BitVec.getLsbD_or, BitVec.getLsbD_and, BitVec.getLsbD_not, BitVec.getLsbD_ofNat, hi, decide_true, Bool.true_and,
    Nat.testBit_shiftLeft, Nat.testBit_two_pow_sub_one]
  by_cases h1 : lo ≤ i
  · by_cases h2 : i < lo + w
    · have h3 : i - lo < w := by omega
      simp only [h1, h2, h3, decide_true, Bool.and_self, Bool.not_true, Bool.and_false, Bool.false_or, Bool.and_true, Bool.true_and, and_self, if_true]
    · have h3 : ¬ i - lo < w := by omega
      simp only [h1, h2, h3, decide_true, decide_false, Bool.and_false, Bool.not_false, Bool.and_true, Bool.or_false, and_false, if_false]
  · simp only [h1, decide_false, Bool.false_and, Bool.and_false, Bool.not_false, Bool.and_true, Bool.or_false, false_and, if_false]

theorem testBit_fieldOf (v : Word) (lo w i : Nat) : (fieldOf v lo w).testBit i = (decide (i < w) && v.getLsbD (lo + i)) := by
  rw [fieldOf, bitsOf, Nat.testBit_mod_two_pow, Nat.testBit_shiftRight]
  rfl

/-- The field that was written. -/
theorem fieldOf_setField_same (v : Word) {lo w : Nat} (x : Nat) (h : lo + w ≤ 64) : fieldOf (setField v lo w x) lo w = x % 2 ^ w := by
  refine Nat.eq_of_testBit_eq fun i => ?_
  rw [testBit_fieldOf, Nat.testBit_mod_two_pow]
  by_cases hi : i < w
  · rw [getLsbD_setField v lo w x _ (by omega), if_pos ⟨by omega, by omega⟩, Nat.add_sub_cancel_left]
  · rw [decide_eq_false hi, Bool.false_and, Bool.false_and]

/-- A field apart from the one that was written. -/
theorem fieldOf_setField_other (v : Word) {lo w lo' w' : Nat} (x : Nat) (h : lo' + w' ≤ 64) (hd : lo' + w' ≤ lo ∨ lo + w ≤ lo') :
    fieldOf (setField v lo w x) lo' w' = fieldOf v lo' w' := by
  refine Nat.eq_of_testBit_eq fun i => ?_
  rw [testBit_fieldOf, testBit_fieldOf]
  by_cases hi : i < w'
  · rw [getLsbD_setField v lo w x _ (by omega), if_neg (by omega)]
  · rw [decide_eq_false hi, Bool.false_and, Bool.false_and]

theorem fieldOf_lt (v : Word) (lo w : Nat) : fieldOf v lo w < 2 ^ w := Nat.mod_lt _ (Nat.two_pow_pos w)

/-- A field of a word given by a number. -/
theorem fieldOf_ofNat {n lo w : Nat} (hn : n < 2 ^ 64) : fieldOf (BitVec.ofNat 64 n) lo w = n / 2 ^ lo % 2 ^ w := by
  rw [fieldOf, bitsOf, BitVec.toNat_ofNat, Nat.mod_eq_of_lt hn, Nat.shiftRight_eq_div_pow]

theorem bitOf_ofNat {n i : Nat} (hn : n < 2 ^ 64) : bitOf (BitVec.ofNat 64 n) i = decide (n / 2 ^ i % 2 = 1) := by
  rw [bitOf, BitVec.getLsbD, BitVec.toNat_ofNat, Nat.mod_eq_of_lt hn, Nat.testBit_eq_decide_div_mod_eq]

/-- Writing a field of a register of a well-formed block. -/
theorem Dev.fld_setFld_same (d : Dev) (o : Nat) {lo w : Nat} (x : Nat) (hwf : mapWf csrReset d.csr = true) (h : lo + w ≤ 64) :
    (d.setFld o lo w x).fld o lo w = x % 2 ^ w := by
  rw [Dev.fld, Dev.setFld, d.setReg_same o _ hwf, fieldOf_setField_same _ x h]

theorem Dev.setReg_csr_wf (d : Dev) (o : Nat) (v : Word) (h : mapWf csrReset d.csr = true) : mapWf csrReset (d.setReg o v).csr = true :=
  mapWf_mapSet csrReset d.csr o v h

/-! ## The error log (R862, R863, R865) -/

/-- The head word of a log entry. -/
def logWord (n cls code block : Nat) (ctx : Option Nat) : Nat :=
  n + cls * 2 ^ 32 + code * 2 ^ 40 + block * 2 ^ 48 + (match ctx with | some x => (x % 8) * 2 ^ 56 + 2 ^ 59 | none => 0)

/-- The four words of an entry of the log. -/
def Dev.logWords (d : Dev) (i : Nat) (w1 : Nat) (unit detail : Nat) : Dev :=
  (((d.setReg (Reg.AON_LOG i 0) d.time).setReg (Reg.AON_LOG i 1) (BitVec.ofNat 64 w1)).setReg (Reg.AON_LOG i 2)
    (BitVec.ofNat 64 (unit % 65536))).setReg (Reg.AON_LOG i 3) (BitVec.ofNat 64 detail)

/-- A log entry before the vector and the alert that it raises. -/
def Dev.logged (d : Dev) (cls code block : Nat) (ctx : Option Nat) (unit detail : Nat) : Dev :=
  let n := (d.fld Reg.AON_LOG_STATUS 0 32 + 1) % 2 ^ 32
  (d.logWords ((n + 2 ^ 32 - 1) % 1024) (logWord n cls code block ctx) unit detail).setFld Reg.AON_LOG_STATUS 0 32 n

theorem Dev.log_eq (d : Dev) (cls code block : Nat) (ctx : Option Nat) (unit detail : Nat) :
    d.log cls code block ctx unit detail = ((d.logged cls code block ctx unit detail).msix 0 0).alert 1 := by
  cases ctx <;> rfl

theorem Dev.msix_keeps (d : Dev) (fn vec : Nat) : (d.msix fn vec).csr = d.csr ∧ (d.msix fn vec).ctxs = d.ctxs ∧ (d.msix fn vec).mem = d.mem := by
  rw [Dev.msix]
  split
  · exact ⟨rfl, rfl, rfl⟩
  · split <;> exact ⟨rfl, rfl, rfl⟩

theorem Dev.log_reg (d : Dev) (cls code block : Nat) (ctx : Option Nat) (unit detail o : Nat) :
    (d.log cls code block ctx unit detail).reg o = (d.logged cls code block ctx unit detail).reg o := by
  rw [Dev.log_eq]
  exact congrArg (mapGet csrReset · o) (Dev.msix_keeps _ 0 0).1

theorem Dev.log_ctxs (d : Dev) (cls code block : Nat) (ctx : Option Nat) (unit detail : Nat) :
    (d.log cls code block ctx unit detail).ctxs = d.ctxs := by
  rw [Dev.log_eq]
  exact (Dev.msix_keeps _ 0 0).2.1

theorem Dev.log_mem (d : Dev) (cls code block : Nat) (ctx : Option Nat) (unit detail : Nat) :
    (d.log cls code block ctx unit detail).mem = d.mem := by
  rw [Dev.log_eq]
  exact (Dev.msix_keeps _ 0 0).2.2

/-- The place of the entry is the count before it, modulo 1,024. -/
theorem log_place (f : Nat) : ((f + 1) % 2 ^ 32 + 2 ^ 32 - 1) % 1024 = f % 1024 := by omega

section LogWords

variable (d : Dev) (i w1 unit detail : Nat)

theorem Dev.logWords_reg_other {o : Nat} (h : ∀ k, k < 4 → o ≠ Reg.AON_LOG i k) : (d.logWords i w1 unit detail).reg o = d.reg o := by
  rw [Dev.logWords, Dev.setReg_other _ _ _ _ (h 3 (by decide)), Dev.setReg_other _ _ _ _ (h 2 (by decide)),
    Dev.setReg_other _ _ _ _ (h 1 (by decide)), Dev.setReg_other _ _ _ _ (h 0 (by decide))]

theorem AON_LOG_ne {j k : Nat} (h : j ≠ k) : Reg.AON_LOG i j ≠ Reg.AON_LOG i k := by
  simp only [Reg.AON_LOG]
  omega

variable (hwf : mapWf csrReset d.csr = true)
include hwf

theorem Dev.logWords_csr_wf : mapWf csrReset (d.logWords i w1 unit detail).csr = true :=
  Dev.setReg_csr_wf _ _ _ (Dev.setReg_csr_wf _ _ _ (Dev.setReg_csr_wf _ _ _ (Dev.setReg_csr_wf _ _ _ hwf)))

/-- The words of the entry read back. -/
theorem Dev.logWords_reg : (d.logWords i w1 unit detail).reg (Reg.AON_LOG i 0) = d.time ∧
    (d.logWords i w1 unit detail).reg (Reg.AON_LOG i 1) = BitVec.ofNat 64 w1 ∧
    (d.logWords i w1 unit detail).reg (Reg.AON_LOG i 2) = BitVec.ofNat 64 (unit % 65536) ∧
    (d.logWords i w1 unit detail).reg (Reg.AON_LOG i 3) = BitVec.ofNat 64 detail := by
  have wf0 := d.setReg_csr_wf (Reg.AON_LOG i 0) d.time hwf
  have wf1 := Dev.setReg_csr_wf _ (Reg.AON_LOG i 1) (BitVec.ofNat 64 w1) wf0
  have wf2 := Dev.setReg_csr_wf _ (Reg.AON_LOG i 2) (BitVec.ofNat 64 (unit % 65536)) wf1
  refine ⟨?_, ?_, ?_, Dev.setReg_same _ _ _ wf2⟩
  · rw [Dev.logWords, Dev.setReg_other _ _ _ _ (AON_LOG_ne i (by decide)), Dev.setReg_other _ _ _ _ (AON_LOG_ne i (by decide)),
      Dev.setReg_other _ _ _ _ (AON_LOG_ne i (by decide)), Dev.setReg_same _ _ _ hwf]
  · rw [Dev.logWords, Dev.setReg_other _ _ _ _ (AON_LOG_ne i (by decide)), Dev.setReg_other _ _ _ _ (AON_LOG_ne i (by decide)),
      Dev.setReg_same _ _ _ wf0]
  · rw [Dev.logWords, Dev.setReg_other _ _ _ _ (AON_LOG_ne i (by decide)), Dev.setReg_same _ _ _ wf1]

end LogWords

/-- The fields of the head word. -/
theorem logWord_fields {n cls code block : Nat} (ctx : Option Nat) (hn : n < 2 ^ 32) (hcls : cls < 256) (hcode : code < 256) (hblock : block < 256) :
    let w := BitVec.ofNat 64 (logWord n cls code block ctx)
    fieldOf w 0 32 = n ∧ fieldOf w 32 8 = cls ∧ fieldOf w 40 8 = code ∧ fieldOf w 48 8 = block ∧
      (∀ x, ctx = some x → x < 8 → fieldOf w 56 3 = x ∧ bitOf w 59 = true) ∧ (ctx = none → bitOf w 59 = false) := by
  cases ctx with
  | none =>
    have small : logWord n cls code block none < 2 ^ 64 := by simp only [logWord]; omega
    simp only [fieldOf_ofNat small, bitOf_ofNat small, decide_eq_true_eq, decide_eq_false_iff_not]
    simp only [logWord]
    exact ⟨by omega, by omega, by omega, by omega, nofun, fun _ => by omega⟩
  | some x =>
    have small : logWord n cls code block (some x) < 2 ^ 64 := by simp only [logWord]; omega
    simp only [fieldOf_ofNat small, bitOf_ofNat small, decide_eq_true_eq, decide_eq_false_iff_not]
    simp only [logWord]
    refine ⟨by omega, by omega, by omega, by omega, ?_, nofun⟩
    rintro y ⟨⟩ hy
    exact ⟨by omega, by omega⟩

/-- The vector and the alert of an entry, with the host's domain on, its vector unmasked and the I3C bus sound. -/
theorem Dev.msix_alert_out (d : Dev) (h24 : d.domOn 24 = true) (hm : mapGet (fun _ => false) d.msixMask 0 = false) (hi : d.i3cFailed = false) :
    ((d.msix 0 0).alert 1).out = d.out ++ [.msix 0 0, .ibi 1] := by
  have sent : d.msix 0 0 = d.emit (.msix 0 0) := by
    have unmasked : mapGet (fun _ => false) d.msixMask (0 * 16 + 0) = false := hm
    rw [Dev.msix, h24, unmasked]
    rfl
  have sound : (d.emit (.msix 0 0)).i3cFailed = false := hi
  rw [sent, Dev.alert, sound]
  exact List.append_assoc _ _ _

/-- Settles O41: the entry's words, then what it raises. -/
theorem errorLogEntries : Obligations.ErrorLogEntries := by
  unfold Obligations.ErrorLogEntries
  intro d cls code block unit detail ctx hwf hcls hcode hblock
  have place := log_place (d.fld Reg.AON_LOG_STATUS 0 32)
  have count : (d.fld Reg.AON_LOG_STATUS 0 32 + 1) % 2 ^ 32 < 2 ^ 32 := Nat.mod_lt _ (by decide)
  dsimp only
  generalize hn : (d.fld Reg.AON_LOG_STATUS 0 32 + 1) % 2 ^ 32 = n at count
  generalize hi : d.fld Reg.AON_LOG_STATUS 0 32 % 1024 = i
  have entry : d.logged cls code block ctx unit detail =
      (d.logWords i (logWord n cls code block ctx) unit detail).setFld Reg.AON_LOG_STATUS 0 32 n := by
    rw [Dev.logged, ← hi, ← hn, ← place]
  have small : i < 1024 := by rw [← hi]; exact Nat.mod_lt _ (by decide)
  have apart : ∀ k, Reg.AON_LOG i k ≠ Reg.AON_LOG_STATUS := fun k => by simp only [Reg.AON_LOG, Reg.AON_LOG_STATUS]; omega
  have wf := d.logWords_csr_wf i (logWord n cls code block ctx) unit detail (d.csr_wf hwf)
  have other : ∀ o, o ≠ Reg.AON_LOG_STATUS → (d.log cls code block ctx unit detail).reg o =
      (d.logWords i (logWord n cls code block ctx) unit detail).reg o := fun o ho => by
    rw [Dev.log_reg, entry, Dev.setFld, Dev.setReg_other _ _ _ _ ho]
  obtain ⟨word0, word1, word2, word3⟩ := d.logWords_reg i (logWord n cls code block ctx) unit detail (d.csr_wf hwf)
  obtain ⟨fn, fcls, fcode, fblock, fctx, fnone⟩ := logWord_fields ctx count hcls hcode hblock
  have head : (d.log cls code block ctx unit detail).reg (Reg.AON_LOG i 1) = BitVec.ofNat 64 (logWord n cls code block ctx) :=
    (other _ (apart 1)).trans word1
  have unitWord : (d.log cls code block ctx unit detail).reg (Reg.AON_LOG i 2) = BitVec.ofNat 64 (unit % 65536) := (other _ (apart 2)).trans word2
  refine ⟨?_, (other _ (apart 0)).trans word0, ?_, ?_, ?_, ?_, fun x hx hx8 => ⟨?_, ?_⟩, fun hx => ?_, ?_, (other _ (apart 3)).trans word3,
    fun o ho hw => (other o ho).trans (d.logWords_reg_other i _ unit detail hw), fun h24 hm hi3 => ?_, d.log_ctxs _ _ _ _ _ _, d.log_mem _ _ _ _ _ _⟩
  · rw [Dev.fld, Dev.log_reg, entry]
    exact (Dev.fld_setFld_same _ _ n wf (by decide)).trans (Nat.mod_eq_of_lt count)
  · rw [Dev.fld, head, fn]
  · rw [Dev.fld, head, fcls]
  · rw [Dev.fld, head, fcode]
  · rw [Dev.fld, head, fblock]
  · rw [Dev.fld, head, (fctx x hx hx8).1]
  · rw [Dev.bit, head, (fctx x hx hx8).2]
  · rw [Dev.bit, head, fnone hx]
  · rw [Dev.fld, unitWord, fieldOf_ofNat (by omega)]
    omega
  · have status : ∀ {o}, o = Reg.PWR_DOMAIN_STATUS ∨ o = Reg.MGT_I3C_STATUS → (d.logged cls code block ctx unit detail).reg o = d.reg o := fun {o} ho => by
      rw [← Dev.log_reg]
      refine (other o ?_).trans (d.logWords_reg_other i _ unit detail fun k hk => ?_) <;>
      · simp only [Reg.PWR_DOMAIN_STATUS, Reg.MGT_I3C_STATUS, Reg.AON_LOG, Reg.AON_LOG_STATUS] at ho ⊢
        omega
    rw [Dev.log_eq, Dev.msix_alert_out]
    · rfl
    · rw [← h24, Dev.domOn, Dev.domOn, Dev.bit, Dev.bit, status (.inl rfl)]
    · exact hm
    · rw [← hi3, Dev.i3cFailed, Dev.i3cFailed, Dev.fld, Dev.fld, status (.inr rfl)]

end Sys2Proof.Machine

namespace Sys2Proof.Machine

/-! ## Gating, wake entries, PLLs, windows and code fetch (R134 to R144, R209) -/

section Gating

variable (d : Dev)

/-- A stalled cluster with nothing to do is gated. -/
theorem Dev.gate_of {c : Nat} (hs : (d.clu c).stalled = true) (hm : d.mxEmpty c = true) (hcur : (d.clu c).cur = .off)
    (hv : (d.clu c).vxNow = none) (h1 : d.queued c 1 = 0) (h2 : d.queued c 2 = 0) :
    d.gate c = d.modClu c fun k => { k with gated := true } := by
  simp only [Dev.gate, hs, hm, hcur, hv, h1, h2, Option.isNone_none, decide_true, beq_self_eq_true, Bool.and_self, if_true]

theorem Dev.groupStalled_iff {g : Nat} : d.groupStalled g = true ↔ ∀ c ∈ upFrom (8 * g) 8, (d.clu c).stalled = true ∨ (d.clu c).seq = .idle := by
  simp only [Dev.groupStalled, List.all_eq_true, Bool.or_eq_true, beq_iff_eq]

/-- A stop of a group waits for the current of its stalled arrays. -/
theorem Dev.stopWaits_iff {g : Nat} :
    d.stopWaits g = true ↔ d.groupStalled g = true ∧ ∃ c ∈ upFrom (8 * g) 8, (d.clu c).cur ≠ .off := by
  simp only [Dev.stopWaits, Bool.and_eq_true, List.any_eq_true, bne_iff_ne]

/-- A wake entry whose time has come. -/
theorem Dev.wakeEntry_due {x i action : Nat} {e : WakeEntry} {f : Nat → Dev → Dev} (he : (planWakes (d.ctx x).plan)[i]? = some e)
    (hw : (d.ctx x).hasWoken = true) (hn : (d.ctx x).woken.contains i = false)
    (ht : ((d.ctx x).tRun : Int) + e.at_ ≤ (d.time.toNat : Int)) (ha : e.action = action) :
    d.wakeEntry x i action f = f e.group (d.setCtx x { d.ctx x with woken := (d.ctx x).woken ++ [i] }) := by
  have due : ¬ (d.time.toNat : Int) < (d.ctx x).tRun + e.at_ := Int.not_lt.2 ht
  rw [Dev.wakeEntry, he]
  refine if_neg ?_
  rw [hw, hn, decide_eq_false due, decide_eq_false (not_not_intro ha)]
  exact Bool.false_ne_true

/-- A background window, its phase inside the period. -/
theorem Dev.inWin_iff {r n : Nat} (hp : (d.bgWindow r n).1 ≠ 0) (hph : (d.bgWindow r n).2.2 < (d.bgWindow r n).1) :
    d.inWin r n = true ↔ (d.time.toNat + ((d.bgWindow r n).1 - (d.bgWindow r n).2.2)) % (d.bgWindow r n).1 < (d.bgWindow r n).2.1 := by
  rw [Dev.inWin, bne_iff_ne.2 hp, Bool.true_and, decide_eq_true_eq, Nat.mod_eq_of_lt hph, Nat.add_sub_assoc (Nat.le_of_lt hph)]

/-- An empty fetch buffer of a running sequencer takes the bundle at PC. -/
theorem Dev.codeFetch_of {c : Nat} {ext : Extent} (hf : (d.clu c).fetch = []) (hs : (d.clu c).seq = .running ∨ (d.clu c).seq = .waiting)
    (hr : (d.ctx (d.clu c).ctx).state = .running) (hc : d.clocked c = true)
    (hl : (d.seqr c (d.clu c).ctx).pc < d.imageLen (d.clu c).ctx c) (he : d.extent (d.clu c).ctx c = some ext) :
    d.codeFetch c .clean = if d.poisoned (spadAddr c (0x700000 + ext.base + (d.seqr c (d.clu c).ctx).pc)) 16
      then d.freeze (d.clu c).ctx 0xB (c / 8) 0 0 0 0
      else (d.modClu c fun k => { k with fetch := k.fetch ++ [(d.seqr c (d.clu c).ctx).pc] }).addFld (Reg.SEQ_FETCH_BYTES c) 0 64 16 := by
  have runs : ((d.clu c).seq == .running || (d.clu c).seq == .waiting) = true := by
    obtain h | h := hs <;> rw [h] <;> rfl
  have running : ((d.ctx (d.clu c).ctx).state == CtxState.running) = true := beq_iff_eq.2 hr
  simp only [Dev.codeFetch, hf, fetchNext, pastBranch, runs, running, hc, hl, he, List.length_nil, List.any_nil, Bool.not_false, Bool.and_self,
    Nat.zero_lt_succ, decide_true, Dev.eccEvent]

theorem after_wakeStop {x i : Nat} {e : WakeEntry} (he : (planWakes (d.ctx x).plan)[i]? = some e) :
    d.after (.wakeStop x i) = (if d.stopWaits e.group then d
      else d.wakeEntry x i 1 fun g d => if d.groupStalled g then d.setPll g .stopped else d.addFld Reg.PWR_WAKE 0 32 1).settle := by
  refine (d.after_of_run (f := fun d => if ((planWakes (d.ctx x).plan)[i]?).any fun e => d.stopWaits e.group then d
    else d.wakeEntry x i 1 fun g d => if d.groupStalled g then d.setPll g .stopped else d.addFld Reg.PWR_WAKE 0 32 1) fun _ => rfl).trans ?_
  simp only [he, Option.any_some]

end Gating

/-- Settles O37: each event by the rule of its own object. -/
theorem gatingAndWakes : Obligations.GatingAndWakes := by
  unfold Obligations.GatingAndWakes
  intro d x i g
  refine ⟨fun c hc hs hm hcur hv h1 h2 => ?gate, fun e he hw hn ht => ⟨fun ha => ⟨fun still => ⟨fun off => ?stop, fun on => ?wait⟩, fun awake => ?count⟩,
      fun ha hp => ?start⟩, fun hp => ?lock, fun hp => ?locked, fun r n hn => ⟨d.inWin_iff, fun hin => ?opens, fun hout => ?closes⟩,
    fun c ext hf hs hr hc hl he => ?fetch⟩
  case gate =>
    exact becomes_of_run (f := fun d => if c < 128 then d.gate c else d) (fun _ => rfl) ((if_pos hc).trans (d.gate_of hs hm hcur hv h1 h2))
  case lock => exact becomes_of_run (f := fun d => if d.pll g = .locking then d.setPll g .locked else d) (fun _ => rfl) (if_pos hp)
  case locked => exact becomes_of_run (f := fun d => if d.pll g = .locking then d.setPll g .locked else d) (fun _ => rfl) (if_neg hp)
  case opens =>
    refine becomes_of_run (f := fun d =>
      if n < instances r && d.inWin r n then { d with windows := mapSet (fun _ => false) d.windows (r * 16 + n) true } else d) (fun _ => rfl) ?_
    exact if_pos (by rw [decide_eq_true hn, hin]; rfl)
  case closes =>
    refine becomes_of_run (f := fun d =>
      if n < instances r && !d.inWin r n then { d with windows := mapSet (fun _ => false) d.windows (r * 16 + n) false } else d) (fun _ => rfl) ?_
    exact if_pos (by rw [decide_eq_true hn, hout]; rfl)
  case fetch =>
    have fetches : ∀ {e : Dev}, d.codeFetch c .clean = e → Becomes (.codeFetch c .clean) d e := becomes_of_run (f := (·.codeFetch c .clean)) fun _ => rfl
    have bundle := d.codeFetch_of hf hs hr hc hl he
    exact ⟨fun clean => fetches (bundle.trans (if_neg (by rw [clean]; exact Bool.false_ne_true))), fun poison => fetches (bundle.trans (if_pos poison))⟩
  case start =>
    refine becomes_of_run (f := fun d => d.wakeEntry x i 2 fun g d => if d.pll g = .stopped then d.setPll g .locking else d) (fun _ => rfl) ?_
    exact (d.wakeEntry_due he hw hn ht ha).trans (if_pos hp)
  case stop =>
    have goes : ¬ d.stopWaits e.group = true := fun waits => by
      obtain ⟨-, c, hc, on⟩ := (d.stopWaits_iff).1 waits
      exact on (off c hc)
    exact becomes_of_after (after_wakeStop d he)
      ((if_neg goes).trans ((d.wakeEntry_due he hw hn ht ha).trans (if_pos ((d.groupStalled_iff).2 still))))
  case wait => exact becomes_of_after (after_wakeStop d he) (if_pos ((d.stopWaits_iff).2 ⟨(d.groupStalled_iff).2 still, on⟩))
  case count =>
    obtain ⟨c, hc, hst, hidle⟩ := awake
    have moving : ¬ d.groupStalled e.group = true := fun still => by
      obtain h | h := (d.groupStalled_iff).1 still c hc
      · exact Bool.false_ne_true (hst.symm.trans h)
      · exact hidle h
    exact becomes_of_after (after_wakeStop d he)
      ((if_neg fun waits => moving ((d.stopWaits_iff).1 waits).1).trans ((d.wakeEntry_due he hw hn ht ha).trans (if_neg moving)))

end Sys2Proof.Machine

namespace Sys2Proof.Machine

/-! ## A freeze (R746 to R749) -/

/-- An entry of the log changes no register outside the log. -/
theorem Dev.log_reg_other (d : Dev) (cls code block : Nat) (ctx : Option Nat) (unit detail : Nat) {o : Nat}
    (h : o < Reg.AON_LOG_STATUS ∨ 0x118000 ≤ o) : (d.log cls code block ctx unit detail).reg o = d.reg o := by
  have place : ((d.fld Reg.AON_LOG_STATUS 0 32 + 1) % 2 ^ 32 + 2 ^ 32 - 1) % 1024 < 1024 := Nat.mod_lt _ (by decide)
  rw [Dev.log_reg, Dev.logged, Dev.setFld, Dev.setReg_other _ _ _ _ (by rw [Reg.AON_LOG_STATUS] at h ⊢; omega)]
  refine Dev.logWords_reg_other _ _ _ _ _ fun k hk => ?_
  rw [Reg.AON_LOG_STATUS] at h
  rw [Reg.AON_LOG]
  omega

/-- The contexts and what waits or runs for them outside the clusters. -/
def Dev.work (d : Dev) : SMap Ctx × List Desc × List SyncReq × List CollOp × List Job := (d.ctxs, d.descs, d.syncQ, d.colls, d.jobs)

/-- The contexts and the registers below those of the Cabinet. -/
def Dev.lowPart (d : Dev) : SMap Ctx × (Nat → Word) := (d.ctxs, fun o => if o < 0xB00000 then d.reg o else 0)

section LowPart

variable {d e : Dev}

theorem Dev.lowPart_ctxs (h : e.lowPart = d.lowPart) : e.ctxs = d.ctxs := congrArg Prod.fst h

theorem Dev.lowPart_reg (h : e.lowPart = d.lowPart) {o : Nat} (ho : o < 0xB00000) : e.reg o = d.reg o := by
  have same := congrFun (congrArg Prod.snd h) o
  simpa only [Dev.lowPart, ho, if_true] using same

variable (d)

theorem Dev.setReg_lowPart {o : Nat} (ho : 0xB00000 ≤ o) (v : Word) : (d.setReg o v).lowPart = d.lowPart := by
  refine Prod.ext rfl (funext fun p => ?_)
  show (if p < 0xB00000 then (d.setReg o v).reg p else 0) = if p < 0xB00000 then d.reg p else 0
  by_cases hp : p < 0xB00000
  · rw [if_pos hp, if_pos hp, d.setReg_other o p v (by omega)]
  · rw [if_neg hp, if_neg hp]

theorem Dev.setFld_lowPart {o : Nat} (ho : 0xB00000 ≤ o) (lo w v : Nat) : (d.setFld o lo w v).lowPart = d.lowPart := d.setReg_lowPart ho _

theorem Dev.setOwner_lowPart (b : Buf) (o : Option Nat) : (d.setOwner b o).lowPart = d.lowPart := rfl

theorem Dev.write_lowPart (a : Nat) (bs : Bytes) : (d.write a bs).lowPart = d.lowPart := rfl

theorem Dev.cabRefill_lowPart (x p : Nat) : (d.cabRefill x p).lowPart = d.lowPart := by
  rw [Dev.cabRefill]
  split
  · exact d.setReg_lowPart (by rw [Reg.CAB_CTX_P_RES]; omega) _
  · rfl

theorem Dev.cabPut_lowPart (b : Buf) : (d.cabPut b).lowPart = d.lowPart := by
  have high : 0xB00000 ≤ Reg.CAB_CTX_P_STATE b.ctx b.pool := by rw [Reg.CAB_CTX_P_STATE]; omega
  simp only [Dev.cabPut, Dev.cabRefill_lowPart, Dev.setFld_lowPart _ high, Dev.setOwner_lowPart, Dev.write_lowPart]

theorem Dev.ckpBack_lowPart (b : Buf) : (d.ckpBack b).lowPart = d.lowPart := by
  rw [Dev.ckpBack]
  split
  · exact d.cabPut_lowPart b
  · rfl

theorem Dev.endMsg_lowPart (m : NetMsg) : (d.endMsg m).lowPart = d.lowPart := by
  rw [Dev.endMsg]
  cases m.trk <;> cases m.buf <;> first | rfl | exact Dev.ckpBack_lowPart _ _

theorem Dev.dropMsgs_lowPart (p : NetMsg → Bool) : (d.dropMsgs p).lowPart = d.lowPart :=
  foldl_keeps Dev.lowPart Dev.endMsg_lowPart _ _

theorem Dev.snapAbort_lowPart (x reason : Nat) : (d.snapAbort x reason).lowPart = d.lowPart := by
  have high : 0xB00000 ≤ Reg.CKP_CTX_STATUS x := by rw [Reg.CKP_CTX_STATUS]; omega
  rw [Dev.snapAbort]
  split
  · rfl
  · refine (Dev.setFld_lowPart _ high _ _ _).trans ((Dev.setFld_lowPart _ high _ _ _).trans ?_)
    refine (foldl_keeps Dev.lowPart (f := fun (e : Dev) (p : Nat × Buf) => e.ckpBack p.2) (fun e p => e.ckpBack_lowPart p.2) _ _).trans ?_
    exact (Dev.dropMsgs_lowPart _ _).trans rfl

theorem Dev.snapFrozen_lowPart (x : Nat) : (d.snapFrozen x).lowPart = d.lowPart := by
  rw [Dev.snapFrozen]
  split
  · split
    · exact d.snapAbort_lowPart x 7
    · rfl
  · rfl

end LowPart

section Work

variable (d : Dev)

theorem Dev.loosen_ctxs (rs : List (Nat × Nat)) : (d.loosen rs).ctxs = d.ctxs :=
  foldl_keeps Dev.ctxs (fun e r => by
    rw [Dev.loosenOne]
    split <;> rfl) rs d

theorem Dev.leaveCurrents_keeps (x : Nat) : (d.leaveCurrents x).work = d.work ∧ (d.leaveCurrents x).csr = d.csr :=
  ⟨foldl_keeps Dev.work (f := fun (e : Dev) (q : Nat × Cluster) => e.modClu q.1 (leaveCurrent x (e.fld (Reg.MXA_CURR q.1) 8 5))) (fun _ _ => rfl) d.clus d,
    foldl_keeps Dev.csr (f := fun (e : Dev) (q : Nat × Cluster) => e.modClu q.1 (leaveCurrent x (e.fld (Reg.MXA_CURR q.1) 8 5))) (fun _ _ => rfl) d.clus d⟩

theorem Dev.stopIdle_keeps (x : Nat) : (d.stopIdle x).work = d.work ∧ (d.stopIdle x).csr = d.csr :=
  ⟨foldl_keeps Dev.work (fun e p => by split <;> rfl) _ d, foldl_keeps Dev.csr (fun e p => by split <;> rfl) _ d⟩

/-- Registers are read from the register file alone. -/
theorem Dev.reg_of_csr {d e : Dev} (h : e.csr = d.csr) (o : Nat) : e.reg o = d.reg o := by
  rw [Dev.reg, h, Dev.reg]

/-- What a freeze takes out of the queues and engines. -/
def Dev.withoutCtx (d : Dev) (x : Nat) : Dev := { d with
  clus := mapVals (fun _ => {}) (stopCluster x) d.clus
  jobs := d.jobs.filter fun j => j.desc.ctx != x
  colls := d.colls.filter fun o => o.desc.ctx != x
  descs := d.descs.filter fun q => q.ctx != x
  trks := mapKeep (fun k => !((d.trk k).ctx == x && (d.trk k).state == 1)) d.trks
  syncQ := d.syncQ.filter fun q => q.ctx != x
  prefetch := mapPut d.prefetch x none }

theorem Dev.loosen_nil : d.loosen [] = d := rfl

theorem Dev.ctxs_of_work {d e : Dev} (h : e.work = d.work) : e.ctxs = d.ctxs := congrArg Prod.fst h

theorem Dev.withoutCtx_ctxs (x : Nat) : (d.withoutCtx x).ctxs = d.ctxs := rfl

theorem Dev.withoutCtx_csr (x : Nat) : (d.withoutCtx x).csr = d.csr := rfl

theorem Dev.dropWork_eq (x : Nat) : d.dropWork x = ((((d.loosen (d.openOuts x)).snapFrozen x).withoutCtx x).leaveCurrents x).stopIdle x := rfl

theorem Dev.dropWork_work (x : Nat) : (d.dropWork x).work = (((d.loosen (d.openOuts x)).snapFrozen x).withoutCtx x).work := by
  rw [Dev.dropWork_eq, (Dev.stopIdle_keeps _ x).1, (Dev.leaveCurrents_keeps _ x).1]

theorem Dev.dropWork_ctxs (x : Nat) : (d.dropWork x).ctxs = d.ctxs := by
  rw [Dev.ctxs_of_work (d.dropWork_work x), Dev.withoutCtx_ctxs, Dev.lowPart_ctxs (Dev.snapFrozen_lowPart _ x), Dev.loosen_ctxs]

/-- No output open, a freeze changes no register below the Cabinet's. -/
theorem Dev.dropWork_reg {x o : Nat} (hout : d.openOuts x = []) (ho : o < 0xB00000) : (d.dropWork x).reg o = d.reg o := by
  have tables : (d.dropWork x).csr = ((d.loosen (d.openOuts x)).snapFrozen x).csr := by
    rw [Dev.dropWork_eq, (Dev.stopIdle_keeps _ x).2, (Dev.leaveCurrents_keeps _ x).2, Dev.withoutCtx_csr]
  rw [Dev.reg_of_csr tables o, hout, Dev.loosen_nil]
  exact Dev.lowPart_reg (Dev.snapFrozen_lowPart d x) ho

theorem Dev.msix_work (fn vec : Nat) : (d.msix fn vec).work = d.work := by
  rw [Dev.msix]
  split
  · rfl
  · split <;> rfl

theorem Dev.msix_reg (fn vec o : Nat) : (d.msix fn vec).reg o = d.reg o := Dev.reg_of_csr (d.msix_keeps fn vec).1 o

theorem Dev.log_work (cls code block : Nat) (ctx : Option Nat) (unit detail : Nat) : (d.log cls code block ctx unit detail).work = d.work := by
  rw [Dev.log_eq]
  exact (Dev.msix_work _ 0 0).trans rfl

theorem Dev.ctxEvent_keeps (x : Nat) : (d.ctxEvent x).work = d.work ∧ (d.ctxEvent x).csr = d.csr := by
  refine ⟨(foldl_keeps Dev.work (fun e n => ?_) _ _).trans (d.msix_work _ _), (foldl_keeps Dev.csr (fun e n => ?_) _ _).trans (d.msix_keeps _ _).1⟩
  · split
    · exact e.msix_work n 0
    · rfl
  · split
    · exact (e.msix_keeps n 0).1
    · rfl

/-- What a freeze reports: its log entry, the context's event, an alert and the message to the fabric manager. -/
def Dev.freezeReport (d : Dev) (x source unit step : Nat) : Dev :=
  (((d.log 4 source 0xFF (some x) unit step).ctxEvent x).alert 2).reportFreeze x

theorem Dev.freezeReport_work (x source unit step : Nat) : (d.freezeReport x source unit step).work = d.work :=
  Eq.trans (b := ((d.log 4 source 0xFF (some x) unit step).ctxEvent x).work) rfl ((Dev.ctxEvent_keeps _ x).1.trans (d.log_work _ _ _ _ _ _))

theorem Dev.freezeReport_reg (x source unit step : Nat) {o : Nat} (h : o < Reg.AON_LOG_STATUS ∨ 0x118000 ≤ o) :
    (d.freezeReport x source unit step).reg o = d.reg o :=
  Eq.trans (b := ((d.log 4 source 0xFF (some x) unit step).ctxEvent x).reg o) rfl
    ((Dev.reg_of_csr (Dev.ctxEvent_keeps _ x).2 o).trans (d.log_reg_other _ _ _ _ _ _ h))

end Work

section Freeze

variable {d : Dev} {x : Nat} (source code sub tr unit detail : Nat)

/-- A freeze of a context that is active, or ended in this hub cycle. -/
theorem Dev.freeze_freezable (h : d.freezable x = true) : d.freeze x source code sub tr unit detail =
    (((d.fillRecord x (freezeSummary source code sub tr unit) detail).setCtx x
      { d.ctx x with state := .frozen, phase := 1, holdEnd := d.time.toNat + planHold (d.ctx x).plan * 1600 }).dropWork x).freezeReport x
        source unit (d.ctx x).step.toNat := by
  rw [Dev.freeze, if_pos h]
  rfl

/-- A further cause of a frozen context. -/
theorem Dev.freeze_frozen (hs : (d.ctx x).state = .frozen) : d.freeze x source code sub tr unit detail =
    (if d.causeFirst x source unit then d.fillRecord x (freezeSummary source code sub tr unit) detail else d).setBit (Reg.CTX_FR x 0) 27 true := by
  have not : ¬ d.freezable x = true := by
    rw [Dev.freezable, hs]
    exact Bool.false_ne_true
  rw [Dev.freeze, if_neg not, if_pos hs]

theorem Dev.freeze_other (h : d.freezable x = false) (hs : (d.ctx x).state ≠ .frozen) : d.freeze x source code sub tr unit detail = d := by
  rw [Dev.freeze, if_neg (by rw [h]; exact Bool.false_ne_true), if_neg hs]

theorem Dev.freezable_iff (d : Dev) (x : Nat) : d.freezable x = true ↔ (d.ctx x).state.active = true ∨
    (((d.ctx x).state = .stopped ∨ (d.ctx x).state = .done) ∧ (d.ctx x).ended = some d.time.toNat) := by
  simp only [Dev.freezable, Bool.or_eq_true, Bool.and_eq_true, beq_iff_eq]

theorem Dev.causeFirst_iff (d : Dev) (x source unit : Nat) : d.causeFirst x source unit = true ↔ (d.ctx x).phase = 1 ∧
    d.reg (Reg.CTX_FR x 2) = d.time ∧ (source < d.fld (Reg.CTX_FR x 0) 0 8 ∨
      (source = d.fld (Reg.CTX_FR x 0) 0 8 ∧ unit < d.fld (Reg.CTX_FR x 0) 32 16)) := by
  simp only [Dev.causeFirst, Bool.or_eq_true, Bool.and_eq_true, beq_iff_eq, decide_eq_true_eq, and_assoc]

theorem Dev.setReg_openOuts (d : Dev) (o : Nat) (v : Word) (x : Nat) : (d.setReg o v).openOuts x = d.openOuts x := rfl

theorem Dev.setCtx_openOuts (d : Dev) (y : Nat) (c : Ctx) (x : Nat) : (d.setCtx y c).openOuts x = d.openOuts x := rfl

theorem Dev.fillRecord_openOuts (d : Dev) (x : Nat) (summary : Word) (detail y : Nat) :
    (d.fillRecord x summary detail).openOuts y = d.openOuts y := by
  simp only [Dev.fillRecord, Dev.setReg_openOuts]

theorem Dev.fillRecord_ctxs (d : Dev) (x : Nat) (summary : Word) (detail : Nat) : (d.fillRecord x summary detail).ctxs = d.ctxs := by
  simp only [Dev.fillRecord, Dev.setReg_ctxs]

theorem CTX_FR_ne (x : Nat) {j k : Nat} (h : j ≠ k) : Reg.CTX_FR x j ≠ Reg.CTX_FR x k := by
  simp only [Reg.CTX_FR]
  omega

/-- The record of a freeze holds its cause, its step, its time and its detail. -/
theorem Dev.fillRecord_reg (d : Dev) (x : Nat) (summary : Word) (detail : Nat) (hwf : mapWf csrReset d.csr = true) :
    let e := d.fillRecord x summary detail
    e.reg (Reg.CTX_FR x 0) = summary ∧ e.reg (Reg.CTX_FR x 1) = (d.ctx x).step ∧ e.reg (Reg.CTX_FR x 2) = d.time ∧
      e.reg (Reg.CTX_FR x 3) = BitVec.ofNat 64 detail := by
  have wf0 := d.setReg_csr_wf (Reg.CTX_FR x 0) summary hwf
  have wf1 := Dev.setReg_csr_wf _ (Reg.CTX_FR x 1) (d.ctx x).step wf0
  have wf2 := Dev.setReg_csr_wf _ (Reg.CTX_FR x 2) d.time wf1
  refine ⟨?_, ?_, ?_, Dev.setReg_same _ _ _ wf2⟩
  · rw [Dev.fillRecord, Dev.setReg_other _ _ _ _ (CTX_FR_ne x (by decide)), Dev.setReg_other _ _ _ _ (CTX_FR_ne x (by decide)),
      Dev.setReg_other _ _ _ _ (CTX_FR_ne x (by decide)), Dev.setReg_same _ _ _ hwf]
  · rw [Dev.fillRecord, Dev.setReg_other _ _ _ _ (CTX_FR_ne x (by decide)), Dev.setReg_other _ _ _ _ (CTX_FR_ne x (by decide))]
    exact Dev.setReg_same _ _ _ wf0
  · rw [Dev.fillRecord, Dev.setReg_other _ _ _ _ (CTX_FR_ne x (by decide))]
    exact Dev.setReg_same _ _ _ wf1

end Freeze

/-- What is left for a context after its work is dropped is of other contexts. -/
theorem mem_filter_bne {α : Type} {l : List α} {f : α → Nat} {x : Nat} {a : α} (h : a ∈ l.filter fun a => f a != x) : f a ≠ x :=
  bne_iff_ne.1 (List.mem_filter.1 h).2

/-- A context that is frozen, its work dropped and its freeze reported. -/
theorem Dev.frozen_keeps (d : Dev) (x source unit step : Nat) (k : Ctx) (rise : keysRise (d.ctxs.map Prod.fst) = true) :
    let e := ((d.setCtx x k).dropWork x).freezeReport x source unit step
    e.ctx x = k ∧ (∀ y, y ≠ x → e.ctx y = d.ctx y) ∧ (∀ q ∈ e.descs, q.ctx ≠ x) ∧ (∀ q ∈ e.syncQ, q.ctx ≠ x) ∧
      (∀ o ∈ e.colls, o.desc.ctx ≠ x) ∧ ∀ j ∈ e.jobs, j.desc.ctx ≠ x := by
  have work := ((d.setCtx x k).dropWork x).freezeReport_work x source unit step
  have ctxs := (Dev.ctxs_of_work work).trans (Dev.dropWork_ctxs _ x)
  rw [Dev.dropWork_work] at work
  simp only [Dev.work, Prod.mk.injEq] at work
  obtain ⟨-, descs, syncQ, colls, jobs⟩ := work
  dsimp only
  rw [descs, syncQ, colls, jobs, Dev.ctx, ctxs]
  refine ⟨d.setCtx_same x k rise, fun y hy => ?_, fun _ => mem_filter_bne, fun _ => mem_filter_bne, fun _ => mem_filter_bne, fun _ => mem_filter_bne⟩
  rw [Dev.ctx, ctxs]
  exact d.setCtx_other x y k hy

/-- No output open, the registers of a context's record are as its freeze left them. -/
theorem Dev.frozen_record (d : Dev) {x j : Nat} (source unit step : Nat) (k : Ctx) (hx : x < 8) (hj : j < 4) (hout : d.openOuts x = []) :
    (((d.setCtx x k).dropWork x).freezeReport x source unit step).reg (Reg.CTX_FR x j) = d.reg (Reg.CTX_FR x j) := by
  rw [Dev.freezeReport_reg _ _ _ _ _ (.inr (by rw [Reg.CTX_FR]; omega)),
    Dev.dropWork_reg _ ((d.setCtx_openOuts x k x).trans hout) (by rw [Reg.CTX_FR]; omega), Dev.setCtx_reg_read]

/-- Settles O38: the freeze of an active context, a further cause, and neither. -/
theorem freezeRecordsTheCause : Obligations.FreezeRecordsTheCause := by
  unfold Obligations.FreezeRecordsTheCause
  intro d x source code sub tr unit detail hx hwf
  refine ⟨fun h => ?_, d.freezable_iff x, fun hs => ⟨fun hc => ?_, fun hc => ?_, d.causeFirst_iff x source unit⟩,
    Dev.freeze_other source code sub tr unit detail⟩
  · have rise : keysRise ((d.fillRecord x (freezeSummary source code sub tr unit) detail).ctxs.map Prod.fst) = true := by
      rw [Dev.fillRecord_ctxs]
      exact d.ctxs_rise hwf
    have ctx : ∀ y, (d.fillRecord x (freezeSummary source code sub tr unit) detail).ctx y = d.ctx y := fun y => by
      rw [Dev.ctx, Dev.fillRecord_ctxs, Dev.ctx]
    obtain ⟨here, others, descs, syncQ, colls, jobs⟩ := (d.fillRecord x (freezeSummary source code sub tr unit) detail).frozen_keeps x source unit
      (d.ctx x).step.toNat { d.ctx x with state := .frozen, phase := 1, holdEnd := d.time.toNat + planHold (d.ctx x).plan * 1600 } rise
    obtain ⟨r0, r1, r2, r3⟩ := d.fillRecord_reg x (freezeSummary source code sub tr unit) detail (d.csr_wf hwf)
    have record := fun (hout : d.openOuts x = []) (j : Nat) (hj : j < 4) =>
      (d.fillRecord x (freezeSummary source code sub tr unit) detail).frozen_record source unit (d.ctx x).step.toNat
        { d.ctx x with state := .frozen, phase := 1, holdEnd := d.time.toNat + planHold (d.ctx x).plan * 1600 } hx hj
        ((d.fillRecord_openOuts _ _ _ _).trans hout)
    rw [Dev.freeze_freezable source code sub tr unit detail h]
    exact ⟨here, fun y hy => (others y hy).trans (ctx y), descs, syncQ, colls, jobs, fun hout =>
      ⟨(record hout 0 (by decide)).trans r0, (record hout 1 (by decide)).trans r1, (record hout 2 (by decide)).trans r2,
        (record hout 3 (by decide)).trans r3⟩⟩
  · rw [Dev.freeze_frozen _ _ _ _ _ _ hs, hc]
    rfl
  · rw [Dev.freeze_frozen _ _ _ _ _ _ hs, hc]
    rfl

end Sys2Proof.Machine

namespace Sys2Proof.Machine

/-! ## Accesses to registers (R20 to R22, R222, R511, R896) -/

/-- An access inside one register covers that register alone. -/
theorem regsOf_one {r lo n : Nat} (hr : r % 8 = 0) (hn : 0 < n) (hlo : lo + n ≤ 8) : regsOf (r + lo) n = [r] := by
  have first : (r + lo) / 8 = r / 8 := by omega
  have last : (r + lo + n - 1) / 8 + 1 - r / 8 = 1 := by omega
  have whole : 8 * (r / 8) = r := by omega
  rw [regsOf, first, last]
  simp only [upFrom, List.map_cons, List.map_nil, whole]

theorem canName_of {src : Master} {off n : Nat} (hn : 0 < n) (h : off + n ≤ 0x10000000) : canName src off n = true := by
  rw [canName, decide_eq_true hn, Bool.true_and, decide_eq_true_eq]
  split <;> omega

section Refusals

variable {d : Dev} {src : Master} {off : Nat} {wr : Bool}

/-- With the host's domain off, an access of the host is refused and leaves no entry. -/
theorem Dev.refusal_hostOff (hs : src = .host) (h : d.domOn 24 = false) : d.refusal src off wr = some 0 := by
  simp only [Dev.refusal, Dev.hostOn, hs, h, decide_true, Bool.not_false, Bool.and_self, if_true]

/-- An access that is not of a host that is off. -/
theorem Dev.refusal_on (h : src = .host → d.domOn 24 = true) : d.refusal src off wr =
    if !regExists off || (decide (0x10000000 ≤ off) && src != .bureau) then some 5
    else if wr && !d.admits src off then some 4
    else if !d.domOn (regDomain off) then some 3
    else none := by
  rw [Dev.refusal, if_neg]
  rw [Bool.and_eq_true, decide_eq_true_eq, Dev.hostOn, Bool.not_eq_true']
  rintro ⟨hs, off24⟩
  exact Bool.false_ne_true (off24.symm.trans (h hs))

/-- The code of a refused access that is not of a host that is off. -/
theorem Dev.refusal_code {c : Nat} (h : d.refusal src off wr = some c) (hon : src = .host → d.domOn 24 = true) : c ≠ 0 := by
  rw [Dev.refusal_on hon] at h
  split at h
  · cases h; decide
  · split at h
    · cases h; decide
    · split at h
      · cases h; decide
      · cases h

theorem Dev.logRefusal_of {c : Nat} (d : Dev) (off : Nat) (h : c ≠ 0) : d.logRefusal c off = d.log 1 c (logBlock off) none 0 off := if_neg h

/-- No register, or one of the Bureau's own. -/
theorem Dev.refusal_none (h : regExists off = false ∨ (0x10000000 ≤ off ∧ src ≠ .bureau)) (hon : src = .host → d.domOn 24 = true) :
    d.refusal src off wr = some 5 := by
  rw [Dev.refusal_on hon, if_pos]
  obtain h | ⟨hoff, hsrc⟩ := h
  · rw [h]
    rfl
  · rw [decide_eq_true hoff, bne_iff_ne.2 hsrc]
    exact Bool.or_true _

/-- A host write that BUR_ADMIT does not allow. -/
theorem Dev.refusal_admit (he : regExists off = true) (hoff : off < 0x1000000) (h3 : off / 0x100000 ≠ 3)
    (ha : d.bit Reg.BUR_ADMIT (off / 0x100000) = false) (hon : d.domOn 24 = true) : d.refusal .host off true = some 4 := by
  have low : ¬ 0x10000000 ≤ off := by omega
  have shut : d.admits .host off = false := by
    simp only [Dev.admits, admitBit, hoff, if_true, ha, Bool.or_false]
    exact beq_eq_false_iff_ne.2 h3
  rw [Dev.refusal_on fun _ => hon, he, shut, decide_eq_false low]
  rfl

end Refusals

section Writes

variable (d : Dev) (src : Master) {off : Nat} {data : Bytes}

/-- A write of one whole register. -/
theorem Dev.csrWrite_whole (h8 : off % 8 = 0) (hoff : off < 0x10000000) (hlen : data.length = 8) :
    d.csrWrite src off data = d.guard src off (·.ruleWrite src off (BitVec.ofNat 64 (leNat data))) := by
  have named : canName src off 8 = true := canName_of (by decide) (by omega)
  have one : regsOf off 8 = [off] := regsOf_one (lo := 0) h8 (by decide) (by decide)
  have word : atLe data 0 8 = leNat data := by rw [atLe, List.drop_zero, List.take_of_length_le (Nat.le_of_eq hlen)]
  have whole : ¬ (off % 8 ≠ 0 ∨ 8 % 8 ≠ 0) := by omega
  simp only [Dev.csrWrite, hlen, named, one, Bool.not_true, Bool.false_eq_true, if_false, Bool.or_eq_true, decide_eq_true_eq, whole,
    Dev.regWrites, Dev.regWrite, word]

/-- A write of the first half of a register. -/
theorem Dev.csrWrite_half (h8 : off % 8 = 0) (hoff : off < 0x10000000) (hlen : data.length = 4)
    (hp : d.refusal src off true = none) : d.csrWrite src off data = d.log 1 1 (logBlock off) none 0 off := by
  have named : canName src off 4 = true := canName_of (by decide) (by omega)
  have one : regsOf off 4 = [off] := regsOf_one (lo := 0) h8 (by decide) (by decide)
  have half : off % 8 ≠ 0 ∨ 4 % 8 ≠ 0 := .inr (by decide)
  simp only [Dev.csrWrite, hlen, named, one, Bool.not_true, Bool.false_eq_true, if_false, Bool.or_eq_true, decide_eq_true_eq, half,
    if_true, Dev.narrowWrite, List.findSome?_cons, List.findSome?_nil, hp, Option.map_none]
  rfl

/-- What a plain write leaves in the other registers. -/
theorem Dev.plainWrite_other (w : Word) {o : Nat} (h : o ≠ off) : (d.plainWrite off w).reg o = d.reg o := by
  rw [Dev.plainWrite]
  split
  · exact d.setReg_other off o _ h
  · rfl

theorem Dev.plainWrite_csr_wf (w : Word) (h : mapWf csrReset d.csr = true) : mapWf csrReset (d.plainWrite off w).csr = true := by
  rw [Dev.plainWrite]
  split
  · exact d.setReg_csr_wf off _ h
  · exact h

/-- The bits of a plain write, by access type. -/
theorem bitOf_writeFields (r : RegRow) (old w : Word) {i : Nat} (hi : i < 64) : bitOf (writeFields r old w) i =
    ((((bitOf old i && !r.rw.testBit i) || (bitOf w i && r.rw.testBit i)) && !(bitOf w i && r.w1c.testBit i)) || (bitOf w i && r.w1s.testBit i)) := by
  simp only [writeFields, bitOf, BitVec.getLsbD_or, BitVec.getLsbD_and, BitVec.getLsbD_not, BitVec.getLsbD_ofNat, hi, decide_true, Bool.true_and]

end Writes

/-! ### Reads -/

theorem Dev.csrRead_ok {d : Dev} {src : Master} {r : Nat} (hp : d.refusal src r false = none) :
    d.csrRead src r = (d.readReg r, if r = Reg.AON_POWER then d.setFld Reg.AON_POWER 16 16 0 else d) := by
  rw [Dev.csrRead, hp]
  by_cases h : r = Reg.AON_POWER
  · rw [h]
  · rw [if_neg h, if_neg h]

theorem Dev.csrRead_refused {d : Dev} {src : Master} {r code : Nat} (hp : d.refusal src r false = some code) :
    d.csrRead src r = (0, d.logRefusal code r) := by
  rw [Dev.csrRead, hp]

section Reads

variable (d : Dev) (src : Master) {r lo n : Nat} (hr : r % 8 = 0) (hlow : r < 0x1000000) (hn : 0 < n) (hlo : lo + n ≤ 8)
include hr hlow hn hlo

theorem Dev.csrReadOut_of (hon : src = .host → d.domOn 24 = true) : d.csrReadOut src (r + lo) n =
    (d.csrRead src r).2.emit (.data src (((leBytes 8 (d.csrRead src r).1.toNat).drop lo).take n)) := by
  have named : canName src (r + lo) n = true := canName_of hn (by omega)
  have on : (src == .host && !d.hostOn) = false := by
    cases hs : (src == .host)
    · rfl
    · rw [Dev.hostOn, hon (beq_iff_eq.1 hs)]
      rfl
  have low : ¬ 0x1000000 ≤ r := by omega
  have rest : (r + lo) % 8 = lo := by omega
  have plain : d.regRead src r = d.csrRead src r := by
    cases h : d.refusal src r false <;>
      simp only [Dev.regRead, Dev.csrRead, h, low, decide_false, Bool.false_and, Bool.false_eq_true, if_false]
  simp only [Dev.csrReadOut, named, on, regsOf_one hr hn hlo, Dev.regReads, plain, rest, Bool.not_true, Bool.or_self, Bool.false_eq_true,
    if_false, List.append_nil]

end Reads

theorem Dev.csrReadOut_off (d : Dev) {src : Master} (off n : Nat) (hs : src = .host) (h : d.domOn 24 = false) : d.csrReadOut src off n = d := by
  simp only [Dev.csrReadOut, hs, Dev.hostOn, h, beq_self_eq_true, Bool.not_false, Bool.and_self, Bool.or_true, if_true]

theorem leBytes_zero (n : Nat) : leBytes n 0 = List.replicate n 0 := by
  induction n with
  | zero => rfl
  | succ n ih => rw [leBytes, Nat.zero_div, ih]; rfl

/-- Bytes cut out of zeros. -/
theorem take_drop_leBytes_zero {lo n : Nat} (h : lo + n ≤ 8) : ((leBytes 8 0).drop lo).take n = List.replicate n 0 := by
  rw [leBytes_zero, List.drop_replicate, List.take_replicate, Nat.min_eq_left (by omega)]

/-! ### The registers of a sequencer -/

section Sequencer

variable (d : Dev) {c : Nat}

theorem Dev.wakeCluster_ctx (x : Nat) : (d.wakeCluster c).ctx x = d.ctx x := by
  rw [Dev.wakeCluster]
  split <;> rfl

theorem Dev.wakeCluster_reg {o : Nat} (h : o ≠ Reg.PWR_WAKE) : (d.wakeCluster c).reg o = d.reg o := by
  rw [Dev.wakeCluster]
  split
  · exact Dev.setReg_other _ _ _ _ h
  · rfl

theorem Dev.wakeCluster_seqCfg : (d.wakeCluster c).fld (Reg.SEQ_CFG c) 0 3 = d.fld (Reg.SEQ_CFG c) 0 3 := by
  rw [Dev.fld, d.wakeCluster_reg, Dev.fld]
  rw [Reg.SEQ_CFG, Reg.PWR_WAKE]
  omega

theorem Dev.seqOpen_of (h : (d.ctx (d.fld (Reg.SEQ_CFG c) 0 3)).state = .loaded ∨ (d.ctx (d.fld (Reg.SEQ_CFG c) 0 3)).state = .stopped ∨
    (d.ctx (d.fld (Reg.SEQ_CFG c) 0 3)).state = .done ∨ (d.ctx (d.fld (Reg.SEQ_CFG c) 0 3)).state = .frozen) :
    (d.wakeCluster c).seqOpen c = true := by
  rw [Dev.seqOpen, d.wakeCluster_seqCfg, d.wakeCluster_ctx]
  obtain h | h | h | h := h <;> rw [h]

end Sequencer

section SeqAccess

variable (d : Dev) (src : Master) {c rel : Nat} (hc : c < 128) (h8 : rel % 8 = 0) (hrel : 0x100 ≤ rel ∧ rel ≤ 0x280)
include hc h8 hrel

/-- An access to a register of a cluster's sequencer. -/
theorem Dev.seqRegAccess_of (wr : Option Word) : d.after (.seqRegAccess src (0x1000000 + c * 0x20000 + rel) wr) =
    (match wr with
      | none => d.readOut src (0x1000000 + c * 0x20000 + rel)
      | some w => d.regWrite src (0x1000000 + c * 0x20000 + rel) w).settle := by
  have place : (0x1000000 + c * 0x20000 + rel - 0x1000000) % 0x20000 = rel := by omega
  have copy : seqCopy rel = true := by rw [seqCopy, decide_eq_true hrel.1, decide_eq_true hrel.2]; rfl
  have inside : 0x1000000 ≤ 0x1000000 + c * 0x20000 + rel ∧ 0x1000000 + c * 0x20000 + rel < 0x2000000 ∧
      (0x1000000 + c * 0x20000 + rel) % 8 = 0 := by omega
  obtain ⟨hlow, hhigh, halign⟩ := inside
  refine (d.after_of_run (f := fun d => if 0x1000000 ≤ 0x1000000 + c * 0x20000 + rel && 0x1000000 + c * 0x20000 + rel < 0x2000000 &&
      (0x1000000 + c * 0x20000 + rel) % 8 = 0 && seqCopy ((0x1000000 + c * 0x20000 + rel - 0x1000000) % 0x20000) then
    match wr with
    | none => d.readOut src (0x1000000 + c * 0x20000 + rel)
    | some w => d.regWrite src (0x1000000 + c * 0x20000 + rel) w else d) fun _ => rfl).trans (congrArg Dev.settle (if_pos ?_))
  rw [place, copy, decide_eq_true hlow, decide_eq_true hhigh, decide_eq_true halign]
  rfl

/-- A write of an open sequencer register. -/
theorem Dev.regWrite_seq (w : Word) (hp : d.refusal src (0x1000000 + c * 0x20000 + rel) true = none)
    (ho : (d.wakeCluster c).seqOpen c = true) :
    d.regWrite src (0x1000000 + c * 0x20000 + rel) w = (d.wakeCluster c).seqWrite c rel w := by
  have place : (0x1000000 + c * 0x20000 + rel - 0x1000000) % 0x20000 = rel := by omega
  have cluster : (0x1000000 + c * 0x20000 + rel - 0x1000000) / 0x20000 = c := by omega
  have copy : seqCopy rel = true := by rw [seqCopy, decide_eq_true hrel.1, decide_eq_true hrel.2]; rfl
  have low : 0x1000000 ≤ 0x1000000 + c * 0x20000 + rel := by omega
  have mid : ¬ 0x2000000 ≤ 0x1000000 + c * 0x20000 + rel := by omega
  have high : ¬ 0x10000000 ≤ 0x1000000 + c * 0x20000 + rel := by omega
  rw [Dev.regWrite, d.guard_of_passes hp]
  simp only [Dev.ruleWrite, high, mid, low, if_false, if_true, Dev.wCluster, place, cluster, copy, ho]

/-- A read of an open sequencer register. -/
theorem Dev.regRead_seq (hp : d.refusal src (0x1000000 + c * 0x20000 + rel) false = none) (ho : (d.wakeCluster c).seqOpen c = true) :
    d.regRead src (0x1000000 + c * 0x20000 + rel) =
      ((d.wakeCluster c).readReg (0x1000000 + c * 0x20000 + rel), d.wakeCluster c) := by
  have cluster : (0x1000000 + c * 0x20000 + rel - 0x1000000) / 0x20000 = c := by omega
  have inside : 0x1000000 ≤ 0x1000000 + c * 0x20000 + rel ∧ 0x1000000 + c * 0x20000 + rel < 0x2000000 := by omega
  simp only [Dev.regRead, hp, inside.1, inside.2, decide_true, Bool.and_self, if_true, cluster, ho, Bool.not_true, Bool.and_false,
    Bool.false_eq_true, if_false]

end SeqAccess

theorem regIn_mem {l : List RegRow} {off : Nat} {r : RegRow} (h : regIn l off = some r) : r ∈ l := by
  induction l with
  | nil => cases h
  | cons a l ih =>
    rw [regIn] at h
    split at h
    · cases h
      exact List.mem_cons_self
    · exact List.mem_cons_of_mem a (ih h)

/-- The registers of a cluster's first 32 KiB are those of its sequencer. -/
theorem regAt_seq {off : Nat} (hlow : 16 ≤ off / 0x100000) (hhigh : off / 0x100000 < 32) (hb : off % 0x20000 / 0x8000 = 0) :
    regAt off = regIn regRowsSeq off := by
  rw [regAt]
  generalize off / 0x100000 = q at hlow hhigh
  split <;> try omega
  rw [if_pos hhigh, hb]
  rfl

/-- No sequencer register has write-only bits. -/
theorem seqRows_readable : ∀ r ∈ regRowsSeq, r.wo = 0 := by decide

/-- A scalar register of a cluster's sequencer reads as the copy that SEQ_CFG names holds it (R222). -/
theorem Dev.readReg_sreg (d : Dev) {c k : Nat} (hc : c < 128) (hk : k < 32) :
    d.readReg (0x1000000 + c * 0x20000 + (0x100 + 8 * k)) = (d.seqr c (d.fld (Reg.SEQ_CFG c) 0 3)).sr k := by
  generalize hoff : 0x1000000 + c * 0x20000 + (0x100 + 8 * k) = off
  have copied : d.view off = (d.seqr c (d.fld (Reg.SEQ_CFG c) 0 3)).sr k := by
    have cluster : (off - 0x1000000) / 0x20000 = c := by omega
    have rel : (off - 0x1000000) % 0x20000 = 0x100 + 8 * k := by omega
    have low : ¬ off < 0x740000 ∧ ¬ off < 0x780000 ∧ ¬ off < 0x600180 ∧ ¬ off < 0x700200 ∧ ¬ off < 0xa00300 ∧ off ≠ Reg.TRS_TIME ∧
        0x1000000 ≤ off ∧ off < 0x2000000 := by
      rw [Reg.TRS_TIME]
      omega
    obtain ⟨-, h78, h60, h70, ha0, htime, hlow, hhigh⟩ := low
    have here : d.seqView c (0x100 + 8 * k) = some ((d.seqr c (d.fld (Reg.SEQ_CFG c) 0 3)).sr k) := by
      have h0 : 0x100 + 8 * k ≠ 0 ∧ 0x100 + 8 * k ≠ 0x38 ∧ 0x100 ≤ 0x100 + 8 * k ∧ 0x100 + 8 * k < 0x200 ∧ (0x100 + 8 * k - 0x100) / 8 = k := by omega
      obtain ⟨hne0, hne38, h100, h200, hix⟩ := h0
      simp only [Dev.seqView, hne0, hne38, h100, h200, if_false, decide_true, Bool.and_self, if_true, hix]
    simp only [Dev.view, htime, h78, h60, h70, ha0, if_false, decide_false, Bool.and_false, Bool.false_and, Bool.false_eq_true, hlow, hhigh, decide_true,
      Bool.and_self, if_true, cluster, rel, here]
  rw [Dev.readReg, copied]
  split
  · next r hr =>
    rw [regAt_seq (by omega) (by omega) (by omega)] at hr
    rw [seqRows_readable r (regIn_mem hr)]
    exact BitVec.and_allOnes
  · rfl

/-! ### The marks of lost words -/

theorem Dev.bit_setFld (d : Dev) (hwf : mapWf csrReset d.csr = true) (o lo w x : Nat) {i : Nat} (hi : i < 64) :
    (d.setFld o lo w x).bit o i = if lo ≤ i ∧ i < lo + w then x.testBit (i - lo) else d.bit o i := by
  rw [Dev.bit, Dev.setFld, d.setReg_same o _ hwf, bitOf, getLsbD_setField _ _ _ _ _ hi]
  rfl

theorem Dev.bit_setReg_other (d : Dev) {o p : Nat} (v : Word) (h : p ≠ o) (i : Nat) : (d.setReg o v).bit p i = d.bit p i := by
  rw [Dev.bit, d.setReg_other o p v h, Dev.bit]

theorem spmWrites_lt {m : Nat} (h : spmWrites m = true) : m < 8 := by
  simp only [spmWrites, Bool.or_eq_true, beq_iff_eq] at h
  omega

/-- A lost word leaves its master's bit set. -/
theorem Dev.spmLoss_bit (d : Dev) {c m off : Nat} (hwf : mapWf csrReset d.csr = true) (hm : m < 8) :
    (d.spmLoss c m off).bit (Reg.SEQ_SPM_LOST c) m = true := by
  have apart : Reg.SEQ_SPM_LOST c ≠ Reg.SEQ_SPM_LOSTCNT c := by rw [Reg.SEQ_SPM_LOST, Reg.SEQ_SPM_LOSTCNT]; omega
  have wf1 := d.setReg_csr_wf (Reg.SEQ_SPM_LOST c) (setField (d.reg (Reg.SEQ_SPM_LOST c)) m 1 true.toNat) hwf
  generalize h1 : d.setBit (Reg.SEQ_SPM_LOST c) m true = d1
  have wf1 : mapWf csrReset d1.csr = true := by rw [← h1]; exact wf1
  have marked : d1.bit (Reg.SEQ_SPM_LOST c) m = true := by
    rw [← h1, Dev.setBit, d.bit_setFld hwf _ _ _ _ (by omega), if_pos ⟨Nat.le_refl m, Nat.lt_succ_self m⟩, Nat.sub_self]
    rfl
  generalize h2 : d1.addFld (Reg.SEQ_SPM_LOSTCNT c) 0 64 1 = d2
  have wf2 : mapWf csrReset d2.csr = true := by rw [← h2]; exact d1.setReg_csr_wf _ _ wf1
  have kept : d2.bit (Reg.SEQ_SPM_LOST c) m = true := by
    rw [← h2, Dev.addFld, Dev.setFld, Dev.bit_setReg_other _ _ apart, marked]
  have wf3 : mapWf csrReset (d2.setFld (Reg.SEQ_SPM_LOST c) 16 23 off).csr = true := d2.setReg_csr_wf _ _ wf2
  rw [Dev.spmLoss, h1, h2]
  split
  · exact kept
  · rw [Dev.setBit, Dev.bit_setFld _ wf3 _ _ _ _ (show m < 64 by omega), if_neg (by omega), d2.bit_setFld wf2 _ _ _ _ (show m < 64 by omega),
      if_neg (by omega), kept]

/-- A write of SEQ_SPM_LOST with the words that the cycle loses. -/
theorem after_spmLostClear (d : Dev) (src : Master) (c : LostNow) (w : Word) : d.after (.spmLostClear src c w) =
    ((c.lost.filter fun l => decide (c.c < 128) && d.domOn (c.c / 8) && decide (l.2.1 < 0x800000) && l.2.1 % 8 == 0 &&
      spmLoses l.1 l.2.2 l.2.1).foldl (fun e l => e.spmLoss c.c l.1 l.2.1) (d.spmClear src c.c w)).settle := rfl

theorem Dev.spmClear_of {d : Dev} {src : Master} {c : Nat} {w : Word} (hc : c < 128) (hp : d.refusal src (Reg.SEQ_SPM_LOST c) true = none) :
    d.spmClear src c w = d.plainWrite (Reg.SEQ_SPM_LOST c) w := (if_pos hc).trans (d.guard_of_passes hp _)

section SeqCopies

variable {d : Dev} (src : Master) {c k : Nat} (w : Word) (hc : c < 128)
include hc

theorem Dev.becomes_sreg_write (hk : k < 32) (ho : (d.wakeCluster c).seqOpen c = true)
    (hp : d.refusal src (0x1000000 + c * 0x20000 + 0x100 + 8 * k) true = none) :
    Becomes (.seqRegAccess src (0x1000000 + c * 0x20000 + 0x100 + 8 * k) (some w)) d
      ((d.wakeCluster c).setSeqr c (d.fld (Reg.SEQ_CFG c) 0 3) (((d.wakeCluster c).seqr c (d.fld (Reg.SEQ_CFG c) 0 3)).setS k w)) := by
  have low : 0x100 + 8 * k < 0x200 ∧ (0x100 + 8 * k - 0x100) / 8 = k := by omega
  rw [Nat.add_assoc _ 0x100] at hp ⊢
  refine becomes_of_after (d.seqRegAccess_of src hc (by omega) (by omega) (some w)) ((d.regWrite_seq src hc (by omega) (by omega) w hp ho).trans ?_)
  simp only [Dev.seqWrite, low.1, low.2, if_true, d.wakeCluster_seqCfg]

theorem Dev.becomes_areg_write (hk : k < 16) (ho : (d.wakeCluster c).seqOpen c = true)
    (hp : d.refusal src (0x1000000 + c * 0x20000 + 0x200 + 8 * k) true = none) :
    Becomes (.seqRegAccess src (0x1000000 + c * 0x20000 + 0x200 + 8 * k) (some w)) d
      ((d.wakeCluster c).setSeqr c (d.fld (Reg.SEQ_CFG c) 0 3)
        (((d.wakeCluster c).seqr c (d.fld (Reg.SEQ_CFG c) 0 3)).setA k (w.setWidth 48))) := by
  have low : ¬ 0x200 + 8 * k < 0x200 ∧ 0x200 + 8 * k < 0x280 ∧ (0x200 + 8 * k - 0x200) / 8 = k := by omega
  rw [Nat.add_assoc _ 0x200] at hp ⊢
  refine becomes_of_after (d.seqRegAccess_of src hc (by omega) (by omega) (some w)) ((d.regWrite_seq src hc (by omega) (by omega) w hp ho).trans ?_)
  simp only [Dev.seqWrite, low.1, low.2.1, low.2.2, if_false, if_true, d.wakeCluster_seqCfg]

theorem Dev.becomes_sreg_read (hk : k < 32) (ho : (d.wakeCluster c).seqOpen c = true)
    (hp : d.refusal src (0x1000000 + c * 0x20000 + 0x100 + 8 * k) false = none) :
    Becomes (.seqRegAccess src (0x1000000 + c * 0x20000 + 0x100 + 8 * k) none) d
      ((d.wakeCluster c).emit (.data src (leBytes 8 (((d.wakeCluster c).seqr c (d.fld (Reg.SEQ_CFG c) 0 3)).sr k).toNat))) := by
  rw [Nat.add_assoc _ 0x100] at hp ⊢
  refine becomes_of_after (d.seqRegAccess_of src hc (by omega) (by omega) none) ?_
  rw [Dev.readOut, d.regRead_seq src hc (by omega) (by omega) hp ho, Dev.readReg_sreg _ hc hk, d.wakeCluster_seqCfg]

end SeqCopies

/-- Settles O40: each access by the rule of its path. -/
theorem registerAccesses : Obligations.RegisterAccesses := by
  unfold Obligations.RegisterAccesses
  refine ⟨fun d src off data h8 hoff hlen => ?_, fun d off he hoff h3 ha hon => Dev.refusal_admit he hoff h3 ha hon,
    fun d src off wr h hon => Dev.refusal_none h hon, fun d off w r hwf hr => ⟨fun o ho => d.plainWrite_other w ho, fun i hi => ?_⟩,
    fun d src c k w hc => ⟨fun r lo n hr hlow hn hlo => ?_, fun hopen => ⟨fun hk => ⟨fun hp => ?_, fun hp => ?_⟩, fun hk hp => ?_⟩, fun hp => ?_⟩⟩
  · have writes : ∀ {o : Nat} {bs : Bytes} {e : Dev}, d.csrWrite src o bs = e → Becomes (.csrWrite src o bs) d e := fun {o bs _} =>
      becomes_of_run (f := (·.csrWrite src o bs)) fun _ => rfl
    have whole := d.csrWrite_whole src h8 hoff hlen
    refine ⟨fun hs h24 => writes (whole.trans ?_), fun c hc hon => writes (whole.trans ?_), fun hp => writes (whole.trans (d.guard_of_passes hp _)),
      fun hpos hp => writes (d.csrWrite_half src (by omega) (by omega) (by rw [List.length_take, hlen]; rfl) hp)⟩
    · rw [Dev.guard, Dev.refusal_hostOff hs h24]
      rfl
    · rw [Dev.guard, hc]
      exact d.logRefusal_of off (Dev.refusal_code hc hon)
  · rw [d.reg_plainWrite_same off w r hwf hr, bitOf_writeFields r _ w hi]
    exact ⟨fun h1 h2 h3 => by simp [h1, h2, h3], fun h1 h2 h3 => by simp [h1, h2, h3], fun h1 h2 h3 => by simp [h1, h2, h3],
      fun h1 h2 h3 => by simp [h1, h2, h3]⟩
  · have reads : ∀ {e : Dev}, d.csrReadOut src (r + lo) n = e → Becomes (.aonPowerRead ⟨src, r + lo, n⟩) d e :=
      becomes_of_run (f := (·.csrReadOut src (r + lo) n)) fun _ => rfl
    have on : ∀ {x : Option Nat}, d.refusal src r false = x → x ≠ some 0 → src = .host → d.domOn 24 = true := fun hx hne hs => by
      cases h24 : d.domOn 24
      · exact absurd (hx.symm.trans (Dev.refusal_hostOff hs h24)) hne
      · rfl
    refine ⟨fun hp => reads ?_, fun hs h24 => reads (d.csrReadOut_off _ n hs h24), fun code hcode hon => reads ?_⟩
    · rw [d.csrReadOut_of src hr hlow hn hlo (on hp nofun), Dev.csrRead_ok hp]
    · rw [d.csrReadOut_of src hr hlow hn hlo hon, Dev.csrRead_refused hcode, d.logRefusal_of r (Dev.refusal_code hcode hon)]
      exact congrArg (fun bs => Dev.emit _ (.data src bs)) (take_drop_leBytes_zero hlo)
  · exact Dev.becomes_sreg_write src w hc hk (d.seqOpen_of hopen) hp
  · exact Dev.becomes_sreg_read src hc hk (d.seqOpen_of hopen) hp
  · exact Dev.becomes_areg_write src w hc hk (d.seqOpen_of hopen) hp
  · refine ⟨becomes_of_after (after_spmLostClear d src ⟨c, []⟩ w) (Dev.spmClear_of hc hp), fun m n off hl hoff h8 hdom => ⟨?_, fun hwf => ?_⟩⟩
    · refine becomes_of_after (after_spmLostClear d src ⟨c, [(m, off, n)]⟩ w) ?_
      have lost : (decide (c < 128) && d.domOn (c / 8) && decide (off < 0x800000) && off % 8 == 0 && spmLoses m n off) = true := by
        rw [decide_eq_true hc, hdom, decide_eq_true hoff, beq_iff_eq.2 h8, hl]
        rfl
      simp only [List.filter_cons, lost, if_true, List.filter_nil, List.foldl_cons, List.foldl_nil, Dev.spmClear_of hc hp]
    · rw [spmLoses, Bool.and_assoc, Bool.and_assoc, Bool.and_eq_true] at hl
      exact Dev.spmLoss_bit _ (d.plainWrite_csr_wf w (d.csr_wf hwf)) (spmWrites_lt hl.1)

end Sys2Proof.Machine

namespace Sys2Proof.Machine

/-! ## The hub cache's invalidation and the Cabinet's buffers (R523, R532) -/

theorem firstIn_upFrom {f : Nat → Bool} {p : Nat} (hp : f p = true) (n : Nat) : ∀ a, a ≤ p → p < a + n →
    (∀ k, a ≤ k → k < p → f k = false) → firstIn f (upFrom a n) = some p := by
  induction n with
  | zero => intro a ha hn _; omega
  | succ n ih =>
    intro a ha hn before
    rw [upFrom, firstIn]
    by_cases he : a = p
    · rw [he, if_pos hp]
    · rw [if_neg (by rw [before a (Nat.le_refl a) (by omega)]; exact Bool.false_ne_true)]
      exact ih (a + 1) (by omega) (by omega) fun k hk => before k (by omega)

section Buffers

variable {d : Dev} {x c n p owner : Nat}

/-- The smallest pool that fits and has a shared buffer. -/
theorem Dev.cabPick_pool (hp : p < d.cabPools x) (hn : n ≤ d.cabSize x p) (hfree : d.cabHeld x p < d.cabFree x p)
    (hless : ∀ k, k < p → d.cabSize x k < n ∨ d.cabFree x k ≤ d.cabHeld x k) : d.cabPick x c n = some (p, false) := by
  have fits : (decide (n ≤ d.cabSize x p) && decide (d.cabHeld x p < d.cabFree x p)) = true := by
    rw [decide_eq_true hn, decide_eq_true hfree]
    rfl
  have first := firstIn_upFrom (f := fun p => decide (n ≤ d.cabSize x p) && decide (d.cabHeld x p < d.cabFree x p)) fits (d.cabPools x) 0
    (Nat.zero_le p) (by omega) fun k _ hk => by
      obtain h | h := hless k hk
      · rw [decide_eq_false (Nat.not_le.2 h), Bool.false_and]
      · rw [decide_eq_false (Nat.not_lt.2 h), Bool.and_false]
  rw [Dev.cabPick, first]

/-- The head of a free list that is sound is taken. -/
theorem Dev.cabTake_sound {i : Nat} (hi : d.fld (Reg.CAB_CTX_P_STATE x p) 16 16 = i) (hb : d.cabBlocked ⟨x, p, i⟩ = false)
    (hw : bitsOf (leNat (d.read (d.cabAddr ⟨x, p, i⟩) 8)) 32 32 = 0x46424143) (hwp : bitsOf (leNat (d.read (d.cabAddr ⟨x, p, i⟩) 8)) 16 3 = p)
    (hwx : bitsOf (leNat (d.read (d.cabAddr ⟨x, p, i⟩) 8)) 19 3 = x) (ho : d.cabOwner ⟨x, p, i⟩ = none) :
    d.cabTake x p c owner = (some ⟨x, p, i⟩,
      let d1 := (d.hcTouch x (d.cabAddr ⟨x, p, i⟩) 8 true).setFld (Reg.CAB_CTX_P_STATE x p) 16 16
        (bitsOf (leNat (d.read (d.cabAddr ⟨x, p, i⟩) 8)) 0 16)
      (d1.setFld (Reg.CAB_CTX_P_STATE x p) 0 16 (d1.cabFree x p - 1)).setOwner ⟨x, p, i⟩ (some owner)) := by
  subst hi
  rw [Dev.cabTake]
  dsimp only
  rw [if_neg]
  rw [hb, hw, hwp, hwx, ho]
  simp only [ne_eq, not_true, decide_false, Option.isSome_none, Bool.or_self, Bool.false_eq_true, not_false_iff]

/-- The head of a free list that is not sound is a fault. -/
theorem Dev.cabTake_unsound {i : Nat} (hi : d.fld (Reg.CAB_CTX_P_STATE x p) 16 16 = i)
    (h : ¬ (d.cabBlocked ⟨x, p, i⟩ = false ∧ bitsOf (leNat (d.read (d.cabAddr ⟨x, p, i⟩) 8)) 32 32 = 0x46424143 ∧
      bitsOf (leNat (d.read (d.cabAddr ⟨x, p, i⟩) 8)) 16 3 = p ∧ bitsOf (leNat (d.read (d.cabAddr ⟨x, p, i⟩) 8)) 19 3 = x ∧
      d.cabOwner ⟨x, p, i⟩ = none)) : d.cabTake x p c owner = (none, d.cabFault ⟨x, p, i⟩ 5 c) := by
  subst hi
  rw [Dev.cabTake]
  dsimp only
  refine if_pos (Decidable.byContradiction fun sound => h ?_)
  simp only [Bool.or_eq_true, decide_eq_true_eq, not_or, Bool.not_eq_true, ne_eq, Decidable.not_not, Option.isSome_eq_false_iff, Option.isNone_iff_eq_none] at sound
  obtain ⟨⟨⟨⟨hb, hw⟩, hwp⟩, hwx⟩, ho⟩ := sound
  exact ⟨hb, hw, hwp, hwx, ho⟩

variable (hl : d.loaded x = true) (hn : n ≤ cabLargest c)
include hl hn

/-- A request of a client that the context enables. -/
theorem Dev.cabRequest_on (hon : d.cabOn x c = true) : d.cabRequest ⟨x, c, n, owner⟩ =
    if (d.cabPick x c n).isNone then { (d.cabAlloc x c n owner).2 with cabPend := (d.cabAlloc x c n owner).2.cabPend ++ [⟨x, c, n, owner⟩] }
    else (d.cabAlloc x c n owner).2 := by
  have fits : ¬ cabLargest c < n := Nat.not_lt.2 hn
  simp only [Dev.cabRequest, hl, hon, fits, decide_false, Bool.not_true, Bool.or_self, Bool.false_eq_true, if_false]

theorem Dev.cabRequest_off (hoff : d.cabOn x c = false) :
    d.cabRequest ⟨x, c, n, owner⟩ = if hubClient c then d.cabFault ⟨x, 0, 0⟩ 6 c else d := by
  have fits : ¬ cabLargest c < n := Nat.not_lt.2 hn
  simp only [Dev.cabRequest, hl, hoff, fits, decide_false, Bool.not_true, Bool.not_false, Bool.or_self, Bool.false_eq_true, if_false, if_true]

variable (hon : d.cabOn x c = true)
include hon

theorem Dev.cabRequest_waits (hp : d.cabPick x c n = none) :
    d.cabRequest ⟨x, c, n, owner⟩ = { d.cabWait x c n with cabPend := (d.cabWait x c n).cabPend ++ [⟨x, c, n, owner⟩] } := by
  have waits : d.cabAlloc x c n owner = (none, d.cabWait x c n) := by rw [Dev.cabAlloc, hp]
  rw [Dev.cabRequest_on hl hn hon, waits, hp, Option.isNone_none, if_pos rfl]

theorem Dev.cabRequest_picked {own : Bool} (hp : d.cabPick x c n = some (p, own)) {b : Option Buf} {e : Dev} (ht : d.cabTake x p c owner = (b, e)) :
    d.cabRequest ⟨x, c, n, owner⟩ = if b.isSome && own then e.setBit (Reg.CAB_CTX_P_RES x p) c false else e := by
  have takes : (d.cabAlloc x c n owner).2 = if b.isSome && own then e.setBit (Reg.CAB_CTX_P_RES x p) c false else e := by
    rw [Dev.cabAlloc, hp]
    dsimp only
    rw [ht]
    cases b <;> cases own <;> rfl
  rw [Dev.cabRequest_on hl hn hon, takes, hp]
  rfl

end Buffers

section Owners

variable {d : Dev} {x p i by_ : Nat} (hp : p < d.cabPools x) (hi : i < d.fld (Reg.CAB_CTX_P_STATE x p) 32 15) (own : Nat)
include hp hi

/-- A handoff or release by the owner passes; by another client, or of a free buffer, it does not. -/
theorem Dev.cabCheck_of : d.cabCheck ⟨x, p, i⟩ by_ own =
    (d.cabOwner ⟨x, p, i⟩).elim (some 2) fun o => if o = by_ then none else some own := by
  have inside : (decide (d.cabPools x ≤ p) || decide (d.fld (Reg.CAB_CTX_P_STATE x p) 32 15 ≤ i)) = false := by
    rw [decide_eq_false (Nat.not_le.2 hp), decide_eq_false (Nat.not_le.2 hi)]
    rfl
  rw [Dev.cabCheck, if_neg (by rw [inside]; exact Bool.false_ne_true)]
  cases d.cabOwner ⟨x, p, i⟩ <;> rfl

theorem Dev.cabCheck_free (h : d.cabOwner ⟨x, p, i⟩ = none) : d.cabCheck ⟨x, p, i⟩ by_ own = some 2 := by
  rw [Dev.cabCheck_of hp hi, h, Option.elim_none]

theorem Dev.cabCheck_owner (h : d.cabOwner ⟨x, p, i⟩ = some by_) : d.cabCheck ⟨x, p, i⟩ by_ own = none := by
  rw [Dev.cabCheck_of hp hi, h]
  exact if_pos rfl

theorem Dev.cabCheck_other {o : Nat} (h : d.cabOwner ⟨x, p, i⟩ = some o) (hne : o ≠ by_) : d.cabCheck ⟨x, p, i⟩ by_ own = some own := by
  rw [Dev.cabCheck_of hp hi, h]
  exact if_neg hne

end Owners

theorem hubClient_iff (c : Nat) : hubClient c = true ↔ 8 ≤ c ∧ c ≤ 10 := by
  simp only [hubClient, Bool.and_eq_true, decide_eq_true_eq]

/-- Settles O43: the invalidation, then a request for a buffer, a handoff and a release, each by its cases. -/
theorem cacheAndCabinet : Obligations.CacheAndCabinet := by
  unfold Obligations.CacheAndCabinet
  intro d w x c n p i by_ to_ owner
  have inv : ∀ {e : Dev}, d.hcInv w = e → Becomes (.hcInvalidate w) d e := becomes_of_run (f := (·.hcInv w)) fun _ => rfl
  have alloc : ∀ {e : Dev}, d.cabRequest ⟨x, c, n, owner⟩ = e → Becomes (.cabinetAlloc x c n owner) d e :=
    becomes_of_run (f := (·.cabRequest ⟨x, c, n, owner⟩)) fun _ => rfl
  have handoff : d.loaded x = true → ∀ {e : Dev}, d.cabHandoff ⟨x, p, i⟩ by_ to_ = e → Becomes (.cabinetHandoff x p i by_ to_) d e := fun hl _ h =>
    becomes_of_run (f := fun d => if d.loaded x then d.cabHandoff ⟨x, p, i⟩ by_ to_ else d) (fun _ => rfl) ((if_pos hl).trans h)
  have release : d.loaded x = true → ∀ {e : Dev}, d.cabRelease ⟨x, p, i⟩ by_ = e → Becomes (.cabinetRelease x p i by_) d e := fun hl _ h =>
    becomes_of_run (f := fun d => if d.loaded x then d.cabRelease ⟨x, p, i⟩ by_ else d) (fun _ => rfl) ((if_pos hl).trans h)
  refine ⟨fun h21 hs hb => inv ?_, fun h21 hs => inv ?_, becomes_of_run (f := (·.setBit Reg.CAB_HC_STATUS 0 false)) (fun _ => rfl) rfl,
    fun hl hn => ⟨fun hon hi => ⟨fun hp hfit hfree hless => ?_, fun hpick => ?_⟩, fun hon hpick => alloc (Dev.cabRequest_waits hl hn hon hpick),
      fun hoff => ⟨fun h8 h10 => alloc ?_, fun hout => alloc ?_⟩⟩,
    fun hl hp hi => ⟨fun ho => handoff hl ?_, fun ho hne => ⟨handoff hl ?_, release hl ?_⟩, fun ho => ⟨handoff hl ?_, release hl ?_⟩,
      fun ho hb => release hl ?_, fun ho hb => release hl ?_⟩⟩
  · simp only [Dev.hcInv, h21, hs, hb, Bool.not_true, Bool.false_eq_true, if_false]
  · simp only [Dev.hcInv, h21, hs, Bool.not_true, Bool.false_eq_true, if_false, if_true]
  · have picked := Dev.cabPick_pool (c := c) hp hfit hfree hless
    exact ⟨fun ⟨hb, hw, hwp, hwx, ho⟩ => alloc (Dev.cabRequest_picked hl hn hon picked (Dev.cabTake_sound hi hb hw hwp hwx ho)),
      fun bad => alloc (Dev.cabRequest_picked hl hn hon picked (Dev.cabTake_unsound hi bad))⟩
  · exact ⟨fun ⟨hb, hw, hwp, hwx, ho⟩ => alloc (Dev.cabRequest_picked hl hn hon hpick (Dev.cabTake_sound hi hb hw hwp hwx ho)),
      fun bad => alloc (Dev.cabRequest_picked hl hn hon hpick (Dev.cabTake_unsound hi bad))⟩
  · rw [Dev.cabRequest_off hl hn hoff, if_pos ((hubClient_iff c).2 ⟨h8, h10⟩)]
  · rw [Dev.cabRequest_off hl hn hoff, if_neg]
    rw [hubClient_iff]
    omega
  · rw [Dev.cabHandoff, Dev.cabCheck_owner hp hi _ ho]
  · rw [Dev.cabHandoff, Dev.cabCheck_other hp hi _ ho hne]
  · rw [Dev.cabRelease, Dev.cabCheck_other hp hi _ ho hne]
  · rw [Dev.cabHandoff, Dev.cabCheck_free hp hi _ ho]
  · rw [Dev.cabRelease, Dev.cabCheck_free hp hi _ ho]
  · rw [Dev.cabRelease, Dev.cabCheck_owner hp hi _ ho]
    exact if_pos hb
  · rw [Dev.cabRelease, Dev.cabCheck_owner hp hi _ ho, hb]
    rfl

/-! ## Placement commands (R324 to R329) -/

/-- Settles O44: one write rule for STAGE and CANCEL, and one end for both. -/
theorem placementCommands : Obligations.PlacementCommands := by
  unfold Obligations.PlacementCommands
  intro d src w
  have stage : ∀ {e : Dev}, d.wPlaceCtrl src w = e → Becomes (.stage src w) d e := becomes_of_run (f := (·.wPlaceCtrl src w)) fun _ => rfl
  have cancel : ∀ {e : Dev}, d.wPlaceCtrl src w = e → Becomes (.cancel src w) d e := becomes_of_run (f := (·.wPlaceCtrl src w)) fun _ => rfl
  have done : ∀ {e : Dev}, d.placeDone = e → Becomes .placeCmdComplete d e := becomes_of_run (f := Dev.placeDone) fun _ => rfl
  refine ⟨fun hp => ⟨fun hr hf => ⟨fun hk => cancel ?_, fun hk t f ht => stage ?_⟩, fun hb => ?_⟩,
    fun c code detail hc hcheck => ⟨fun hne => done ?_, fun h0 hk => done ?_, fun t h0 hk ht => done ?_⟩⟩
  · rw [Dev.wPlaceCtrl, d.guard_of_passes hp]
    simp only [hr, hf, hk, Bool.not_true, Bool.or_self, Bool.false_eq_true, if_false, (by decide : ¬ 2 = 0), (by decide : ¬ 2 = 1)]
  · rw [Dev.wPlaceCtrl, d.guard_of_passes hp]
    simp only [hr, hf, hk, Bool.not_true, Bool.or_self, Bool.false_eq_true, if_false, (by decide : ¬ 1 = 0), if_true, ht]
  · have discards : d.wPlaceCtrl src w = d.logDiscard Reg.BUR_PLACE_CTRL := by
      rw [Dev.wPlaceCtrl, d.guard_of_passes hp, hb, Bool.or_true, if_pos rfl]
    exact ⟨stage discards, cancel discards⟩
  · simp only [Dev.placeDone, hc, hcheck, hne, ne_eq, not_false_iff, if_true]
  · simp only [Dev.placeDone, hc, hcheck, h0, hk, ne_eq, not_true, if_false]
  · simp only [Dev.placeDone, hc, hcheck, h0, hk, ht, ne_eq, not_true, if_false]

end Sys2Proof.Machine

namespace Sys2Proof.Machine

/-! ## Plan commands performed (R78 to R99) -/

section PlanRuns

variable {d : Dev} {x a : Nat}

theorem Dev.planNow_of {k : Nat} {c : PlanCmd} (hc : d.planCmd = some c) (hk : c.kind = k) : d.planNow k = some c := by
  rw [Dev.planNow, hc, Option.filter_some, if_pos (beq_iff_eq.2 hk)]

variable {p : Bytes} {e : Dev} (ha : inHbm a 64 = true) (hp : d.planRead a = (p, e))
include ha hp

theorem Dev.loadRun_headErr {r : LoadErr} (hr : e.headErr x a p = some r) : d.loadRun x a = (e, r) := by
  simp only [Dev.loadRun, ha, hp, hr, Bool.not_true, Bool.false_eq_true, if_false]

theorem Dev.loadRun_bodyErr {r : LoadErr} (hh : e.headErr x a p = none) (hr : e.bodyErr x p = some r) : d.loadRun x a = (e, r) := by
  simp only [Dev.loadRun, ha, hp, hh, hr, Bool.not_true, Bool.false_eq_true, if_false]

theorem Dev.loadRun_ok {f : Dev} (hh : e.headErr x a p = none) (hb : e.bodyErr x p = none)
    (hf : Dev.writeResw x (reswCopies p (planTable p)) (e.giveAll x p) = .ok f) : d.loadRun x a = (f, { code := 0 }) := by
  simp only [Dev.loadRun, ha, hp, hh, hb, hf, Bool.not_true, Bool.false_eq_true, if_false]

end PlanRuns

theorem Dev.loadRun_outside {d : Dev} {x a : Nat} (ha : inHbm a 64 = false) : d.loadRun x a = (d, { code := 3, detail := 8 }) := by
  simp only [Dev.loadRun, ha, Bool.not_false, if_true]

theorem after_loadComplete {d : Dev} {c : PlanCmd} {e : Dev} {r : LoadErr} (hc : d.planNow 0 = some c) (h : d.loadRun c.ctx c.addr = (e, r)) :
    d.after .loadComplete = (e.planEnd c.ctx r).settle := by
  refine (d.after_of_run (f := fun d => match d.planNow 0 with
    | none => d
    | some c => let r := d.loadRun c.ctx c.addr; r.1.planEnd c.ctx r.2) fun _ => rfl).trans ?_
  simp only [hc, h]

theorem after_startComplete {d : Dev} {c : PlanCmd} (hc : d.planNow 1 = some c) (hr : d.restore = none) : d.after .startComplete =
    (if (d.ctx c.ctx).state = .loaded ∨ (d.ctx c.ctx).state = .stopped then (d.arm c.ctx).planEnd c.ctx { code := 0 }
      else d.planEnd c.ctx { code := 6 }).settle := by
  refine (d.after_of_run (f := fun d => match d.planNow 1 with
    | none => d
    | some c =>
      let st := (d.ctx c.ctx).state
      if (st = .loaded || st = .stopped) && !d.restore.any fun r => r.ctx == c.ctx then (d.arm c.ctx).planEnd c.ctx { code := 0 }
      else d.planEnd c.ctx { code := 6 }) fun _ => rfl).trans ?_
  simp only [hc, hr, Option.any_none, Bool.not_false, Bool.and_true, Bool.or_eq_true, decide_eq_true_eq]

theorem after_unloadComplete {d : Dev} {c : PlanCmd} (hc : d.planNow 2 = some c) (hs : mapFind d.snaps c.ctx = none) :
    d.after .unloadComplete =
      (if ((d.ctx c.ctx).state = .loaded ∨ (d.ctx c.ctx).state = .stopped) ∨ (d.ctx c.ctx).state = .done
        then (d.unloadRun c.ctx).planEnd c.ctx { code := 0 } else d.planEnd c.ctx { code := 6 }).settle := by
  refine (d.after_of_run (f := fun d => match d.planNow 2 with
    | none => d
    | some c =>
      let st := (d.ctx c.ctx).state
      if (st = .loaded || st = .stopped || st = .done) && (mapFind d.snaps c.ctx).isNone then (d.unloadRun c.ctx).planEnd c.ctx { code := 0 }
      else d.planEnd c.ctx { code := 6 }) fun _ => rfl).trans ?_
  simp only [hc, hs, Option.isNone_none, Bool.and_true, Bool.or_eq_true, decide_eq_true_eq]

/-- Settles O34: each command by its check. -/
theorem planCommandsPerform : Obligations.PlanCommandsPerform := by
  unfold Obligations.PlanCommandsPerform
  intro d x a
  refine ⟨fun hc => ?_, fun hc hrest => ?_, fun hc hsnap => ?_⟩
  · have loads : ∀ {e : Dev} {r : LoadErr}, d.loadRun x a = (e, r) → Becomes .loadComplete d (e.planEnd x r) := fun h =>
      becomes_of_after (after_loadComplete (Dev.planNow_of hc rfl) h) rfl
    exact ⟨fun ha => loads (Dev.loadRun_outside ha), fun ha p e hp => ⟨fun r hr => loads (Dev.loadRun_headErr ha hp hr),
      fun r hh hr => loads (Dev.loadRun_bodyErr ha hp hh hr), fun f hh hb hf => loads (Dev.loadRun_ok ha hp hh hb hf)⟩⟩
  · have starts := after_startComplete (Dev.planNow_of hc rfl) hrest
    exact ⟨fun hs => becomes_of_after starts (if_pos hs), fun h1 h2 => becomes_of_after starts (if_neg fun h => h.elim h1 h2)⟩
  · have unloads := after_unloadComplete (Dev.planNow_of hc rfl) hsnap
    exact ⟨fun hs => becomes_of_after unloads (if_pos (or_assoc.2 hs)),
      fun h1 h2 h3 => becomes_of_after unloads (if_neg fun h => h.elim (fun h => h.elim h1 h2) h3)⟩

/-! ## From ARMED to CLOSING (R100, R108 to R111) -/

section Steps

variable (d : Dev) {x : Nat}

/-- A context of a job of one device is armed alone. -/
theorem Dev.arm_alone (h : planDevices (d.ctx x).plan ≤ 1) : d.arm x = d.setCtx x { d.ctx x with
    state := .armed, nReady := slotFrom (planT0 (d.ctx x).plan) (planPeriod (d.ctx x).plan) (d.time.toNat + planLead (d.ctx x).plan),
    agreed := false, slice := false } := by
  rw [Dev.arm]
  exact if_neg (Nat.not_lt.2 h)

theorem Dev.startAgreed_alone (hs : (d.ctx x).state = .armed) (ha : (d.ctx x).agreed = false) (h : planDevices (d.ctx x).plan ≤ 1) :
    d.startAgreed x = d.setCtx x { d.ctx x with
      agreed := true, tStart := planT0 (d.ctx x).plan + (d.ctx x).nReady * planPeriod (d.ctx x).plan } := by
  have armed : ¬ ((d.ctx x).state ≠ .armed ∨ (d.ctx x).agreed = true) := by
    rw [hs, ha]
    decide
  rw [Dev.startAgreed]
  simp only [Bool.or_eq_true, decide_eq_true_eq, armed, if_false, h, if_true]
  rfl

/-- The context that ranks first of its part and whose slice is free wakes. -/
theorem Dev.wake_of (hr : d.ranked x = true) (hf : d.sliceFree x = true) (ht : d.timeOk x = true)
    (hdue : (d.ctx x).tStart ≤ d.time.toNat + planWakeLead (d.ctx x).plan)
    (hfirst : ∀ y ∈ allCtxs, y ≠ x → d.ranked y = true → d.samePart x y = true → d.ranksBefore y x = false) :
    d.wake x = (d.setCtx x { d.ctx x with
      state := .waking, slice := true, tWake := d.time.toNat, tRun := max (d.ctx x).tStart (d.time.toNat + planWakeLead (d.ctx x).plan),
      woken := [] }).assignUnits x := by
  have none_before : (allCtxs.any fun y => y != x && d.ranked y && d.samePart x y && d.ranksBefore y x) = false := by
    refine List.any_eq_false.2 fun y hy before => ?_
    simp only [Bool.and_eq_true, bne_iff_ne] at before
    obtain ⟨⟨⟨hne, hry⟩, hpart⟩, hb⟩ := before
    exact Bool.false_ne_true ((hfirst y hy hne hry hpart).symm.trans hb)
  simp only [Dev.wake, hr, hf, ht, none_before, hdue, decide_true, Bool.not_false, Bool.and_self, if_true]

/-- A RUNNING context past its limit. -/
theorem Dev.watchdog_running (hs : (d.ctx x).state = .running) (hl : (d.ctx x).tStart + planLimit (d.ctx x).plan * 256 < d.time.toNat) :
    d.watchdog x = d.freeze x 8 0 0 0 0 0 := by
  have stays : d.drainDone x = d := by
    rw [Dev.drainDone]
    exact if_pos (by rw [hs]; decide)
  have due : ((decide ((d.ctx x).state = .running) || decide ((d.ctx x).state = .draining)) &&
      decide ((d.ctx x).tStart + planLimit (d.ctx x).plan * 256 < d.time.toNat)) = true := by
    rw [hs, decide_eq_true hl]
    rfl
  simp only [Dev.watchdog, stays]
  rw [if_pos due, if_neg (by rw [hs]; decide)]

section Drain

variable (hs : (d.ctx x).state = .draining) (hj : (d.ctx x).jobDrained = false)
include hs hj

theorem Dev.drainDone_busy (hd : d.drained x = false) : d.drainDone x = d := by
  simp only [Dev.drainDone, hs, hj, hd, ne_eq, not_true, if_false, Bool.false_eq_true, Bool.not_false, if_true]

theorem Dev.drainDone_empty (hd : d.drained x = true) (hp : planDevices (d.ctx x).plan ≤ 1) : d.drainDone x = d.close x := by
  simp only [Dev.drainDone, hs, hj, hd, ne_eq, not_true, if_false, Bool.false_eq_true, Bool.not_true, hp, if_true]

end Drain

end Steps

/-! ### The start of a step -/

/-- The block of a context whose step starts, before its clusters do. -/
def Dev.stepOpen (d : Dev) (x : Nat) (k : Ctx) : Dev :=
  let d := d.setCtx x k
  let d := ((d.clearSlots x).clearCounts x).setFld (Reg.TIER_CTX_STATE x) 8 24 0
  { d.setPref x {} with collSeq := mapKeep (fun k => k / 256 != x) d.collSeq }

theorem Dev.stepOpen_ctxs (d : Dev) (x : Nat) (k : Ctx) : (d.stepOpen x k).ctxs = (d.setCtx x k).ctxs := rfl

theorem Dev.stepStart_eq (d : Dev) {x : Nat} (hs : (d.ctx x).state = .waking) (ht : (d.ctx x).tRun ≤ d.time.toNat) :
    d.stepStart x = (planClusters (d.ctx x).plan).foldl (Dev.startCluster x) (d.stepOpen x { d.ctx x with
      state := .running, late := if (d.ctx x).tStart < (d.ctx x).tRun then satAdd 24 (d.ctx x).late 1 else (d.ctx x).late,
      jobDrained := false, flags := 0, unmarked := false, bdone := 0, swapped := false, jSkip := false }) := by
  rw [Dev.stepStart]
  exact if_pos (by rw [hs, decide_eq_true ht]; rfl)

section StartCluster

variable (x : Nat) (d : Dev) (q : ClusterEntry)

theorem Dev.wakeCluster_seqs (c : Nat) : (d.wakeCluster c).seqs = d.seqs := by
  rw [Dev.wakeCluster]
  split <;> rfl

theorem Dev.wakeCluster_clus (c : Nat) : (d.wakeCluster c).clus = (d.modClu c fun k => { k with gated := false }).clus := by
  rw [Dev.wakeCluster]
  split <;> rfl

theorem Dev.wakeCluster_clu {c : Nat} (h : keysRise (d.clus.map Prod.fst) = true) :
    (d.wakeCluster c).clu c = { d.clu c with gated := false } := by
  rw [Dev.clu, Dev.wakeCluster_clus]
  exact d.setClu_same c _ h

theorem Dev.clearRegs_clus (l : List Nat) : (l.foldl (fun (e : Dev) r => e.setReg r 0) d).clus = d.clus :=
  foldl_keeps Dev.clus (f := fun (e : Dev) r => e.setReg r 0) (fun _ _ => rfl) l d

theorem Dev.clearRegs_seqs (l : List Nat) : (l.foldl (fun (e : Dev) r => e.setReg r 0) d).seqs = d.seqs :=
  foldl_keeps Dev.seqs (f := fun (e : Dev) r => e.setReg r 0) (fun _ _ => rfl) l d

/-- What a step takes from a cluster before its start leaves the contexts, the sequencers' registers and the order of the clusters. -/
theorem Dev.clearBefore_keeps (c : Nat) (h : keysRise (d.clus.map Prod.fst) = true) : (d.clearBefore x c).ctxs = d.ctxs ∧
    (d.clearBefore x c).seqs = d.seqs ∧ keysRise ((d.clearBefore x c).clus.map Prod.fst) = true := by
  rw [Dev.clearBefore]
  split
  · obtain he | ⟨e, f, part, he⟩ := d.clearCluster_eq (d.clu c).ctx c
    · rw [he]
      exact ⟨rfl, rfl, h⟩
    · simp only [Dev.ctxPart, Prod.mk.injEq] at part
      obtain ⟨ctxs, seqs, clus⟩ := part
      rw [he]
      exact ⟨(e.setClu_ctxs c _).trans ctxs, (e.setClu_seqs c _).trans seqs, keysRise_put e.clus c _ (by rw [clus]; exact h)⟩
  · exact ⟨rfl, rfl, h⟩

theorem Dev.seqs_rise (h : d.tablesWf = true) : keysRise (d.seqs.map Prod.fst) = true := by
  simp only [Dev.tablesWf, mapWf, Bool.and_eq_true] at h
  obtain ⟨⟨_, hseq, _⟩, _⟩ := h
  exact hseq

/-- A sequencer's registers as a step starts them (R110). -/
def SeqRegs.started (r : SeqRegs) (step : Word) (entry : Nat) : SeqRegs := { r.setS 1 step with pc := entry, loops := [] }

/-- A cluster as a step starts it. -/
def Cluster.started (k : Cluster) (x : Nat) : Cluster :=
  { k with seq := .running, ctx := x, staged := [], wait := none, waitOk := false, fetch := [], tiles := [], plane0 := none,
           plane1 := none, held := none, hacc := none, cur := .off, act := 0 }

/-- The start of a cluster, before its registers are cleared and it is woken. -/
def Dev.clusterOpen (d : Dev) (x : Nat) (q : ClusterEntry) : Dev :=
  let e := d.clearBefore x q.cl
  (e.setSeqr q.cl x ((e.seqr q.cl x).started (e.ctx x).step q.entry)).modClu q.cl (·.started x)

theorem Dev.startCluster_eq : Dev.startCluster x d q =
    ([Reg.MXA_WIN q.cl, Reg.VEC_RMODE q.cl, Reg.VEC_WIN q.cl, Reg.VEC_SRKEY q.cl, Reg.VEC_SRIDX q.cl, Reg.VEC_CNT q.cl].foldl
      (fun e r => e.setReg r 0) (d.clusterOpen x q)).wakeCluster q.cl := rfl

variable (hwf : d.tablesWf = true)
include hwf

theorem Dev.clusterOpen_seqr : (d.clusterOpen x q).seqr q.cl x = (d.seqr q.cl x).started (d.ctx x).step q.entry := by
  obtain ⟨ctxs, seqs, -⟩ := d.clearBefore_keeps x q.cl (d.clus_rise hwf)
  have rise : keysRise ((d.clearBefore x q.cl).seqs.map Prod.fst) = true := by
    rw [seqs]
    exact d.seqs_rise hwf
  have here : (d.clusterOpen x q).seqr q.cl x = ((d.clearBefore x q.cl).seqr q.cl x).started ((d.clearBefore x q.cl).ctx x).step q.entry :=
    (Dev.setClu_seqr_read _ _ _ _ _).trans (Dev.setSeqr_same _ _ _ _ rise)
  rw [here, Dev.seqr, Dev.ctx, seqs, ctxs, Dev.seqr, Dev.ctx]

theorem Dev.clusterOpen_clu : ∃ k : Cluster, (d.clusterOpen x q).clu q.cl = k.started x ∧
    keysRise ((d.clusterOpen x q).clus.map Prod.fst) = true := by
  obtain ⟨-, -, rise⟩ := d.clearBefore_keeps x q.cl (d.clus_rise hwf)
  exact ⟨_, Dev.setClu_same _ _ _ rise, keysRise_put _ _ _ rise⟩

/-- A cluster of the plan runs from its entry with the step number in s1 (R110). -/
theorem Dev.startCluster_runs (hs : keysRise ((d.seqr q.cl x).s.map Prod.fst) = true) :
    ((Dev.startCluster x d q).seqr q.cl x).pc = q.entry ∧ ((Dev.startCluster x d q).seqr q.cl x).sr 1 = (d.ctx x).step ∧
      ((Dev.startCluster x d q).seqr q.cl x).loops = [] ∧ ((Dev.startCluster x d q).clu q.cl).seq = .running ∧
      ((Dev.startCluster x d q).clu q.cl).tiles = [] := by
  have seqr : (Dev.startCluster x d q).seqr q.cl x = (d.seqr q.cl x).started (d.ctx x).step q.entry := by
    rw [Dev.startCluster_eq, Dev.seqr, Dev.wakeCluster_seqs, Dev.clearRegs_seqs, ← Dev.seqr]
    exact d.clusterOpen_seqr x q hwf
  obtain ⟨k, hk, rise⟩ := d.clusterOpen_clu x q hwf
  have clu : (Dev.startCluster x d q).clu q.cl = { k.started x with gated := false } := by
    rw [Dev.startCluster_eq, Dev.wakeCluster_clu _ (by rw [Dev.clearRegs_clus]; exact rise), Dev.clu, Dev.clearRegs_clus, ← Dev.clu, hk]
  rw [seqr, clu]
  exact ⟨rfl, SeqRegs.setS_sr_same _ 1 _ (by decide) hs, rfl, rfl, rfl⟩

end StartCluster

/-- Settles O35: the events of a context from ARMED to CLOSING, each by its rule. -/
theorem stepsBeginAndDrain : Obligations.StepsBeginAndDrain := by
  unfold Obligations.StepsBeginAndDrain
  intro d x hx hwf
  have drains : ∀ {e : Dev}, d.drainDone x = e → Becomes (.drainComplete x) d e := becomes_of_run (f := (·.drainDone x)) fun _ => rfl
  refine ⟨d.arm_alone, fun hs ha hp => ?agrees, fun hr hf ht hdue hfirst => ?wakes, fun hs ht => ?starts, fun q hq => d.startCluster_runs x q hwf hq,
    fun hs hj hd hp => drains (d.drainDone_empty hs hj hd hp), fun hs hj hd => drains (d.drainDone_busy hs hj hd), fun hs hl => ?watchdog⟩
  case agrees => exact becomes_of_run (f := (·.startAgreed x)) (fun _ => rfl) (d.startAgreed_alone hs ha hp)
  case wakes =>
    exact becomes_of_run (f := fun d => if x < 8 then d.wake x else d) (fun _ => rfl) ((if_pos hx).trans (d.wake_of hr hf ht hdue hfirst))
  case starts =>
    refine ⟨_, becomes_of_run (f := fun d => if x < 8 then d.stepStart x else d) (fun _ => rfl) ((if_pos hx).trans (d.stepStart_eq hs ht)), ?_⟩
    rw [Dev.ctx, Dev.stepOpen_ctxs]
    have here := d.setCtx_same x { d.ctx x with
      state := .running, late := if (d.ctx x).tStart < (d.ctx x).tRun then satAdd 24 (d.ctx x).late 1 else (d.ctx x).late,
      jobDrained := false, flags := 0, unmarked := false, bdone := 0, swapped := false, jSkip := false } (d.ctxs_rise hwf)
    rw [Dev.ctx] at here
    rw [here]
    exact ⟨rfl, rfl, rfl⟩
  case watchdog =>
    exact becomes_of_run (f := fun d => if x < 8 then d.watchdog x else d) (fun _ => rfl) ((if_pos hx).trans (d.watchdog_running hs hl))

end Sys2Proof.Machine

namespace Sys2Proof.Machine

/-! ## Routes inside a bench and by the escape port (R614 to R620) -/

section Routes

variable {d : Dev}

theorem Dev.swungPort_of (h : d.swung = false) (p : Nat) : d.swungPort p = p := by
  rw [Dev.swung] at h
  rw [Dev.swungPort, h]
  rfl

/-- Where a packet leaves by a port. -/
theorem Dev.leave_drop {n : Nat} {h : Hdr} (hk : d.pkeyOk n h = false) : d.leave n h = .drop 0 := by
  simp only [Dev.leave, hk, Bool.not_false, if_true]

theorem Dev.leave_out {n : Nat} {h : Hdr} (hk : d.pkeyOk n h = true) (hc : d.hasCredit n h = true) : d.leave n h = .out n h := by
  simp only [Dev.leave, hk, hc, Bool.not_true, Bool.false_eq_true, if_false, if_true]

theorem Dev.leave_wait {n : Nat} {h : Hdr} (hk : d.pkeyOk n h = true) (hc : d.hasCredit n h = false) : d.leave n h = .wait := by
  simp only [Dev.leave, hk, hc, Bool.not_true, Bool.false_eq_true, if_false]

variable {p : RPkt} {far : Nat} (hdst : p.hdr.dst ≠ d.node) (hsw : d.swung = false)
include hdst hsw

/-- Inside the bench: the port to the position. -/
theorem Dev.route_bench {n : Nat} (hb : benchOf p.hdr.dst = benchOf d.node) (he : p.hdr.esc = 0)
    (hn : (p.hdr.dst % 16 + 16 - d.node % 16 + 15) % 16 = n) (ha : d.admitted n = true) : d.route p far = d.leave n p.hdr := by
  have transit : (fromBench p && p.hdr.esc == 1) = false := by
    rw [he]
    exact Bool.and_false _
  simp only [Dev.route, hdst, hb, if_false, if_true, Dev.routeBench, Dev.benchPort, Dev.swungPort_of hsw, hn, ha, Bool.true_or, transit,
    Bool.false_eq_true]

/-- Toward another bench, with ESC set: the escape port alone. -/
theorem Dev.route_span {n : Nat} (hb : benchOf p.hdr.dst ≠ benchOf d.node) (he : p.hdr.esc = 1)
    (hr : d.bit (Reg.FAB_ROUTE (benchOf p.hdr.dst)) 37 = true) (hn : d.fld (Reg.FAB_ROUTE (benchOf p.hdr.dst)) 32 5 = n)
    (ha : d.admitted n = true) : d.route p far = d.leaveSpan p n p.hdr := by
  have marked : { p.hdr with esc := 1 } = p.hdr := by rw [← he]
  simp only [Dev.route, hdst, hb, if_false, Dev.routeSpan, Dev.swungPort_of hsw, hn, hr, ha, Bool.and_self, Bool.not_true, Bool.false_and,
    Bool.false_eq_true, if_true, he, decide_true, Bool.true_or, marked]

end Routes

/-- A span port adds one hop, and none past 31. -/
theorem Dev.leaveSpan_of {d : Dev} {p : RPkt} {n : Nat} (h16 : 16 ≤ n) :
    d.leaveSpan p n p.hdr = if p.hdr.hops = 31 then .drop 1 else d.leave n (d.spanHdr n p.hdr) := by
  have span : (fromBench p && decide (n < 16)) = false := by rw [decide_eq_false (by omega), Bool.and_false]
  simp only [Dev.leaveSpan, span, Bool.false_eq_true, if_false, h16, decide_true, Bool.true_and, decide_eq_true_eq]

/-- Settles O51: one port, and what leaving by it needs. -/
theorem routesFollowTheTables : Obligations.RoutesFollowTheTables := by
  unfold Obligations.RoutesFollowTheTables
  intro d p far hdst hsw
  refine ⟨fun hb he ha => ?_, fun hb he hr h16 ha => ⟨fun h31 => ?_, fun h31 => ?_⟩⟩
  · have port := Dev.route_bench (far := far) hdst hsw hb he rfl ha
    exact ⟨fun hk => port.trans (Dev.leave_drop hk), fun hk hc => port.trans (Dev.leave_out hk hc), fun hk hc => port.trans (Dev.leave_wait hk hc)⟩
  · rw [Dev.route_span hdst hsw hb he hr rfl ha, Dev.leaveSpan_of h16, if_pos h31]
  · have port := (Dev.route_span (far := far) hdst hsw hb he hr rfl ha).trans ((Dev.leaveSpan_of h16).trans (if_neg (by omega)))
    rw [Dev.spanHdr, if_pos h16] at port
    exact ⟨fun hk hc => port.trans (Dev.leave_out hk hc), fun hk hc => port.trans (Dev.leave_wait hk hc)⟩

/-! ## The matrix array's and the vector engine's descriptors (R400 to R405, R498 to R501) -/

/-- No words named, none is lost. -/
theorem Dev.endLosing_nil (f d : Dev) (b : Bool) (m n : Nat) (outs : List (Nat × Nat)) : f.endLosing d b m n outs [] = f := by
  rw [Dev.endLosing]
  split <;> rfl

section Array

variable {d : Dev} {c : Nat}

section Start

variable {q : Desc} {r : Bytes} {w : Int} (hf : (d.clu c).mxFrozen = false) (hn : (d.clu c).mxNow = none)
  (hq : d.descs.find? (mxOf c) = some q)
include hf hn hq

/-- An idle array takes its next descriptor. -/
theorem Dev.mxStart_fault {e : SubErr} (hchk : ({ d with descs := d.descs.eraseP (mxOf c) } : Dev).mxCheck q = (some e, r, w)) :
    d.mxStart c = ({ d with descs := d.descs.eraseP (mxOf c) } : Dev).mxFault q e.sub e.addr none := by
  simp only [Dev.mxStart, hf, hn, hq, hchk, Option.isSome_none, Bool.or_self, Bool.false_eq_true, if_false]

theorem Dev.mxStart_ok (hchk : ({ d with descs := d.descs.eraseP (mxOf c) } : Dev).mxCheck q = (none, r, w)) :
    d.mxStart c =
      (let d1 : Dev := { d with descs := d.descs.eraseP (mxOf c) }
       let job : Job := { desc := q, opr := r, w := w, outs := d1.mxOuts q r w }
       let d2 := d1.modClu c fun k =>
          if takesPlanes q then { k with mxNow := some job, plane0 := none, plane1 := none } else { k with mxNow := some job }
       if q.kind = 3 then d2.openHacc q (gemmOf q.bytes r w) (spOf q.bytes) else d2) := by
  simp only [Dev.mxStart, hf, hn, hq, hchk, Option.isSome_none, Bool.or_self, Bool.false_eq_true, if_false]

end Start

section Complete

variable {j : Job} {e : Dev} (hj : (d.clu c).mxNow = some j) (hcur : (d.clu c).cur ≠ .rampUp)
include hj hcur

theorem Dev.mxComplete_ok (hw : d.mxWork j = (e, none)) :
    d.mxComplete c = ((e.modClu c fun k => { k with mxNow := none }).descDone j.desc 1).currDone c := by
  simp only [Dev.mxComplete, hj, hcur, hw, decide_false, Bool.and_false, Bool.false_and, Bool.false_eq_true, if_false]

theorem Dev.mxComplete_fault {f : SubErr} (hw : d.mxWork j = (e, some (none, f))) : d.mxComplete c = e.mxFault j.desc f.sub f.addr none := by
  simp only [Dev.mxComplete, hj, hcur, hw, decide_false, Bool.and_false, Bool.false_and, Bool.false_eq_true, if_false, Dev.walkOpen]

omit hcur in
/-- The end of a descriptor's work, with the words that it may lose. -/
theorem becomes_mxDescComplete {f : Dev} (lost : List (Nat × Nat)) (h : d.mxComplete c = f) :
    Becomes (.mxDescComplete ⟨c, lost⟩) d (f.endLosing d (f.clu c).mxNow.isSome 2 c (workOuts (some j)) lost) := by
  refine becomes_of_run (f := fun d => let e := d.mxComplete c
    e.endLosing d (e.clu c).mxNow.isSome 2 c (workOuts (d.clu c).mxNow) lost) (fun _ => rfl) ?_
  dsimp only
  rw [h, hj]

end Complete

end Array

/-- Settles O24: the start by its check, the end by its work. -/
theorem arrayRunsDescriptors : Obligations.ArrayRunsDescriptors := by
  unfold Obligations.ArrayRunsDescriptors
  intro d c
  have starts : ∀ {e : Dev}, d.mxStart c = e → Becomes (.mxDescStart c) d e := becomes_of_run (f := (·.mxStart c)) fun _ => rfl
  exact ⟨fun q r w hf hn hq => ⟨fun hchk => ⟨fun hk => starts ((Dev.mxStart_ok hf hn hq hchk).trans (if_neg hk)),
      fun hk => starts ((Dev.mxStart_ok hf hn hq hchk).trans (if_pos hk))⟩, fun e hchk => starts (Dev.mxStart_fault hf hn hq hchk)⟩,
    fun j e lost hj hcur => ⟨fun hw => becomes_mxDescComplete hj lost (Dev.mxComplete_ok hj hcur hw),
      fun f hw => becomes_mxDescComplete hj lost (Dev.mxComplete_fault hj hcur hw)⟩,
    fun f b m n outs => f.endLosing_nil d b m n outs⟩

section VectorEngine

variable {d : Dev} {c : Nat}

section Start

variable {q : Desc} (hf : (d.clu c).vxFrozen = false) (hn : (d.clu c).vxNow = none) (hq : d.descs.find? (vxOf c) = some q)
include hf hn hq

theorem Dev.vxStart_ok (hchk : (if q.kind = 8 then ({ d with descs := d.descs.eraseP (vxOf c) } : Dev).vxRunErr q
      else ({ d with descs := d.descs.eraseP (vxOf c) } : Dev).vxWmaxErr q) = none) :
    d.vxStart c = (let d1 : Dev := { d with descs := d.descs.eraseP (vxOf c) }
      d1.modClu c fun k => { k with vxNow := some { desc := q, opr := d1.vxRecord q, outs := d1.vxOuts q (d1.vxRecord q) } }) := by
  simp only [Dev.vxStart, hf, hn, hq, hchk, Option.isSome_none, Bool.or_self, Bool.false_eq_true, if_false]

theorem Dev.vxStart_fault {e : SubErr} (hchk : (if q.kind = 8 then ({ d with descs := d.descs.eraseP (vxOf c) } : Dev).vxRunErr q
      else ({ d with descs := d.descs.eraseP (vxOf c) } : Dev).vxWmaxErr q) = some e) :
    d.vxStart c = (let d1 : Dev := { d with descs := d.descs.eraseP (vxOf c) }
      d1.vxFault q e.sub e.addr (d1.vxWordOf q)) := by
  simp only [Dev.vxStart, hf, hn, hq, hchk, Option.isSome_none, Bool.or_self, Bool.false_eq_true, if_false]

end Start

section Complete

variable {j : Job} {e : Dev} (hj : (d.clu c).vxNow = some j)
include hj

theorem Dev.vxComplete_ok (hw : (if j.desc.kind = 8 then d.vxRun j else d.vxWmax j) = (e, none)) :
    d.vxComplete c = (e.modClu c fun k => { k with vxNow := none }).descDone j.desc 1 := by
  simp only [Dev.vxComplete, hj, hw]

theorem Dev.vxComplete_fault {f : SubErr} (hw : (if j.desc.kind = 8 then d.vxRun j else d.vxWmax j) = (e, some f)) :
    d.vxComplete c = e.vxFault j.desc f.sub f.addr 0 := by
  simp only [Dev.vxComplete, hj, hw]

theorem becomes_vxDescComplete {f : Dev} (lost : List (Nat × Nat)) (h : d.vxComplete c = f) :
    Becomes (.vxDescComplete ⟨c, lost⟩) d (f.endLosing d (f.clu c).vxNow.isSome 3 c j.outs lost) := by
  refine becomes_of_run (f := fun d => let e := d.vxComplete c
    e.endLosing d (e.clu c).vxNow.isSome 3 c ((d.clu c).vxNow.elim [] Job.outs) lost) (fun _ => rfl) ?_
  dsimp only
  rw [h, hj]
  rfl

end Complete

end VectorEngine

/-- The least of two failed checks. -/
def lesserErr (m : Option SubErr) (e : Nat × Bool × Nat) : Option SubErr :=
  match m with
  | none => some ⟨e.1, e.2.2⟩
  | some f => if e.1 < f.sub then some ⟨e.1, e.2.2⟩ else some f

theorem leastErr_eq (l : List (Nat × Bool × Nat)) : leastErr l = (l.filter fun e => e.2.1).foldl lesserErr none := rfl

/-- What a fold of lesserErr keeps: it is the start or one of the list, and no more than any of them. -/
theorem foldl_lesserErr (l : List (Nat × Bool × Nat)) (m : Option SubErr) (f : SubErr) (h : l.foldl lesserErr m = some f) :
    (m = some f ∨ ∃ e ∈ l, e.1 = f.sub ∧ e.2.2 = f.addr) ∧ (∀ g, m = some g → f.sub ≤ g.sub) ∧ ∀ e ∈ l, f.sub ≤ e.1 := by
  induction l generalizing m with
  | nil =>
    rw [List.foldl_nil] at h
    refine ⟨.inl h, fun g hg => ?_, nofun⟩
    rw [h] at hg
    cases hg
    exact Nat.le_refl _
  | cons e l ih =>
    obtain ⟨from_, below, least⟩ := ih (lesserErr m e) h
    have step : (lesserErr m e = some ⟨e.1, e.2.2⟩ ∧ ∀ g, m = some g → e.1 ≤ g.sub) ∨ ∃ g, lesserErr m e = some g ∧ m = some g ∧ g.sub ≤ e.1 := by
      cases m with
      | none => exact .inl ⟨rfl, nofun⟩
      | some g =>
        by_cases hlt : e.1 < g.sub
        · refine .inl ⟨if_pos hlt, fun g' hg' => ?_⟩
          cases hg'
          exact Nat.le_of_lt hlt
        · exact .inr ⟨g, if_neg hlt, rfl, Nat.not_lt.1 hlt⟩
    obtain ⟨here, bound⟩ | ⟨g, here, hm, bound⟩ := step
    · have le : f.sub ≤ e.1 := below _ here
      refine ⟨.inr ?_, fun g hg => Nat.le_trans le (bound g hg), List.forall_mem_cons.2 ⟨le, least⟩⟩
      obtain same | ⟨e', he', hsub, haddr⟩ := from_
      · rw [here] at same
        cases same
        exact ⟨e, List.mem_cons_self, rfl, rfl⟩
      · exact ⟨e', List.mem_cons_of_mem e he', hsub, haddr⟩
    · have le : f.sub ≤ g.sub := below g here
      refine ⟨?_, fun g' hg' => ?_, List.forall_mem_cons.2 ⟨Nat.le_trans le bound, least⟩⟩
      · obtain same | ⟨e', he', hsub, haddr⟩ := from_
        · exact .inl (hm.trans (here.symm.trans same))
        · exact .inr ⟨e', List.mem_cons_of_mem e he', hsub, haddr⟩
      · rw [hm] at hg'
        cases hg'
        exact le

/-- The fault of the checks is a failed one with the least code. -/
theorem leastErr_least (l : List (Nat × Bool × Nat)) (f : SubErr) (h : leastErr l = some f) :
    (f.sub, true, f.addr) ∈ l ∧ ∀ g ∈ l, g.2.1 = true → f.sub ≤ g.1 := by
  rw [leastErr_eq] at h
  obtain ⟨from_, -, least⟩ := foldl_lesserErr _ none f h
  obtain none_ | ⟨e, he, hsub, haddr⟩ := from_
  · cases none_
  · obtain ⟨hmem, failed⟩ := List.mem_filter.1 he
    refine ⟨?_, fun g hg hfail => least g (List.mem_filter.2 ⟨hg, hfail⟩)⟩
    rw [← hsub, ← haddr, ← failed]
    exact hmem

/-- Settles O26: the start by its check, the end by its work, and which check is the fault. -/
theorem vectorEngineRunsDescriptors : Obligations.VectorEngineRunsDescriptors := by
  unfold Obligations.VectorEngineRunsDescriptors
  intro d c
  have starts : ∀ {e : Dev}, d.vxStart c = e → Becomes (.vxDescStart c) d e := becomes_of_run (f := (·.vxStart c)) fun _ => rfl
  exact ⟨fun q hf hn hq => ⟨fun hchk => starts (Dev.vxStart_ok hf hn hq hchk), fun e hchk => starts (Dev.vxStart_fault hf hn hq hchk)⟩,
    fun j e lost hj => ⟨fun hw => becomes_vxDescComplete hj lost (Dev.vxComplete_ok hj hw),
      fun f hw => becomes_vxDescComplete hj lost (Dev.vxComplete_fault hj hw)⟩, leastErr_least⟩

end Sys2Proof.Machine

namespace Sys2Proof.Machine

/-! ## The Dresser's descriptors (R295 to R301) -/

section Dresser

variable {d : Dev} {u : Nat}

/-- A unit with no fault and room begins its next descriptor. -/
theorem Dev.drsStart_ok {q : Desc} {f : Bytes} {opr : Bytes} (hf : d.bit (Reg.DRS_U_FAULT u) 8 = false)
    (hq : d.descs.find? (d.drsFor u) = some q) (room : ((d.unitJobs u).filter fun j => j.desc.kind == q.kind).length < unitRoom q.kind)
    (hchk : ({ d with descs := d.descs.erase q } : Dev).drsCheck q = .ok (f, opr)) :
    d.drsStart u =
      (let d1 : Dev := { d with descs := d.descs.erase q }
       let d2 : Dev := { d1 with jobs := d1.jobs ++ [{ desc := q, opr := opr, outs := d1.drsOuts q f (d1.placement q.ctx) opr }] }
       if q.kind = 0x32 then
         d2.markBias (pfBiasBase f + atLe q.bytes 0x14 2) (atLe q.bytes 0x16 2 + 1 - atLe q.bytes 0x14 2) else d2) := by
  simp only [Dev.drsStart, hf, hq, hchk, Nat.not_le.2 room, Bool.false_eq_true, if_false]

section Ends

variable {k : Nat} {j : Job} (hj : (d.unitJobs u)[k]? = some j)
include hj

/-- A unit whose transfers find no tracker free waits. -/
theorem Dev.drsComplete_waits (hfree : d.freeHubTrk = none) : d.drsComplete u k = d := by
  simp only [Dev.drsComplete, hj, Dev.withHubTrk, hfree]

/-- The end of a descriptor's work, with the tracker its transfers took. -/
theorem Dev.drsComplete_ok {t : Nat} {e : Dev} (hfree : d.freeHubTrk = some t)
    (hrun : (d.takeTrk t (hubTracker d j.desc.ctx j.desc.pc 3)).drsRun j = e) : d.drsComplete u k = e.freeTrkEntry t := by
  simp only [Dev.drsComplete, hj, Dev.withHubTrk, hfree, hrun]

end Ends

/-- The work of a descriptor that ends without a fault, by its kind. -/
theorem Dev.drsRun_ok {j : Job} {e : Dev} {f : Bytes} {work : Eng Unit}
    (hf : (d.profile j.desc.ctx (atLe j.desc.bytes (if j.desc.kind = 0x32 then 0x11 else 0x10) 1)).getD [] = f)
    (hkind : j.desc.kind = 0x30 ∧ work = topkWork j.desc f ∨ j.desc.kind = 0x31 ∧ work = assignWork j f (d.placement j.desc.ctx) ∨
      j.desc.kind = 0x32 ∧ work = biasWork j.desc f) (hwork : work.runOn d = (e, none)) :
    d.drsRun j = { e with jobs := e.jobs.erase j }.descDone j.desc 3 := by
  simp only [Dev.drsRun, hf]
  obtain ⟨hk, rfl⟩ | ⟨hk, rfl⟩ | ⟨hk, rfl⟩ := hkind
  · simp only [hk, hwork]
  · simp only [hk, hwork]
  · simp only [hk, hwork]

theorem becomes_drsDescComplete {k : Nat} {j : Job} {f : Dev} (lost : List (Nat × Nat)) (hu : u < 8) (hj : (d.unitJobs u)[k]? = some j)
    (h : d.drsComplete u k = f) :
    Becomes (.drsDescComplete ⟨u, lost⟩ k) d (f.endLosing d (decide (d.jobs.length ≤ f.jobs.length)) 6 j.desc.cl j.outs lost) := by
  refine becomes_of_run (f := fun d => if u < 8 then
      match (d.unitJobs u)[k]? with
      | some j =>
        let e := d.drsComplete u k
        e.endLosing d (decide (d.jobs.length ≤ e.jobs.length)) 6 j.desc.cl j.outs lost
      | none => d
    else d) (fun _ => rfl) ?_
  dsimp only
  rw [if_pos hu, hj, h]

end Dresser

/-- Settles O27: the start by its checks, the end by the work of its kind. -/
theorem dresserRunsDescriptors : Obligations.DresserRunsDescriptors := by
  unfold Obligations.DresserRunsDescriptors
  intro d u hu
  refine ⟨fun q f opr hf hq room hchk => becomes_of_run (f := fun d => if u < 8 then d.drsStart u else d) (fun _ => rfl)
    ((if_pos hu).trans (Dev.drsStart_ok hf hq room hchk)), fun k j lost hj => ⟨fun hfree => ?_, fun t e hfree => ?_⟩⟩
  · have waits := becomes_drsDescComplete lost hu hj (Dev.drsComplete_waits hj hfree)
    rwa [decide_eq_true (Nat.le_refl _), Dev.endLosing, if_pos rfl] at waits
  · have ends : ∀ {work : Eng Unit}, _ → work.runOn (d.takeTrk t (hubTracker d j.desc.ctx j.desc.pc 3)) = (e, none) → _ :=
      fun hkind hwork => becomes_drsDescComplete lost hu hj (Dev.drsComplete_ok hj hfree (Dev.drsRun_ok rfl hkind hwork))
    exact ⟨fun hk => ends (.inl ⟨hk, rfl⟩), fun hk => ends (.inr (.inl ⟨hk, rfl⟩)), fun hk => ends (.inr (.inr ⟨hk, rfl⟩))⟩

/-! ## The transfers of the DMA masters (R126 to R129, R652) -/

section Segments

variable {d : Dev} {q : Desc}

/-- The next segment of a fab.dma whose body passes and whose source is local. -/
theorem Dev.dmaNext_out {c k : Nat} (hq : d.descs.find? (dmaOf c) = some q) (hk : q.kind = 0x20) (hb : d.dmaBody q.bytes = none)
    (ht : d.segTrk q = some k) (hs : gNode (atLe q.bytes 0x10 8) = d.node) (e : Ecc) : d.dmaNext c e = d.segOut q k (segLen q) e := by
  have fab : ¬q.kind = 0x21 := by omega
  simp only [Dev.dmaNext, hq, fab, if_false, Dev.dmaSegment, hb, ht, hs, ne_eq, not_true, decide_false, Bool.false_and, Bool.false_eq_true,
    if_true]

/-- A segment from this device to itself becomes a waiting local write. -/
theorem Dev.segOut_local {k n : Nat} {e : Ecc} {ps qs : List Piece}
    (hsrc : d.translate q.ctx .r (gVa (atLe q.bytes 0x10 8) + q.prog) n = .ok ps) {d1 : Dev}
    (h1 : (d.eccPieces e ps).hcPieces q.ctx ps true = d1) (clean : d1.piecesPoisoned ps = false)
    (hd : gNode (atLe q.bytes 0x18 8) = d1.node)
    (hdst : d1.translate q.ctx .w (gVa (atLe q.bytes 0x18 8) + q.prog) n = .ok qs) :
    d.segOut q k n e =
      (let t := segTracker q (headPa qs) d1.node (n / 16) 1 d1.time.toNat
       let d2 := d1.takeSeg q k t n (atLe q.bytes 0x20 4)
       let w : LWrite := { trk := k, ctx := q.ctx, va := gVa (atLe q.bytes 0x18 8) + q.prog, data := d1.readPieces ps, rop := t.rop,
                           robj := t.robj, rval := t.rval }
       { d2 with lwrites := d2.lwrites ++ [w] }) := by
  simp only [Dev.segOut, hsrc, h1, clean, hd, hdst, Bool.false_eq_true, if_false, if_true]

end Segments

/-- Settles O29: the segment ends in its 4 KiB block and in its transfer, and waits as a local write. -/
theorem dmaSegmentsLeave : Obligations.DmaSegmentsLeave := by
  unfold Obligations.DmaSegmentsLeave
  intro d c k q ps qs hq hkind hb ht hs hd n dst hsrc d1 clean hdst hnode
  have len : n = min (atLe q.bytes 0x20 4 - q.prog) (4096 - dst % 4096) := rfl
  refine ⟨by omega, by omega, becomes_of_run (f := (·.dmaNext c .clean)) (fun _ => rfl) ?_⟩
  exact (Dev.dmaNext_out hq hkind hb ht hs .clean).trans (Dev.segOut_local hsrc rfl clean (hd.trans hnode.symm) hdst)

section TransferEnds

variable {d : Dev} {k : Nat}

/-- A local write behind none of its cluster is performed with its sync operation. -/
theorem Dev.localWrite_ok {w : LWrite} {ps : List Piece} (lost : List (Nat × Nat)) (hw : d.lwrites[k]? = some w)
    (first : d.writeFirst k = true) (hexch : w.exch = false) (hamo : w.amo = none) {d1 : Dev}
    (h1 : { d with lwrites := d.lwrites.eraseIdx k } = d1) (hsync : d1.syncRefused w.ctx w.rop w.robj = false)
    (hps : d1.translate w.ctx .w w.va w.data.length = .ok ps) :
    d.localWrite k lost =
      (let d2 := (d1.storeLosing lost w.ctx ps w.data).syncOp w.ctx w.rop w.robj w.rval (ceilDiv w.data.length 16)
       d2.setTrk w.trk { d2.trk w.trk with state := 3 }) := by
  simp only [Dev.localWrite, first, hw, hexch, hamo, h1, hsync, hps, Bool.false_eq_true, if_false, if_true]

/-- One behind another waits. -/
theorem Dev.localWrite_waits (lost : List (Nat × Nat)) (behind : d.writeFirst k = false) : d.localWrite k lost = d := by
  simp only [Dev.localWrite, behind, Bool.false_eq_true, if_false]

/-- What keeps a local write behind an earlier one of its cluster: a destination block of both. -/
theorem Dev.writeFirst_behind {j : Nat} {v w : LWrite} {b : Nat} (hjk : j < k) (hv : d.lwrites[j]? = some v)
    (hw : d.lwrites[k]? = some w) (hubv : (d.trk v.trk).hub = false) (hubw : (d.trk w.trk).hub = false)
    (hcl : (d.trk v.trk).cluster = (d.trk w.trk).cluster) (hbv : b ∈ d.writeBlocks v) (hbw : b ∈ d.writeBlocks w) :
    d.writeFirst k = false := by
  have behind : d.writeBehind v w = true := by
    simp only [Dev.writeBehind, hubv, hubw, hcl, Bool.not_false, Bool.true_and, beq_self_eq_true, List.any_eq_true]
    exact ⟨b, hbv, List.contains_iff_mem.2 hbw⟩
  have earlier : v ∈ d.lwrites.take k := List.mem_of_getElem? ((List.getElem?_take_of_lt hjk).trans hv)
  have waits : ((d.lwrites.take k).any fun v => d.writeBehind v w) = true := List.any_eq_true.2 ⟨v, earlier, behind⟩
  simp only [Dev.writeFirst, hw, waits, Bool.not_true]

/-- A complete tracker becomes free, and its local operation applies unless its context is frozen. -/
theorem Dev.trkDone_eq (hkind : (d.trk k).kind ≠ 0) (hstate : (d.trk k).state = 3) :
    d.trkDone k =
      (let t := d.trk k
       if (d.ctx t.ctx).state = .frozen then d.setTrk k {}
       else (d.setTrk k {}).copOp t.ctx t.cluster t.pc 3 t.lop t.lsync t.lval t.length) := by
  have complete : ((d.trk k).kind != 0 && decide ((d.trk k).state = 3)) = true := by
    rw [decide_eq_true hstate, Bool.and_true]
    exact bne_iff_ne.2 hkind
  simp only [Dev.trkDone, complete, if_true, Dev.freeTrkEntry]
  rfl

/-- A remote transfer past the dead-target timeout, of which nothing is to be poisoned here. -/
theorem Dev.trkTimeout_due (hkind : 2 ≤ (d.trk k).kind) (hnode : (d.trk k).node ≠ d.node) (hstate : (d.trk k).state = 2)
    (hrd : (d.trk k).rd = false)
    (hdue : (d.trk k).since + d.deadTime (benchOf (d.trk k).node != benchOf d.node) ≤ d.time.toNat) :
    d.trkTimeout k = (d.setTrk k { d.trk k with state := 4 }).masterFault (d.trk k) 0x54 (d.trk k).node 0 := by
  have due : d.trkDue k = true := by
    simp only [Dev.trkDue, hkind, hdue, hstate, bne_iff_ne.2 hnode, decide_true, beq_self_eq_true, Bool.and_self]
  simp only [Dev.trkTimeout, due, hrd, if_true, Bool.false_eq_true, if_false]

end TransferEnds

/-- Settles O30. -/
theorem transfersEnd : Obligations.TransfersEnd := by
  unfold Obligations.TransfersEnd
  intro d k
  have writes : ∀ {lost : List (Nat × Nat)} {e : Dev}, d.localWrite k lost = e → Becomes (.localWritePerform k lost) d e :=
    fun {lost} {e} => becomes_of_run (f := (·.localWrite k lost)) fun _ => rfl
  have completes : ∀ {e : Dev}, d.trkDone k = e → Becomes (.trackerComplete k) d e := becomes_of_run (f := (·.trkDone k)) fun _ => rfl
  exact ⟨fun w ps lost hw first hexch hamo hsync hps => writes (Dev.localWrite_ok lost hw first hexch hamo rfl hsync hps),
    fun lost behind => writes (Dev.localWrite_waits lost behind),
    fun j v w b hjk hv hw hubv hubw hcl hbv hbw => Dev.writeFirst_behind hjk hv hw hubv hubw hcl hbv hbw,
    fun hkind hstate => ⟨fun frozen => completes ((Dev.trkDone_eq hkind hstate).trans (if_pos frozen)),
      fun live => completes ((Dev.trkDone_eq hkind hstate).trans (if_neg live))⟩,
    fun hkind hnode hstate hrd hdue =>
      becomes_of_run (f := (·.trkTimeout k)) (fun _ => rfl) (Dev.trkTimeout_due hkind hnode hstate hrd hdue)⟩

end Sys2Proof.Machine

namespace Sys2Proof.Machine

/-! ## Collective and exchange operations (R668, R683, R687) -/

section CollStart

variable {d : Dev} {k : Nat} {q : Desc} (hq : (d.descs.filter (collFirst d))[k]? = some q)
  (room : (d.colls.filter fun o => o.group < 0xFE || o.group == 256).length < 16)

include hq room in
theorem Dev.collNext_eq : d.collNext k = if isExchange q.bytes then d.xStart q else d.collStart q := by
  simp only [Dev.collNext, hq, Nat.not_le.2 room, if_false]

variable {e : CollEnv} {input : Bytes} {d2 : Dev} (idle : d.collRunning q.ctx (atLe q.bytes 0x11 1) = false)
  (hchk : ({ d with descs := d.descs.erase q } : Dev).collCheck q = .ok (e, input, d2))
include idle hchk

/-- A collective that passes its checks, and has its Cabinet client where it needs buffers, joins. -/
theorem Dev.collStart_joins (client : e.segmented = false ∨ d2.cabOn q.ctx 8 = true) :
    d.collStart q =
      (let g := atLe q.bytes 0x11 1
       let m := d2.collNo q.ctx g
       let d3 := { d2 with collSeq := mapSet (fun _ => 0) d2.collSeq (q.ctx * 256 + g) (m + 1) }
       let outs := d3.outRanges q.ctx [(atLe q.bytes 0x28 8, cBytes (cBits e.ofmt) e.outCount)]
       d3.collJoin { desc := q, group := g, seq := m, w := e.w, input := input, outs := outs }) := by
  have served : (e.segmented && !d2.cabOn q.ctx 8) = false := by
    obtain h | h := client <;> simp only [h, Bool.false_and, Bool.not_true, Bool.and_false]
  simp only [Dev.collStart, idle, hchk, served, Bool.false_eq_true, if_false]

theorem Dev.collStart_class (segmented : e.segmented = true) (client : d2.cabOn q.ctx 8 = false) :
    d.collStart q = d2.cabFault ⟨q.ctx, 0, 0⟩ 6 8 := by
  simp only [Dev.collStart, idle, hchk, segmented, client, Bool.not_false, Bool.and_self, Bool.false_eq_true, if_false, if_true]

end CollStart

/-- An exchange operation that passes its checks starts with what it reads and sends. -/
theorem Dev.xStart_ok {d d2 : Dev} {q : Desc} {f input : Bytes} {sends : List Send}
    (hchk : ({ d with descs := d.descs.erase q } : Dev).xCheck q = .ok f)
    (hbegin : xBegin q f { d with descs := d.descs.erase q } = .ok (input, sends) d2) :
    d.xStart q =
      (let outs := ({ d with descs := d.descs.erase q } : Dev).xOuts q f
       let o : CollOp := { desc := q, group := 256, seq := 0, outs := outs, input := input, outq := sends }
       ({ d2 with colls := d2.colls ++ [o] } : Dev).collAdvance ((d2.colls ++ [o]).length - 1)) := by
  simp only [Dev.xStart, hchk, hbegin]

section CollEnd

variable {d d1 : Dev} {k : Nat} {o : CollOp} {peers : List (Nat × Bytes)}

/-- The end of a collective's or an exchange operation's work, with the words that it may lose. -/
theorem becomes_collOpComplete {f : Dev} (lost : List (Nat × Nat)) (h : d.collDone k peers = f) :
    Becomes (.collOpComplete ⟨k, lost⟩ peers) d
      (f.endLosing d (decide (d.colls.length ≤ f.colls.length)) 4 128 ((d.colls[k]?).elim [] CollOp.outs) lost) := by
  subst h
  exact becomes_of_run (f := fun d => let e := d.collDone k peers
    e.endLosing d (decide (d.colls.length ≤ e.colls.length)) 4 128 ((d.colls[k]?).elim [] CollOp.outs) lost) (fun _ => rfl) rfl

theorem Dev.collDone_coll (h1 : d.collAdvance k = d1) (ho : d1.colls[k]? = some o) (hg : o.group < 0xFE) :
    d.collDone k peers = d1.collFinish o := by
  have coll : ¬o.group = 256 := by omega
  simp only [Dev.collDone, h1, ho, coll, hg, if_false, if_true]

theorem Dev.collDone_exchange (h1 : d.collAdvance k = d1) (ho : d1.colls[k]? = some o) (hg : o.group = 256) :
    d.collDone k peers = d1.xFinish o peers := by
  simp only [Dev.collDone, h1, ho, hg, if_true]

/-- What a completed collective marks: its OIS events, and a breach of OIS completeness. -/
def Dev.collMarks (d : Dev) (o : CollOp) (e : CollEnv) (ev : Nat) : Dev :=
  let g := if ev = 0 then d else (d.bump (Reg.COL_CTX_SAT o.desc.ctx) ev).markSat o.desc.ctx o.desc.cl o.desc.pc
  if e.breaches then g.markBreach o.desc.ctx o.desc.cl o.desc.pc else g

section

variable {e : CollEnv} {bs : Bytes} {ev : Nat} (he : d.envOf o = some e) (hr : e.result o.input o.arrived = some (bs, ev))
  (sent : o.outq = []) (flows : (e.flowsOut o.input o.arrived).length = o.sent.length)
include he hr sent flows

/-- A collective whose result is whole and that has sent all writes its result and completes. -/
theorem Dev.collFinish_ok {r : Dev}
    (hw : (if bs.isEmpty then (d, none) else (Eng.write o.desc.ctx 0x32 (atLe o.desc.bytes 0x28 8) bs).runOn d) = (r, none)) :
    d.collFinish o =
      (let g := r.collMarks o e ev
       ({ g with colls := g.colls.erase o } : Dev).descDone o.desc 3) := by
  simp only [Dev.collFinish, he, hr, sent, flows, hw, List.isEmpty_nil, Bool.not_true, ne_eq, not_true, decide_false, Bool.or_self,
    Bool.false_eq_true, if_false]
  rfl

end

theorem Dev.xFinish_ok {f : Bytes} {m : Eng Unit} {g : Dev} (hf : d.profile o.desc.ctx (atLe o.desc.bytes 0x11 1) = some f)
    (hm : d.xWork o f peers = some m) (hrun : m.runOn d = (g, none)) :
    d.xFinish o peers = ({ g with colls := g.colls.erase o } : Dev).descDone o.desc 3 := by
  simp only [Dev.xFinish, hf, hm, hrun]

end CollEnd

/-- Settles O28: the start by its checks, a staged chunk by its check value and its stream, the end by its result. -/
theorem collectiveOperations : Obligations.CollectiveOperations := by
  unfold Obligations.CollectiveOperations
  intro d
  refine ⟨fun k q hq room => ?_, fun k s i o e hs hi ho he => ?_, fun k o peers lost ho => ?_⟩
  · have starts : ∀ {e : Dev}, (if isExchange q.bytes then d.xStart q else d.collStart q) = e → Becomes (.collOpStart k) d e :=
      fun h => becomes_of_run (f := (·.collNext k)) (fun _ => rfl) ((Dev.collNext_eq hq room).trans h)
    refine ⟨fun e input d2 hx idle hchk => ?_, fun f input sends d2 hx hchk hbegin => ?_⟩
    · have coll : ¬isExchange q.bytes = true := by simp only [hx, Bool.false_eq_true, not_false_eq_true]
      exact ⟨fun client => starts ((if_neg coll).trans (Dev.collStart_joins idle hchk client)),
        fun segmented client => starts ((if_neg coll).trans (Dev.collStart_class idle hchk segmented client))⟩
    · exact starts ((if_pos hx).trans (Dev.xStart_ok hchk hbegin))
  · intro d1 at_ pay d2 bad ix phase wanted
    have consumed : d.consume k =
        if bad then d2.colFault s.ctx o.desc.cl o.code 0x33 (at_ % 2 ^ 32) 0
        else if e.check pay ≠ s.hdr.sval then d2.colFault s.ctx o.desc.cl o.code 0x34 s.hdr.src 0
        else if !wanted then d2
        else ({ d2 with colls := d2.colls.set i { o with got := o.got ++ [(s.hdr.src, phase, ix, pay)] } } : Dev).collAdvance i := by
      simp only [Dev.consume, hs, hi, ho, he, Option.bind_some] <;> rfl
    have consumes : ∀ {f : Dev}, d.consume k = f → Becomes (.collChunkConsume k) d f :=
      becomes_of_run (f := (·.consume k)) fun _ => rfl
    clear_value d2 bad wanted phase ix pay at_ 
    refine ⟨fun hbad => consumes ?_, fun hbad hval => consumes ?_, fun hbad hval hw => consumes ?_, fun hbad hval hw => consumes ?_⟩
    · rw [consumed, if_pos hbad]
    · rw [consumed, hbad, if_neg Bool.false_ne_true, if_pos hval]
    · rw [consumed, hbad, if_neg Bool.false_ne_true, if_neg (not_not_intro hval), hw] <;> rfl
    · rw [consumed, hbad, if_neg Bool.false_ne_true, if_neg (not_not_intro hval), hw] <;> rfl
  · refine ⟨fun e bs ev hg he hr sent flows => ⟨fun hb => ?_, fun f hb hw => ?_⟩, fun f m g hg hf hm hrun => ?_⟩
    · exact becomes_collOpComplete lost ((Dev.collDone_coll rfl ho hg).trans
        (Dev.collFinish_ok he hr sent flows (if_pos (List.isEmpty_iff.2 hb))))
    · exact becomes_collOpComplete lost ((Dev.collDone_coll rfl ho hg).trans
        (Dev.collFinish_ok he hr sent flows ((if_neg (mt List.isEmpty_iff.1 hb)).trans hw)))
    · exact becomes_collOpComplete lost ((Dev.collDone_exchange rfl ho hg).trans (Dev.xFinish_ok hf hm hrun))

end Sys2Proof.Machine

namespace Sys2Proof.Machine

/-! ## Tier commands, the prefetch list and eviction (R556 to R569) -/

/-- What a hub engine does with the tracker that its transfers take. -/
theorem Dev.withHubTrk_some {d : Dev} {t : Nat} (h : d.freeHubTrk = some t) (x pc src : Nat) (f : Dev → Dev) :
    d.withHubTrk x pc src f = (f (d.takeTrk t (hubTracker d x pc src))).freeTrkEntry t := by
  simp only [Dev.withHubTrk, h]

theorem Dev.withHubTrk_none {d : Dev} (h : d.freeHubTrk = none) (x pc src : Nat) (f : Dev → Dev) : d.withHubTrk x pc src f = d := by
  simp only [Dev.withHubTrk, h]

/-- A CREAD issues like the other tier commands, and keeps the ranges that it writes. -/
theorem becomes_cread {d : Dev} {a : Slot} (h : d.descReady a 0x38 = true) (hop : tierOp (d.descBytes a) = 5) :
    Becomes (.cread a) d ((d.issuedBy a fun e => { e with descs := e.descs ++ [d.descOf a 0x38 none] }).noteOuts a.cl) := by
  have issued : d.tierSlot a 5 = d.issuedBy a fun e => { e with descs := e.descs ++ [d.descOf a 0x38 none] } :=
    (d.descSlot_alone a 3 0x1C 0x38 (fun b => tierOp b == 5) h (beq_iff_eq.2 hop)).trans
      (congrArg (·.issuedFrom a.cl (d.slotCtx a) (d.slotRegs a).pc) (Dev.issue_queues (by decide) (by decide)))
  have joined : (d.issuedBy a fun e => { e with descs := e.descs ++ [d.descOf a 0x38 none] }).descs = d.descs ++ [d.descOf a 0x38 none] := rfl
  refine becomes_of_run (f := fun d =>
    let e := d.tierSlot a 5
    if d.descs.length < e.descs.length then e.noteOuts a.cl else e) (fun _ => rfl) ?_
  dsimp only
  rw [issued, joined, List.length_append, List.length_singleton, if_pos (Nat.lt_succ_self _)]

section TierCommand

variable {d : Dev} {q : Desc} {s : Nat}

/-- A command without a status word ends. -/
theorem Dev.tierDone_silent (h : atLe q.bytes 0x14 4 = 0xFFFFFFFF) :
    d.tierDone q s = ({ d with descs := d.descs.erase q } : Dev).descDone q 3 := by
  simp only [Dev.tierDone, h, if_true, ne_eq, not_true, if_false]

/-- One with a status word that it may write writes it first. -/
theorem Dev.tierDone_status (h : atLe q.bytes 0x14 4 ≠ 0xFFFFFFFF) (ok : d.localCheck q.ctx q.cl (atLe q.bytes 0x14 4) 4 2 = 0) :
    d.tierDone q s =
      (let g := d.write (spadAddr q.cl (atLe q.bytes 0x14 4)) (leBytes 4 s)
       ({ g with descs := g.descs.erase q } : Dev).descDone q 3) := by
  simp only [Dev.tierDone, h, if_false, ok, ne_eq, not_true]

/-- An ADVANCE of a context with hints raises LAYER. -/
theorem Dev.tierRun_advance {e : Ecc} (hb : tierBody q.bytes = none) (hop : tierOp q.bytes = 4) (hint : d.hint q.ctx = true) :
    d.tierRun q e =
      (let l := max (d.pref q.ctx).layer (atLe q.bytes 0x34 4)
       .done ((d.setPref q.ctx { d.pref q.ctx with layer := l }).setFld (Reg.TIER_CTX_STATE q.ctx) 8 24 (l % 2 ^ 24)) 0) := by
  simp only [Dev.tierRun, hb, hop, Dev.advance, hint, if_true]

variable {c k : Nat} {e : Ecc} (hq : d.tierDesc c k = some q)
include hq

theorem Dev.tierComplete_earlier {p : Desc} {o : Nat} (hp : d.tierEarlier c k = some (p, o)) :
    d.tierComplete c k e = d.tierFault p.ctx c false 1 o 0 := by
  simp only [Dev.tierComplete, hq, hp]

theorem Dev.tierComplete_eq (hp : d.tierEarlier c k = none) :
    d.tierComplete c k e = d.withHubTrk q.ctx q.pc 5 fun d => Dev.tierEnd q (d.tierRun q e) := by
  simp only [Dev.tierComplete, hq, hp]

/-- The end of a tier command, with the words that it may lose. -/
theorem becomes_tierCmdComplete {f : Dev} (lost : List (Nat × Nat)) (h : d.tierComplete c k e = f) :
    Becomes (.tierCmdComplete ⟨c, lost⟩ k e) d (f.endLosing d (decide (d.descs.length ≤ f.descs.length)) 4 c q.outs lost) := by
  refine becomes_of_run (f := fun d =>
    let f := d.tierComplete c k e
    match d.tierDesc c k with
    | some q => f.endLosing d (decide (d.descs.length ≤ f.descs.length)) 4 c q.outs lost
    | none => f) (fun _ => rfl) ?_
  dsimp only
  rw [hq, h]

end TierCommand

section Prefetch

variable {d : Dev} {x k : Nat}

/-- An eligible entry of the prefetch list starts while fewer than four run. -/
theorem Dev.prefStart_ok (hstep : d.inStep x = true) (hnext : d.prefNext x = true) (room : (d.pref x).busy.length < 4) :
    d.prefStart x = d.setPref x { d.pref x with next := (d.pref x).next + 1, busy := (d.pref x).busy ++ [(d.pref x).next] } := by
  simp only [Dev.prefStart, hstep, hnext, room, decide_true, Bool.and_self, if_true]

theorem Dev.prefDone_eq {i : Nat} {q : PrefEntry} {e : Ecc} (hi : (d.pref x).busy[k]? = some i)
    (hq : (planPrefetch (d.ctx x).plan)[i]? = some q) :
    d.prefDone x k e = d.withHubTrk x 0 5 fun d => Dev.prefEnd x k q (d.stage x q.obj q.tier e) := by
  simp only [Dev.prefDone, hi, hq]

end Prefetch

section Eviction

variable {d : Dev} {x obj pool : Nat} {e : TierEnt} (he : d.anyEnt x obj pool = some e)
include he

/-- An entry that is found is of its context. -/
theorem Dev.anyEnt_ctx : e.ctx = x := by
  have found := List.find?_some he
  simp only [Bool.and_eq_true, beq_iff_eq] at found
  exact found.1.1

theorem Dev.ageEvict_eq :
    d.ageEvict x obj pool = if d.loaded x && d.evictable e && secAt (d.ctx x).plan 11 2 2 != 0 && decide (secAt (d.ctx x).plan 11 2 2 ≤ e.age)
      then (d.evict e).noteHeld else d := by
  simp only [Dev.ageEvict, he]

/-- The sweep evicts an entry that has aged, unless it is kept. -/
theorem Dev.ageEvict_old (hl : d.loaded x = true) (hev : d.evictable e = true) (hlim : secAt (d.ctx x).plan 11 2 2 ≠ 0)
    (hage : secAt (d.ctx x).plan 11 2 2 ≤ e.age) : d.ageEvict x obj pool = (d.evict e).noteHeld := by
  rw [d.ageEvict_eq he, hl, hev, bne_iff_ne.2 hlim, decide_eq_true hage]
  rfl

theorem Dev.ageEvict_young (hage : e.age < secAt (d.ctx x).plan 11 2 2) : d.ageEvict x obj pool = d := by
  rw [d.ageEvict_eq he, decide_eq_false (Nat.not_le.2 hage), Bool.and_false, if_neg Bool.false_ne_true]

/-- An entry of a frozen context stays as it is. -/
theorem Dev.evictable_frozen (hx : (d.ctx x).state = .frozen) : d.evictable e = false := by
  have frozen : d.tierFrozen e.ctx = true := by
    rw [d.anyEnt_ctx he, Dev.tierFrozen, hx]
    rfl
  rw [Dev.evictable, frozen, Bool.not_true, Bool.and_false]

theorem Dev.ageEvict_frozen (hx : (d.ctx x).state = .frozen) : d.ageEvict x obj pool = d := by
  rw [d.ageEvict_eq he, d.evictable_frozen he hx, Bool.and_false, Bool.false_and, Bool.false_and, if_neg Bool.false_ne_true]

theorem Dev.evictDone_frozen (hx : (d.ctx x).state = .frozen) : d.evictDone x obj pool = d := by
  have frozen : d.tierFrozen x = true := by
    rw [Dev.tierFrozen, hx]
    rfl
  simp only [Dev.evictDone, he, frozen, Bool.or_true, if_true]

section

variable (hev : e.evicting = true) (hx : (d.ctx x).state ≠ .frozen)
include hev hx

theorem Dev.evictDone_waits (hfree : d.freeHubTrk = none) : d.evictDone x obj pool = d := by
  have live : d.tierFrozen x = false := beq_eq_false_iff_ne.2 hx
  simp only [Dev.evictDone, he, hev, live, Bool.not_true, Bool.or_self, Bool.false_eq_true, if_false, Dev.withHubTrk_none hfree]

variable {t : Nat} {d1 : Dev} (hfree : d.freeHubTrk = some t) (h1 : d.takeTrk t (hubTracker d x 0 5) = d1)
include hfree h1

/-- An eviction ends with its frames free, once its dirty pages are home. -/
theorem Dev.evictDone_home (hp : d1.dirtyPoison e = none) :
    d.evictDone x obj pool = ((d1.writeBack e).dropEnt x obj pool).noteHeld.freeTrkEntry t := by
  have live : d.tierFrozen x = false := beq_eq_false_iff_ne.2 hx
  simp only [Dev.evictDone, he, hev, live, Bool.not_true, Bool.or_self, Bool.false_eq_true, if_false, Dev.withHubTrk_some hfree, h1, hp]

/-- A poisoned one is its fault. -/
theorem Dev.evictDone_poison {p : Nat} (hp : d1.dirtyPoison e = some p) :
    d.evictDone x obj pool = (d1.tierFault x 0 false 7 (p % 2 ^ 32) 0).freeTrkEntry t := by
  have live : d.tierFrozen x = false := beq_eq_false_iff_ne.2 hx
  simp only [Dev.evictDone, he, hev, live, Bool.not_true, Bool.or_self, Bool.false_eq_true, if_false, Dev.withHubTrk_some hfree, h1, hp]

end

end Eviction

theorem Dev.evict_clean {d : Dev} {e : TierEnt} (h : e.dirty = []) : d.evict e = d.dropEnt e.ctx e.obj e.pool := by
  rw [Dev.evict, h, List.isEmpty_nil, if_pos rfl]

theorem Dev.evict_dirty {d : Dev} {e : TierEnt} (h : e.dirty ≠ []) :
    d.evict e = d.modEnt e.ctx e.obj e.pool fun k => { k with evicting := true } := by
  rw [Dev.evict, if_neg (mt List.isEmpty_iff.1 h)]

/-- Settles O45: each command by the lemma of its case. -/
theorem tierCommands : Obligations.TierCommands := by
  unfold Obligations.TierCommands
  intro d
  refine ⟨fun a h hop => becomes_cread h hop, fun c k e q lost hq => ?_,
    fun x hstep hnext room => becomes_of_run (f := (·.prefStart x)) (fun _ => rfl) (Dev.prefStart_ok hstep hnext room),
    fun x k i q e hi hq => ?_, fun x obj pool e he => ?_⟩
  · have ends : ∀ {f : Dev}, d.tierComplete c k e = f → _ := fun {f} h => becomes_tierCmdComplete (f := f) hq lost h
    refine ⟨fun p o hp => ends (Dev.tierComplete_earlier hq hp), fun hp hfree => ?_, fun t hp hfree => ?_, fun hb hop hint =>
      Dev.tierRun_advance hb hop hint⟩
    · have waits := ends ((Dev.tierComplete_eq hq hp).trans (Dev.withHubTrk_none hfree ..))
      rwa [decide_eq_true (Nat.le_refl _), Dev.endLosing, if_pos rfl] at waits
    · have run : d.tierComplete c k e = (Dev.tierEnd q ((d.takeTrk t (hubTracker d q.ctx q.pc 5)).tierRun q e)).freeTrkEntry t :=
        (Dev.tierComplete_eq hq hp).trans (Dev.withHubTrk_some hfree ..)
      refine ⟨fun f s hr hs => ends (run.trans ?_), fun f s hr hs ok => ends (run.trans ?_), fun f hr => ends (run.trans ?_),
        fun f code detail tr hr => ends (run.trans ?_)⟩
      · rw [hr, Dev.tierEnd, Dev.tierDone_silent hs]
      · rw [hr, Dev.tierEnd, Dev.tierDone_status hs ok]
      · rw [hr, Dev.tierEnd]
      · rw [hr, Dev.tierEnd]
  · have ends : ∀ {f : Dev}, d.prefDone x k e = f → Becomes (.prefetchEntryComplete x k e) d f :=
      becomes_of_run (f := (·.prefDone x k e)) fun _ => rfl
    refine ⟨fun hfree => ends ((Dev.prefDone_eq hi hq).trans (Dev.withHubTrk_none hfree ..)), fun t hfree => ?_⟩
    have run : d.prefDone x k e = (Dev.prefEnd x k q ((d.takeTrk t (hubTracker d x 0 5)).stage x q.obj q.tier e)).freeTrkEntry t :=
      (Dev.prefDone_eq hi hq).trans (Dev.withHubTrk_some hfree ..)
    refine ⟨fun f s hr => ends (run.trans ?_), fun f hr => ends (run.trans ?_), fun f code detail tr hr => ends (run.trans ?_)⟩
    · rw [hr, Dev.prefEnd]
    · rw [hr, Dev.prefEnd]
    · rw [hr, Dev.prefEnd]
  · have sweeps : ∀ {f : Dev}, d.ageEvict x obj pool = f → Becomes (.ageingEvict x obj pool) d f :=
      becomes_of_run (f := (·.ageEvict x obj pool)) fun _ => rfl
    have ends : ∀ {f : Dev}, d.evictDone x obj pool = f → Becomes (.evictionWritebackDone x obj pool) d f :=
      becomes_of_run (f := (·.evictDone x obj pool)) fun _ => rfl
    refine ⟨fun hl hev hlim hage => ⟨fun hd => sweeps ((Dev.ageEvict_old he hl hev hlim hage).trans (congrArg Dev.noteHeld (Dev.evict_clean hd))),
        fun hd => sweeps ((Dev.ageEvict_old he hl hev hlim hage).trans (congrArg Dev.noteHeld (Dev.evict_dirty hd)))⟩,
      fun hage => sweeps (Dev.ageEvict_young he hage), fun hx => ⟨sweeps (Dev.ageEvict_frozen he hx), ends (Dev.evictDone_frozen he hx)⟩,
      fun hev hx => ⟨fun hfree => ends (Dev.evictDone_waits he hev hx hfree), fun t hfree =>
        ⟨fun hp => ends (Dev.evictDone_home he hev hx hfree rfl hp), fun p hp => ends (Dev.evictDone_poison he hev hx hfree rfl hp)⟩⟩⟩

end Sys2Proof.Machine

namespace Sys2Proof.Machine

/-! ## The Chest (R573 to R588) -/

section NsCommands

variable {d : Dev} {src : Master} {w : Word} (h : d.refusal src Reg.CHEST_NS_CMD true = none)
include h

/-- A namespace command is accepted while none runs. -/
theorem Dev.wNsCmd_ok (idle : d.bit Reg.CHEST_NS_CMD 20 = false) (hw : fieldOf w 8 3 ≠ 0) :
    d.wNsCmd src w = { (d.plainWrite Reg.CHEST_NS_CMD w).setBit Reg.CHEST_NS_CMD 20 true with nsCmd := some (fieldOf w 8 3) } := by
  rw [Dev.wNsCmd, d.guard_of_passes h, idle, if_neg Bool.false_ne_true]
  exact if_neg hw

theorem Dev.wNsCmd_busy (busy : d.bit Reg.CHEST_NS_CMD 20 = true) : d.wNsCmd src w = d.logDiscard Reg.CHEST_NS_CMD := by
  rw [Dev.wNsCmd, d.guard_of_passes h, busy, if_pos rfl]

end NsCommands

section NsEnd

variable {d : Dev} {cmd base : Nat} (hcmd : d.nsCmd = some cmd) (hpwr : cmd = 4 → d.boot.pwrGood = true)
  {code : Nat} (hcode : d.nsCode cmd (d.fld Reg.CHEST_NS_CMD 0 6) (d.fld Reg.CHEST_NS_CMD 24 40) = code)
include hcmd hpwr hcode

/-- A namespace command that a check turns away ends with its code. -/
theorem Dev.nsDone_refused (h : code ≠ 0) :
    d.nsDone base = { (d.setFld Reg.CHEST_NS_CMD 16 4 code).setBit Reg.CHEST_NS_CMD 20 false with nsCmd := none } := by
  have powered : (decide (cmd = 4) && !d.boot.pwrGood) = false := by
    by_cases h4 : cmd = 4
    · rw [hpwr h4, Bool.not_true, Bool.and_false]
    · rw [decide_eq_false h4, Bool.false_and]
  simp only [Dev.nsDone, hcmd, powered, hcode, h, Bool.false_eq_true, if_false, ne_eq, not_false_iff, if_true]

/-- What the others do. -/
theorem Dev.nsDone_create {at_ : Nat} {e : Dev} (h : code = 0) (h1 : cmd = 1) (hat : d.nsPlace base (d.fld Reg.CHEST_NS_CMD 24 40) = some (at_, e)) :
    d.nsDone base = ({ (e.setFld Reg.CHEST_NS_CMD 16 4 0).setBit Reg.CHEST_NS_CMD 20 false with nsCmd := none } : Dev).setNs
      (d.fld Reg.CHEST_NS_CMD 0 6) (some { cap := d.fld Reg.CHEST_NS_CMD 24 40, base := at_, born := d.chest.seq }) := by
  subst h h1
  simp only [Dev.nsDone, hcmd, hcode, hat, (by decide : ¬(1 = 4)), decide_false, Bool.false_and, Bool.false_eq_true, if_false, ne_eq, not_true,
    if_true]

theorem Dev.nsDone_waits (h : code = 0) (h1 : cmd = 1) (hat : d.nsPlace base (d.fld Reg.CHEST_NS_CMD 24 40) = none) : d.nsDone base = d := by
  subst h h1
  simp only [Dev.nsDone, hcmd, hcode, hat, (by decide : ¬(1 = 4)), decide_false, Bool.false_and, Bool.false_eq_true, if_false, ne_eq, not_true,
    if_true]

theorem Dev.nsDone_delete (h : code = 0) (h2 : cmd = 2) :
    d.nsDone base = ((({ (d.setFld Reg.CHEST_NS_CMD 16 4 code).setBit Reg.CHEST_NS_CMD 20 false with nsCmd := none } : Dev).unmapAll
      (d.fld Reg.CHEST_NS_CMD 0 6)).setNs (d.fld Reg.CHEST_NS_CMD 0 6) none).chestCount := by
  subst h h2
  simp only [Dev.nsDone, hcmd, hcode, (by decide : ¬(2 = 4)), (by decide : ¬(2 = 1)), decide_false, Bool.false_and, Bool.false_eq_true, if_false,
    ne_eq, not_true, if_true]

theorem Dev.nsDone_format (h : code = 0) (h4 : cmd = 4) :
    d.nsDone base = ({ (d.setFld Reg.CHEST_NS_CMD 16 4 code).setBit Reg.CHEST_NS_CMD 20 false with nsCmd := none } : Dev).format := by
  subst h h4
  simp only [Dev.nsDone, hcmd, hcode, hpwr rfl, (by decide : ¬(4 = 2)), (by decide : ¬(4 = 1)), Bool.not_true, Bool.and_false, Bool.false_eq_true,
    if_false, ne_eq, not_true]

end NsEnd

section Place

variable {d : Dev} {base cap : Nat}

/-- The map range of a new namespace. -/
theorem Dev.nsPlace_free (hu : base + cap ≤ d.chest.usable) (hfree : (d.chest.ns.any fun m => overlap base cap m.2.base m.2.cap) = false) :
    d.nsPlace base cap = some (base, d) := by
  have fits : d.chest.fits base cap = true := by
    rw [Chest.fits, decide_eq_true hu, hfree]
    rfl
  rw [Dev.nsPlace, if_pos fits]

theorem Dev.nsPlace_room (h : d.chest.fits base cap = false) (room : d.chest.hasRoom cap = true) : d.nsPlace base cap = none := by
  simp only [Dev.nsPlace, h, room, Bool.false_eq_true, if_false, if_true]

theorem Dev.nsPlace_moved (h : d.chest.fits base cap = false) (room : d.chest.hasRoom cap = false) :
    d.nsPlace base cap = some (d.chest.caps, d.compact) := by
  simp only [Dev.nsPlace, h, room, Bool.false_eq_true, if_false]

end Place

/-! ### The state of a mounted Chest -/

/-- A fold of steps that keep the register file canonical keeps it so. -/
theorem foldl_csr_wf {α : Type} {f : Dev → α → Dev} (h : ∀ e a, mapWf csrReset e.csr = true → mapWf csrReset (f e a).csr = true)
    (l : List α) (d : Dev) (hwf : mapWf csrReset d.csr = true) : mapWf csrReset (l.foldl f d).csr = true := by
  induction l generalizing d with
  | nil => exact hwf
  | cons a l ih => exact ih (f d a) (h d a hwf)

section CsrWf

variable (d : Dev) (hwf : mapWf csrReset d.csr = true)
include hwf

theorem Dev.hcLook_csr_wf (x line : Nat) (alloc : Bool) : mapWf csrReset (d.hcLook x line alloc).csr = true := by
  rw [Dev.hcLook]
  split
  · exact Dev.setReg_csr_wf _ _ _ hwf
  · dsimp only
    split
    · exact Dev.setReg_csr_wf _ _ _ hwf
    · exact Dev.setReg_csr_wf _ _ _ hwf

theorem Dev.hcTouch_csr_wf (x a n : Nat) (alloc : Bool) : mapWf csrReset (d.hcTouch x a n alloc).csr = true := by
  rw [Dev.hcTouch]
  split
  · exact hwf
  · exact foldl_csr_wf (fun e l he => e.hcLook_csr_wf he x l alloc) _ d hwf

theorem Dev.hubWrite_csr_wf (a : Nat) (bs : Bytes) : mapWf csrReset (d.hubWrite a bs).csr = true :=
  (d.write a bs).hcTouch_csr_wf hwf 0 a bs.length false

theorem Dev.setNs_csr_wf (k : Nat) (n : Option ChestNs) : mapWf csrReset (d.setNs k n).csr = true := by
  cases n with
  | none => exact Dev.setReg_csr_wf _ _ _ (Dev.setReg_csr_wf _ _ _ hwf)
  | some m => exact Dev.setReg_csr_wf _ _ _ (Dev.setReg_csr_wf _ _ _ hwf)

/-- A field beside the one that is written. -/
theorem Dev.fld_setFld_beside (o : Nat) {lo w lo' w' : Nat} (x : Nat) (h : lo' + w' ≤ 64) (hd : lo' + w' ≤ lo ∨ lo + w ≤ lo') :
    (d.setFld o lo w x).fld o lo' w' = d.fld o lo' w' := by
  rw [Dev.fld, Dev.setFld, d.setReg_same o _ hwf, fieldOf_setField_other _ x h hd, Dev.fld]

end CsrWf

theorem Dev.fld_setFld_other (d : Dev) {o p : Nat} (lo w x lo' w' : Nat) (h : p ≠ o) : (d.setFld o lo w x).fld p lo' w' = d.fld p lo' w' := by
  rw [Dev.fld, Dev.setFld, d.setReg_other o p _ h, Dev.fld]

theorem Dev.rasSet_reg (d : Dev) (b : Nat) {p : Nat} (hp : 0x118000 ≤ p) : (d.rasSet b).reg p = d.reg p := by
  rw [Dev.rasSet]
  split
  · rfl
  · rw [Dev.log_reg_other _ _ _ _ _ _ _ (.inr hp), Dev.setBit, Dev.setFld, Dev.setReg_other _ _ _ _ (by rw [Reg.AON_RAS_STATUS]; omega)]

/-- The count of blocks leaves the Chest's state, or finds it DEGRADED. -/
theorem Dev.chestCount_state (d : Dev) (hwf : mapWf csrReset d.csr = true) :
    d.chestCount.fld Reg.CHEST_STATUS 0 3 = d.fld Reg.CHEST_STATUS 0 3 ∨ d.chestCount.fld Reg.CHEST_STATUS 0 3 = 3 := by
  rw [Dev.chestCount]
  generalize d.chest.good - ceilDiv d.mappedUnits d.chest.upb - 2048 = spare
  generalize d.chest.good = good
  dsimp only
  have wf1 : mapWf csrReset (d.setFld Reg.CHEST_STATUS 8 24 spare).csr = true := d.setReg_csr_wf _ _ hwf
  have wf2 : mapWf csrReset ((d.setFld Reg.CHEST_STATUS 8 24 spare).setFld Reg.CHEST_STATUS 32 32 good).csr = true := Dev.setReg_csr_wf _ _ _ wf1
  have kept : ((d.setFld Reg.CHEST_STATUS 8 24 spare).setFld Reg.CHEST_STATUS 32 32 good).fld Reg.CHEST_STATUS 0 3 = d.fld Reg.CHEST_STATUS 0 3 := by
    rw [Dev.fld_setFld_beside _ wf1 _ _ (by decide) (.inl (by decide)), Dev.fld_setFld_beside _ hwf _ _ (by decide) (.inl (by decide))]
  generalize (d.setFld Reg.CHEST_STATUS 8 24 spare).setFld Reg.CHEST_STATUS 32 32 good = e at wf2 kept
  have warned : ∀ f : Dev, (if f.chestUp then f.rasSet 18 else f).fld Reg.CHEST_STATUS 0 3 = f.fld Reg.CHEST_STATUS 0 3 := fun f => by
    split
    · exact congrArg (fieldOf · 0 3) (f.rasSet_reg 18 (by decide))
    · rfl
  split
  · rw [warned]
    split
    · exact .inr (Dev.fld_setFld_same _ _ _ wf2 (by decide))
    · exact .inl kept
  · exact .inl ((e.fld_setFld_other _ _ _ _ _ (by decide)).trans kept)

theorem Dev.modChest_csr (d : Dev) (f : Chest → Chest) : (d.modChest f).csr = d.csr := rfl

/-- A mount ends READY, DEGRADED or WORN. -/
theorem Dev.mount_state (d : Dev) (hwf : mapWf csrReset d.csr = true) (h : d.fld Reg.CHEST_STATUS 0 3 = 1) :
    d.mount.fld Reg.CHEST_STATUS 0 3 = 2 ∨ d.mount.fld Reg.CHEST_STATUS 0 3 = 3 ∨ d.mount.fld Reg.CHEST_STATUS 0 3 = 4 := by
  have ends : ∀ (e : Dev) (p : Prop) [Decidable p], mapWf csrReset e.csr = true →
      let f := (e.setFld Reg.CHEST_STATUS 0 3 (if p then 4 else 2)).chestCount
      f.fld Reg.CHEST_STATUS 0 3 = 2 ∨ f.fld Reg.CHEST_STATUS 0 3 = 3 ∨ f.fld Reg.CHEST_STATUS 0 3 = 4 := fun e p _ wf => by
    obtain kept | degraded := Dev.chestCount_state (e.setFld Reg.CHEST_STATUS 0 3 (if p then 4 else 2)) (e.setReg_csr_wf _ _ wf)
    · rw [e.fld_setFld_same _ _ wf (by decide)] at kept
      by_cases hp : p
      · rw [if_pos hp] at kept ⊢
        exact .inr (.inr kept)
      · rw [if_neg hp] at kept ⊢
        exact .inl kept
    · exact .inr (.inl degraded)
  rw [Dev.mount, if_neg (not_not_intro h)]
  refine ends _ _ (foldl_csr_wf (fun e u wf => ?_) _ _ (foldl_csr_wf (fun e n wf => e.setNs_csr_wf wf n.1 (some n.2)) _ _ ?_))
  · split
    · split
      · exact wf
      · exact Dev.setReg_csr_wf _ _ _ (e.hubWrite_csr_wf wf _ _)
    · exact wf
  · split <;> exact hwf

/-! ### Programming and background work -/

section Program

variable {d : Dev} {c k : Nat} {q : Desc} (hq : d.tierDesc c k = some q) (hp : d.tierEarlier c k = none) (fail : Bool)
include hq hp

/-- Once PWR_GOOD has fallen, only a program in progress completes. -/
theorem Dev.unitProgrammed_down (hpwr : d.boot.pwrGood = false) (hf : d.boot.flight.contains (c, q.ea) = false) :
    d.unitProgrammed c k fail = d := by
  simp only [Dev.unitProgrammed, hq, hp, hpwr, hf, Bool.false_eq_true, if_false]

theorem Dev.unitProgrammed_up (hpwr : d.boot.pwrGood = true) :
    d.unitProgrammed c k fail = d.withHubTrk q.ctx q.pc 5 fun d => d.unitProgram c q fail := by
  simp only [Dev.unitProgrammed, hq, hp, hpwr, if_true]

end Program

/-- The next unit of a CWRITE that passes its checks is programmed. -/
theorem Dev.unitProgram_ok {d f g : Dev} {c : Nat} {q : Desc} {bs : Bytes} (hop : tierOp q.bytes = 6) (hb : tierBody q.bytes = none)
    (hns : d.nsBad q.ctx q.bytes = none) (hup : d.chestUp = true) (hcfg : q.cfg = []) (hprog : q.prog < atLe q.bytes 0x28 8)
    (hro : d.nsRo (atLe q.bytes 0x12 1) = false) (spare : d.fld Reg.CHEST_STATUS 8 24 ≠ 0)
    (hread : d.vread q.ctx (atLe q.bytes 0x18 8 + q.prog) 65536 = .ok bs) (hbuf : d.tierBuffer q.ctx bs = (true, f))
    (hw : f.chestWrite (atLe q.bytes 0x12 1) ((atLe q.bytes 0x20 8 + q.prog) / 65536) bs = some g) :
    d.unitProgram c q false = g.setDesc q { q with prog := q.prog + 65536 } := by
  simp only [Dev.unitProgram, hb, hop, hns, hup, hcfg, hro, spare, hread, hbuf, hw, beq_self_eq_true, Bool.not_true, List.isEmpty_nil,
    decide_eq_false (Nat.not_le.2 hprog), Bool.and_false, Bool.or_self, Bool.false_eq_true, if_false, decide_false, Bool.false_and]

section Background

variable {d : Dev} {b : Nat} (fail : Bool)

/-- Wear levelling and read-disturb relocation move blocks past their limits, inside the Chest's window. -/
theorem Dev.wearLevel_ok (hbg : d.chestBg = true) (hs : d.fld Reg.CHEST_CFG 0 16 < d.chest.spread.2 - d.chest.spread.1)
    (hb : d.chest.coldest = some b) : d.wearLevel fail = d.moveAndErase b fail := by
  simp only [Dev.wearLevel, hbg, hs, hb, decide_true, Bool.and_self, if_true]

theorem Dev.wearLevel_shut (hbg : d.chestBg = false) : d.wearLevel fail = d := by
  simp only [Dev.wearLevel, hbg, Bool.false_and, Bool.false_eq_true, if_false]

theorem Dev.readDisturb_ok (hbg : d.chestBg = true) (hr : d.fld Reg.CHEST_CFG 32 24 ≤ (d.chest.blk b).reads) :
    d.readDisturb b fail = d.moveAndErase b fail := by
  simp only [Dev.readDisturb, hbg, hr, decide_true, Bool.and_self, if_true]

theorem Dev.readDisturb_shut (hbg : d.chestBg = false) : d.readDisturb b fail = d := by
  simp only [Dev.readDisturb, hbg, Bool.false_and, Bool.false_eq_true, if_false]

end Background

/-- A map checkpoint is written once enough units have been, inside the window. -/
theorem becomes_mapCheckpoint {d e : Dev} (h : (if d.chestBg && decide (4194304 ≤ d.chest.unsaved) then d.modChest Chest.checkpoint else d) = e) :
    Becomes .mapCheckpoint d e :=
  becomes_of_run (f := fun d => if d.chestBg && decide (4194304 ≤ d.chest.unsaved) then d.modChest Chest.checkpoint else d) (fun _ => rfl) h

/-- Settles O46: each command by the lemma of its case. -/
theorem chestCommands : Obligations.ChestCommands := by
  unfold Obligations.ChestCommands
  intro d src w
  refine ⟨fun h => ⟨fun idle hw => ?_, fun busy => ?_⟩, fun cmd base hcmd hpwr => ?_, fun hwf => ?_, fun c k q hq hp => ?_, fun b fail => ?_⟩
  · have accepted := Dev.wNsCmd_ok h idle hw
    exact ⟨becomes_of_run (f := (·.wNsCmd src w)) (fun _ => rfl) accepted, becomes_of_run (f := (·.wNsCmd src w)) (fun _ => rfl) accepted,
      becomes_of_run (f := (·.wNsCmd src w)) (fun _ => rfl) accepted⟩
  · have discarded := Dev.wNsCmd_busy (w := w) h busy
    exact ⟨becomes_of_run (f := (·.wNsCmd src w)) (fun _ => rfl) discarded, becomes_of_run (f := (·.wNsCmd src w)) (fun _ => rfl) discarded,
      becomes_of_run (f := (·.wNsCmd src w)) (fun _ => rfl) discarded⟩
  · have ends : ∀ {e : Dev}, d.nsDone base = e → Becomes (.nsCmdComplete base) d e := becomes_of_run (f := (·.nsDone base)) fun _ => rfl
    exact ⟨fun h => ends (Dev.nsDone_refused hcmd hpwr rfl h),
      fun h h1 => ⟨fun hu hfree => ends (Dev.nsDone_create hcmd hpwr rfl h h1 (Dev.nsPlace_free hu hfree)),
        fun hfit => ⟨fun room => ends (Dev.nsDone_waits hcmd hpwr rfl h h1 (Dev.nsPlace_room hfit room)),
          fun room => ends (Dev.nsDone_create hcmd hpwr rfl h h1 (Dev.nsPlace_moved hfit room))⟩⟩,
      fun h h2 => ends (Dev.nsDone_delete hcmd hpwr rfl h h2), fun h h4 => ends (Dev.nsDone_format hcmd hpwr rfl h h4)⟩
  · exact ⟨d.mount, becomes_of_run (f := Dev.mount) (fun _ => rfl) rfl, fun h => if_pos h, fun h => d.mount_state (d.csr_wf hwf) h⟩
  · have ends : ∀ {fail : Bool} {e : Dev}, d.unitProgrammed c k fail = e → Becomes (.chestUnitProgrammed c k fail) d e :=
      fun {fail} {e} => becomes_of_run (f := (·.unitProgrammed c k fail)) fun _ => rfl
    refine ⟨fun hpwr hf fail => ends (Dev.unitProgrammed_down hq hp fail hpwr hf),
      fun hpwr hfree fail => ends ((Dev.unitProgrammed_up hq hp fail hpwr).trans (Dev.withHubTrk_none hfree ..)),
      fun t f g bs hpwr hfree hop hb hns hup hcfg hprog hro spare hread hbuf hw => ends ?_⟩
    rw [Dev.unitProgrammed_up hq hp false hpwr, Dev.withHubTrk_some hfree, Dev.unitProgram_ok hop hb hns hup hcfg hprog hro spare hread hbuf hw]
  · have levels : ∀ {e : Dev}, d.wearLevel fail = e → Becomes (.wearLevel fail) d e := becomes_of_run (f := (·.wearLevel fail)) fun _ => rfl
    have relocates : ∀ {e : Dev}, d.readDisturb b fail = e → Becomes (.readDisturbRelocate b fail) d e :=
      becomes_of_run (f := (·.readDisturb b fail)) fun _ => rfl
    refine ⟨fun hbg hs hb => levels (Dev.wearLevel_ok fail hbg hs hb), fun hbg hr => relocates (Dev.readDisturb_ok fail hbg hr),
      fun hbg => ⟨levels (Dev.wearLevel_shut fail hbg), relocates (Dev.readDisturb_shut fail hbg), becomes_mapCheckpoint ?_⟩,
      fun hbg hn => ⟨d.modChest Chest.checkpoint, becomes_mapCheckpoint ?_, Nat.sub_self _, rfl, rfl, rfl, rfl⟩⟩
    · rw [hbg, Bool.false_and, if_neg Bool.false_ne_true]
    · rw [hbg, decide_eq_true hn, Bool.and_self, if_pos rfl]

end Sys2Proof.Machine

namespace Sys2Proof.Machine

/-! ## The checkpoint engine (R775 to R791, R810) -/

section Snap

variable {d : Dev} {a : Slot}

/-- A ckp.snap joins no queue: the engine takes it at once. -/
theorem Dev.ckpSlot_eq (h : d.descReady a 0x3C = true) (none_ : (d.descs.all fun q => q.kind != 0x3C) = true) :
    d.ckpSlot a = (d.issuedBy a id).snapTake (d.descOf a 0x3C none) := by
  have issued : d.descSlot a 3 0x1E 0x3C anyBody = d.issuedBy a fun e => { e with descs := e.descs ++ [d.descOf a 0x3C none] } :=
    (d.descSlot_alone a 3 0x1E 0x3C anyBody h rfl).trans
      (congrArg (·.issuedFrom a.cl (d.slotCtx a) (d.slotRegs a).pc) (Dev.issue_queues (by decide) (by decide)))
  have joined : (d.issuedBy a fun e => { e with descs := e.descs ++ [d.descOf a 0x3C none] }).descs = d.descs ++ [d.descOf a 0x3C none] := rfl
  have other : ∀ q ∈ d.descs, ¬(q.kind == 0x3C) = true := fun q hq => by
    have differs := List.all_eq_true.1 none_ q hq
    rwa [bne, Bool.not_eq_true', ← Bool.not_eq_true] at differs
  have found : (d.descs ++ [d.descOf a 0x3C none]).find? (fun q => q.kind == 0x3C) = some (d.descOf a 0x3C none) := by
    rw [List.find?_append, List.find?_eq_none.2 other]
    rfl
  have left : (d.descs ++ [d.descOf a 0x3C none]).erase (d.descOf a 0x3C none) = d.descs := by
    rw [List.erase_append_right _ fun hq => other _ hq rfl, List.erase_cons_head, List.append_nil]
  simp only [Dev.ckpSlot, issued, joined, found, left]
  rfl

/-- The engine takes a snapshot of a context that has none. -/
theorem Dev.snapTake_ok {q : Desc} {ss : List Shard} (hb : ckpBody q.bytes = none) (hon : d.cabOn q.ctx 10 = true)
    (hs : mapFind d.snaps q.ctx = none) (hss : d.snapShards q.ctx q.bytes = .ok ss) :
    d.snapTake q = { (d.setFld (Reg.CKP_CTX_STATUS q.ctx) 8 4 0).setFld (Reg.CKP_CTX_STATUS q.ctx) 0 3 1 with
      snaps := mapPut d.snaps q.ctx (some { cl := q.cl, body := q.bytes, shards := ss }) } := by
  simp only [Dev.snapTake, hb, hon, hs, hss, Bool.not_true, Bool.false_eq_true, if_false, Option.any_none, Option.isSome_none]
  rfl

end Snap

section Copy

variable {d : Dev} {x u : Nat} {s : Snap} {bad : Bool} (hs : mapFind d.snaps x = some s) (hu : mapFind s.units u = some bad)
  (phase : s.phase = 2)
include hs hu phase

/-- A protected unit is copied and unprotected; one that no buffer is free for waits. -/
theorem Dev.cowCopy_ok {bs : List (Nat × Buf)} {f : Dev} (hbad : bad = false) (hbuf : d.earlyBuf x u s = (some bs, f)) :
    d.cowCopy x u .clean = (Dev.snapSend x s.msgs.length
      (((f.hcTouch x (u * 262144) 262144 false).setSnap x { s with units := mapPut s.units u none, early := s.early ++ bs }).addFld
        (Reg.CKP_CTX_STATUS x) 32 32 1)).dropEarly x := by
  subst hbad
  have clean : d.eccEvent .clean (eccLane (u * 262144)) (u * 262144) = d := rfl
  have still : (false || Ecc.clean == Ecc.uncorrectable) = false := rfl
  simp only [Dev.cowCopy, hs, hu, phase, clean, still, hbuf, ne_eq, not_true, Bool.false_eq_true, if_false]

theorem Dev.cowCopy_waits {f : Dev} (hbad : bad = false) (hbuf : d.earlyBuf x u s = (none, f)) : d.cowCopy x u .clean = f := by
  subst hbad
  have clean : d.eccEvent .clean (eccLane (u * 262144)) (u * 262144) = d := rfl
  have still : (false || Ecc.clean == Ecc.uncorrectable) = false := rfl
  simp only [Dev.cowCopy, hs, hu, phase, clean, still, hbuf, ne_eq, not_true, Bool.false_eq_true, if_false]

/-- A poisoned unit ends the snapshot. -/
theorem Dev.cowCopy_poison (hbad : bad = true) : d.cowCopy x u .clean = d.snapAbort x 5 := by
  subst hbad
  have clean : d.eccEvent .clean (eccLane (u * 262144)) (u * 262144) = d := rfl
  simp only [Dev.cowCopy, hs, hu, phase, clean, ne_eq, not_true, if_false, Bool.true_or, if_true]

end Copy

/-- The unit that the next message draws on needs no buffer. -/
theorem Dev.earlyBuf_next {d : Dev} {x u : Nat} {s : Snap} {m : Nat × Nat × Nat} (hm : s.msgs[s.sent]? = some m) (hu : u ∈ s.draws m) :
    d.earlyBuf x u s = (some [], d) := by
  rw [Dev.earlyBuf, hm, Option.any_some, List.contains_iff_mem.2 hu, if_pos rfl]

/-- The snapshot whose manifest is acknowledged is DONE, with its digest. -/
theorem Dev.snapDone_ok {d : Dev} {x : Nat} {s : Snap} {m : Bytes} (hs : mapFind d.snaps x = some s) (hm : s.man = some m)
    (hack : s.manAcked = true) :
    d.snapDone x =
      (let dig := (m.drop (m.length - 64)).take 32
       let e := (upFrom 0 4).foldl (fun e k => e.setReg (Reg.CKP_CTX_DIGEST x k) (BitVec.ofNat 64 (atLe dig (8 * k) 8))) d
       { (e.setFld (Reg.CKP_CTX_STATUS x) 0 3 3).setFld (Reg.CKP_CTX_STATUS x) 8 4 0 with snaps := mapPut e.snaps x none }) := by
  obtain ⟨⟩ := s
  dsimp only at hm hack
  subst hm hack
  rw [Dev.snapDone, hs]

section Restore

variable {d : Dev} {src : Master} {w : Word} (h : d.refusal src Reg.CKP_RESTORE_CTRL true = none) (ready : d.bit Reg.BUR_STATUS 0 = true)
include h ready

/-- A restore starts for a LOADED context, and ends at once for another. -/
theorem Dev.wRestore_go (go : bitOf w 12 = true) (idle : d.bit Reg.CKP_RESTORE_STATUS 8 = false) :
    d.wRestore src w =
      (let r : Restore := { ctx := fieldOf w 0 3, tgt := fieldOf w 8 4, off := fieldOf w 16 48 * 4096 }
       let e : Dev := { (d.plainWrite Reg.CKP_RESTORE_CTRL w).setBit Reg.CKP_RESTORE_STATUS 8 true with restore := some r }
       if (d.ctx (fieldOf w 0 3)).state ≠ .loaded then e.restoreOut r 1 0 else e.restoreRead r r.off 64) := by
  rw [Dev.wRestore, d.guard_of_passes h]
  simp only [idle, ready, go, Bool.not_true, Bool.or_self, Bool.false_eq_true, if_false]
  rfl

omit ready in
theorem Dev.wRestore_busy (busy : d.bit Reg.CKP_RESTORE_STATUS 8 = true) : d.wRestore src w = d.logDiscard Reg.CKP_RESTORE_CTRL := by
  rw [Dev.wRestore, d.guard_of_passes h]
  simp only [busy, Bool.true_or, if_true]

end Restore

section RestoreEnd

variable {d : Dev} {r : Restore} (hr : d.restore = some r)
include hr

/-- A restore that wrote nothing unverified ends with its code. -/
theorem Dev.restoreDone_code {code detail : Nat} (ho : r.out = some (code, detail)) (h0 : code ≠ 0) (h2 : code ≠ 2) (h6 : code ≠ 6) :
    d.restoreDone = ({ d.setReg Reg.CKP_RESTORE_STATUS (BitVec.ofNat 64 (code + detail % 2 ^ 32 * 2 ^ 32)) with restore := none } : Dev).ctxEvent
      r.ctx := by
  simp only [Dev.restoreDone, hr, ho, h0, h2, h6, decide_false, Bool.or_self, Bool.false_and, Bool.false_eq_true, if_false, if_true]

theorem Dev.restoreDone_whole (ho : r.out = some (0, 0)) (hregs : bitsOf (atLe r.man 6 1) 0 1 = 0) :
    d.restoreDone = ({ d.setReg Reg.CKP_RESTORE_STATUS 0 with restore := none } : Dev).ctxEvent r.ctx := by
  have none_ : (decide (0 = 2) || decide (0 = 6)) = false := rfl
  simp only [Dev.restoreDone, hr, ho, hregs, none_, (by decide : ¬(0 = 1)), decide_false, Bool.and_false, Bool.false_and, Bool.false_eq_true,
    if_false, if_true]
  rfl

end RestoreEnd

/-- A journal record that does not wrap leaves whole for its target. -/
theorem Dev.journalExport_ok {d e f g : Dev} {x t : Nat} {h rec : Bytes}
    (ht : ((upFrom 0 16).find? fun t => netFor (d.tgt t) x && bitsOf (atLe (d.tgt t) 0 1) 3 1 == 1) = some t)
    (hon : d.bit (Reg.FPU_CTX_JCFG x) 16 = true) (hlt : (d.reg (Reg.FPU_CTX_JHEAD x)).toNat < (d.reg (Reg.FPU_CTX_JTAIL x)).toNat)
    (hsize : d.fld (Reg.FPU_CTX_JSIZE x) 0 40 ≠ 0) (idle : (d.qps.any fun e => e.2.msgs.any fun m => m.kind == 2 && m.ctx == x) = false)
    (hwin : ((upFrom 0 8).any fun n => d.windowOpen 0 n) = true) (hcap : atLe (d.tgt t) 0x30 8 ≠ 0)
    (hh : d.ringRead x (d.reg (Reg.FPU_CTX_JHEAD x)).toNat 64 = (h, e))
    (hrec : e.ringRead x (d.reg (Reg.FPU_CTX_JHEAD x)).toNat (atLe h 8 4) = (rec, f))
    (hfit : (d.reg (Reg.FPU_CTX_JHEAD x)).toNat % atLe (d.tgt t) 0x30 8 + atLe h 8 4 ≤ atLe (d.tgt t) 0x30 8) (hlen : rec.length = atLe h 8 4)
    (hg : f.netSend t 2 x ((d.reg (Reg.FPU_CTX_JHEAD x)).toNat % atLe (d.tgt t) 0x30 8) rec (atLe h 8 4) = some g) :
    d.journalExport x = g := by
  have whole : min (atLe h 8 4) (atLe (d.tgt t) 0x30 8 - (d.reg (Reg.FPU_CTX_JHEAD x)).toNat % atLe (d.tgt t) 0x30 8) = atLe h 8 4 := by omega
  have all_ : rec.take (atLe h 8 4) = rec := List.take_of_length_le (Nat.le_of_eq hlen)
  simp only [Dev.journalExport, ht, hon, decide_eq_false (Nat.not_le.2 hlt), hsize, idle, hwin, hcap, hh, hrec, whole, all_, hg, Bool.not_true,
    decide_false, Bool.or_self, Bool.false_eq_true, if_false, if_true]

/-- Settles O47: each command by the lemma of its case. -/
theorem checkpointCommands : Obligations.CheckpointCommands := by
  unfold Obligations.CheckpointCommands
  intro d
  refine ⟨fun a ss h none_ hb hon hs hss => ?_, fun x u s bad hs hu phase => ?_, fun x s m hs hm hack => ?_, fun src w h ready go => ?_,
    fun r code detail hr ho h0 h2 h6 => ?_, fun r hr ho hregs => ?_, fun x t e f h rec hx ht hon hlt hsize idle hwin hcap hh hrec hfit hlen g hg => ?_⟩
  · exact becomes_of_run (f := (·.ckpSlot a)) (fun _ => rfl) ((Dev.ckpSlot_eq h none_).trans (Dev.snapTake_ok hb hon hs hss))
  · have ends : ∀ {f : Dev}, d.cowCopy x u .clean = f → Becomes (.cowCopyComplete x u .clean) d f :=
      becomes_of_run (f := (·.cowCopy x u .clean)) fun _ => rfl
    exact ⟨fun bs f hbad hbuf => ends (Dev.cowCopy_ok hs hu phase hbad hbuf), fun f hbad hbuf => ends (Dev.cowCopy_waits hs hu phase hbad hbuf),
      fun m hm hd => Dev.earlyBuf_next hm hd, fun hbad => ends (Dev.cowCopy_poison hs hu phase hbad)⟩
  · exact becomes_of_run (f := (·.snapDone x)) (fun _ => rfl) (Dev.snapDone_ok hs hm hack)
  · have writes : ∀ {f : Dev}, d.wRestore src w = f → Becomes (.restoreGo src w) d f := becomes_of_run (f := (·.wRestore src w)) fun _ => rfl
    exact ⟨fun idle => ⟨fun loaded => writes ((Dev.wRestore_go h ready go idle).trans (if_neg (not_not_intro loaded))),
      fun other => writes ((Dev.wRestore_go h ready go idle).trans (if_pos other))⟩, fun busy => writes (Dev.wRestore_busy h busy)⟩
  · exact becomes_of_run (f := Dev.restoreDone) (fun _ => rfl) (Dev.restoreDone_code hr ho h0 h2 h6)
  · exact becomes_of_run (f := Dev.restoreDone) (fun _ => rfl) (Dev.restoreDone_whole hr ho hregs)
  · exact becomes_of_run (f := fun d => if x < 8 then d.journalExport x else d) (fun _ => rfl)
      ((if_pos hx).trans (Dev.journalExport_ok ht hon hlt hsize idle hwin hcap hh hrec hfit hlen hg))

end Sys2Proof.Machine

namespace Sys2Proof.Machine

/-! ## The link layer of the Nonex ports (R593 to R601) -/

/-- A key that is put is found, in any table. -/
theorem mapFind_mapPut_some {α : Type} (m : SMap α) (k : Nat) (v : α) : mapFind (mapPut m k (some v)) k = some v := by
  induction m with
  | nil => rw [mapPut, mapFind, if_pos rfl]
  | cons e t ih =>
    rw [mapPut]
    by_cases hlt : k < e.1
    · rw [if_pos hlt, mapFind, if_pos rfl]
    · by_cases heq : k = e.1
      · rw [if_neg hlt, if_pos heq, mapFind, if_pos rfl]
      · rw [if_neg hlt, if_neg heq, mapFind, if_neg (Ne.symm heq), ih]

/-- A link state other than that of a port that is DOWN reads back. -/
theorem Dev.link_setLink (d : Dev) (n : Nat) {l : Link} (h : l ≠ {}) : (d.setLink n l).link n = l := by
  rw [Dev.link, Dev.setLink, mapGet, mapSet, if_neg h, mapFind_mapPut_some]
  rfl

section Frames

variable (d : Dev) (n : Nat)

/-- What a port's next superframe takes of the stream. -/
def Dev.nextTaken : Taken := takeUnits 0 (if (d.link n).cmds.isEmpty && d.portState n != 3 then 160 else 0) (d.link n).stream

/-- A port's next superframe. -/
def Dev.nextFrame : Frame :=
  { seq := (d.link n).txSeq, lw := (d.link n).word (d.nextTaken n).startAt (d.dueAt n)
    units := (d.nextTaken n).units ++ List.replicate (2560 - (d.nextTaken n).units.length) 0, ends := (d.nextTaken n).ends }

/-- The link state of a port that has sent its next superframe. -/
def Dev.sentLink : Link :=
  { d.link n with
    txSeq := ((d.link n).txSeq + 1) % 4096, stream := (d.nextTaken n).rest, replay := (d.link n).replay ++ [d.nextFrame n]
    cmds := (d.link n).cmds.drop 1, nakDue := false, ackSent := (d.link n).rxSeq }

/-- The credit that is still to be returned once a superframe has returned its part. -/
def Dev.dueAfter : SMap Nat :=
  (d.dueAt n).foldl (fun m (e : Nat × Nat) => mapSet (fun _ => 0) m e.1 (mapGet (fun _ => 0) m e.1 - e.2)) d.creditDue

variable {d n}

/-- With 512 superframes in its replay buffer a port sends none. -/
theorem Dev.sendFrame_full (h : 512 ≤ (d.link n).replay.length) : d.sendFrame n = d := if_pos h

theorem Dev.sendFrame_room (h : (d.link n).replay.length < 512) :
    d.sendFrame n = (({ d with creditDue := d.dueAfter n } : Dev).setLink n (d.sentLink n)).emit
      (.superframe n (d.nextFrame n).lw (d.nextFrame n).units) := if_neg (Nat.not_le.2 h)

theorem Dev.sendFrame_link (h : (d.link n).replay.length < 512) : (d.sendFrame n).link n = d.sentLink n := by
  rw [Dev.sendFrame_room h]
  refine Dev.link_setLink _ n fun reset => ?_
  have empty : (d.link n).replay ++ [d.nextFrame n] = [] := congrArg Link.replay reset
  exact List.cons_ne_nil _ _ (List.append_eq_nil_iff.1 empty).2

variable (d n)

/-- A superframe changes no register, and takes no time. -/
theorem Dev.sendFrame_csr : (d.sendFrame n).csr = d.csr ∧ (d.sendFrame n).time = d.time := by
  rw [Dev.sendFrame]
  split <;> exact ⟨rfl, rfl⟩

theorem Dev.linkCmd_csr (cmd arg : Nat) : (d.linkCmd n cmd arg).csr = d.csr ∧ (d.linkCmd n cmd arg).time = d.time :=
  Dev.sendFrame_csr _ n

theorem Dev.linkCmd_portState (cmd arg : Nat) : (d.linkCmd n cmd arg).portState n = d.portState n :=
  congrArg (fun m => fieldOf (mapGet csrReset m (Reg.FAB_P_STATUS n)) 0 3) (d.linkCmd_csr n cmd arg).1

theorem Dev.linkCmd_reg (cmd arg o : Nat) : (d.linkCmd n cmd arg).reg o = d.reg o :=
  congrArg (fun m => mapGet csrReset m o) (d.linkCmd_csr n cmd arg).1

theorem Dev.creditBack_csr (sel cnt : Nat) : (d.creditBack n sel cnt).csr = d.csr ∧ (d.creditBack n sel cnt).time = d.time := by
  rw [Dev.creditBack]
  split <;> exact ⟨rfl, rfl⟩

/-- Superframes sent again leave the replay buffer's contents unchanged. -/
theorem foldl_emit_out (fs : List Frame) (e : Dev) :
    (fs.foldl (fun e f => e.emit (.superframe n f.lw f.units)) e).out = e.out ++ fs.map fun f => Out.superframe n f.lw f.units := by
  induction fs generalizing e with
  | nil => exact (List.append_nil _).symm
  | cons f fs ih => exact (ih _).trans (List.append_assoc _ _ _)

theorem Dev.resend_out : (d.resend n).out = d.out ++ (d.link n).replay.map fun f => Out.superframe n f.lw f.units :=
  foldl_emit_out n (d.link n).replay d

theorem Dev.resend_keeps : (d.resend n).portState n = d.portState n ∧ (d.resend n).time = d.time := by
  have sent := foldl_keeps (fun e : Dev => (e.csr, e.time)) (f := fun (e : Dev) (f : Frame) => e.emit (.superframe n f.lw f.units))
    (fun _ _ => rfl) (d.link n).replay d
  refine ⟨?_, (Prod.mk.injEq .. ▸ sent).2⟩
  rw [Dev.resend, Dev.portState, Dev.addFld, Dev.fld_setFld_other _ _ _ _ _ _ (by rw [Reg.FAB_P_STATUS, Reg.FAB_P_RETRY]; omega)]
  exact congrArg (fun p => fieldOf (mapGet csrReset p (Reg.FAB_P_STATUS n)) 0 3) (Prod.mk.injEq .. ▸ sent).1

end Frames

section Word

variable (l : Link) (start : Nat) (due : List (Nat × Nat))

/-- The SEQ, ACK and NAK of a link word. -/
theorem Link.word_fields :
    bitsOf (l.word start due) 0 12 = l.txSeq % 4096 ∧ bitsOf (l.word start due) 12 12 = l.rxSeq % 4096 ∧
      bitsOf (l.word start due) 24 1 = l.nakDue.toNat := by
  have nak : l.nakDue.toNat < 2 := l.nakDue.toNat_lt
  rw [Link.word]
  generalize ((due[0]?).map creditWord).getD 0 = c0
  generalize ((due[1]?).map creditWord).getD 0 = c1
  generalize (l.cmds.headD (0, 0)).1 % 256 = b0
  generalize (l.cmds.headD (0, 0)).2 % 256 = b1
  simp only [bitsOf, Nat.shiftRight_eq_div_pow]
  refine ⟨?_, ?_, ?_⟩ <;> omega

end Word

section Pump

variable {d : Dev} {n : Nat}

/-- Units that fill no superframe wait. -/
theorem Dev.pump_waits (h : (d.link n).waiting < 160) : d.pump n = d := by
  rw [Dev.pump, Nat.div_eq_of_lt h, Dev.pumpGo]

/-- Units that fill one superframe leave in it. -/
theorem Dev.pump_one (h : 160 ≤ (d.link n).waiting) (h2 : (d.link n).waiting < 320) : d.pump n = d.sendFrame n := by
  have once : (d.link n).waiting / 160 = 1 := by omega
  rw [Dev.pump, once, Dev.pumpGo, if_pos h, Dev.pumpGo]

end Pump

section Receive

variable {d : Dev} {n lw : Nat} (hn : n < 32) (up : d.portState n = 2 ∨ d.portState n = 4)

/-- A port that runs and enters HOLD. -/
def Dev.holding (d e : Dev) (n : Nat) : Dev :=
  (e.setLink n { e.link n with admitted := d.portState n == 4, since := d.time.toNat }).setPort n 3

include up in
theorem Dev.hold_up {e : Dev} (hs : e.portState n = d.portState n) (ht : e.time = d.time) : e.hold n = d.holding e n := by
  have runs : (decide (d.portState n = 2) || decide (d.portState n = 4)) = true := by simpa only [Bool.or_eq_true, decide_eq_true_eq] using up
  rw [Dev.hold, hs, ht, if_pos runs, Dev.holding]

include up in
theorem Dev.holdBoth_up {e : Dev} (hs : e.portState n = d.portState n) (ht : e.time = d.time) :
    e.holdBoth n = d.holding (e.linkCmd n 1 0) n :=
  Dev.hold_up up ((e.linkCmd_portState n 1 0).trans hs) ((e.linkCmd_csr n 1 0).2.trans ht)

/-- The block once a superframe in sequence has acknowledged its part of the replay buffer. -/
def Dev.acked (d : Dev) (n lw resent : Nat) : Dev :=
  d.setLink n { d.link n with
    rxSeq := bitsOf lw 0 12, awaiting := false, replay := ackReplay (bitsOf lw 12 12) (d.link n).replay, resent := resent }

/-- The two credits that a link word returns. -/
def Dev.credited (d : Dev) (n lw : Nat) : Dev :=
  (d.creditBack n (bitsOf lw 33 5) (bitsOf lw 38 10)).creditBack n (bitsOf lw 48 5) (bitsOf lw 53 10)

theorem Dev.credited_csr (d : Dev) (n lw : Nat) : (d.credited n lw).csr = d.csr ∧ (d.credited n lw).time = d.time := by
  obtain ⟨csr1, time1⟩ := d.creditBack_csr n (bitsOf lw 33 5) (bitsOf lw 38 10)
  obtain ⟨csr2, time2⟩ := (d.creditBack n (bitsOf lw 33 5) (bitsOf lw 38 10)).creditBack_csr n (bitsOf lw 48 5) (bitsOf lw 53 10)
  exact ⟨csr2.trans csr1, time2.trans time1⟩

theorem Dev.credited_portState (d : Dev) (n lw : Nat) : (d.credited n lw).portState n = d.portState n :=
  congrArg (fun m => fieldOf (mapGet csrReset m (Reg.FAB_P_STATUS n)) 0 3) (d.credited_csr n lw).1

/-- How often the oldest superframe has been sent again, before this one's NAK. -/
def resentSoFar (l : Link) (lw : Nat) : Nat := if (ackReplay (bitsOf lw 12 12) l.replay).length < l.replay.length then 0 else l.resent

include hn up

theorem Dev.port_runs : (decide (32 ≤ n) || !(decide (d.portState n = 2) || decide (d.portState n = 4))) = false := by
  simp only [decide_eq_false (Nat.not_le.2 hn), Bool.false_or, Bool.not_eq_false', Bool.or_eq_true, decide_eq_true_eq, up]

/-- A superframe with an uncorrectable codeword is answered by a NAK. -/
theorem Dev.superframe_bad :
    d.superframe n lw true false = (((d.addFld (Reg.FAB_P_FEC n) 32 32 1).addFld (Reg.FAB_P_RETRY n) 0 32 1).setLink n
      { d.link n with awaiting := true, nakDue := true }).sendFrame n := by
  have runs := Dev.port_runs hn up
  simp only [Dev.superframe, runs, Bool.false_eq_true, if_false, if_true]

/-- One out of sequence is ignored. -/
theorem Dev.superframe_other (h : bitsOf lw 0 12 ≠ ((d.link n).rxSeq + 1) % 4096) : d.superframe n lw false false = d := by
  have runs := Dev.port_runs hn up
  simp only [Dev.superframe, runs, h, Bool.false_eq_true, if_false, if_true, ne_eq, not_false_iff]

variable (hseq : bitsOf lw 0 12 = ((d.link n).rxSeq + 1) % 4096)
include hseq

/-- The next in sequence, without NAK. -/
theorem Dev.superframe_ack (hnak : bitsOf lw 24 1 = 0) (few : resentSoFar (d.link n) lw < 8) :
    d.superframe n lw false false = ((d.acked n lw (resentSoFar (d.link n) lw)).credited n lw).pump n := by
  have runs := Dev.port_runs hn up
  have plain : (bitsOf lw 24 1 == 1) = false := by
    rw [hnak]
    rfl
  have calm : ¬ 8 ≤ resentSoFar (d.link n) lw := Nat.not_le.2 few
  rw [resentSoFar] at calm ⊢
  simp only [Dev.superframe, runs, hseq, plain, calm, Bool.false_eq_true, if_false, ne_eq, not_true, Bool.false_and]
  simp only [← hseq]
  rfl

/-- With NAK, the rest of the replay buffer leaves again. -/
theorem Dev.superframe_nak (hnak : bitsOf lw 24 1 = 1) (hrep : ackReplay (bitsOf lw 12 12) (d.link n).replay ≠ []) :
    d.superframe n lw false false =
      (let e := ((d.acked n lw (resentSoFar (d.link n) lw + 1)).resend n).credited n lw
       (if 8 ≤ resentSoFar (d.link n) lw + 1 then e.holdBoth n else e).pump n) := by
  have runs := Dev.port_runs hn up
  have nak : (bitsOf lw 24 1 == 1) = true := by
    rw [hnak]
    rfl
  rw [resentSoFar]
  simp only [Dev.superframe, runs, hseq, nak, hrep, Bool.false_eq_true, if_false, ne_eq, not_true, not_false_iff, decide_true, Bool.and_self, if_true]
  simp only [← hseq]
  rfl

theorem Dev.superframe_nak_few (hnak : bitsOf lw 24 1 = 1) (hrep : ackReplay (bitsOf lw 12 12) (d.link n).replay ≠ [])
    (few : resentSoFar (d.link n) lw < 7) :
    d.superframe n lw false false = (((d.acked n lw (resentSoFar (d.link n) lw + 1)).resend n).credited n lw).pump n := by
  rw [Dev.superframe_nak hn up hseq hnak hrep]
  dsimp only
  rw [if_neg (by omega)]

/-- The eighth time puts the port in HOLD. -/
theorem Dev.superframe_nak_eighth (hnak : bitsOf lw 24 1 = 1) (hrep : ackReplay (bitsOf lw 12 12) (d.link n).replay ≠ [])
    (seven : resentSoFar (d.link n) lw = 7) :
    d.superframe n lw false false = (d.holding ((((d.acked n lw 8).resend n).credited n lw).linkCmd n 1 0) n).pump n := by
  obtain ⟨hs, ht⟩ := (d.acked n lw 8).resend_keeps n
  have held := Dev.holdBoth_up up ((Dev.credited_portState _ n lw).trans hs) ((Dev.credited_csr _ n lw).2.trans ht)
  rw [Dev.superframe_nak hn up hseq hnak hrep]
  dsimp only
  rw [seven, if_pos (Nat.le_refl 8), held]

end Receive

/-- The log's entry touches no epoch of discovery. -/
theorem Dev.msix_disc (d : Dev) (fn vec : Nat) : (d.msix fn vec).disc = d.disc := by
  rw [Dev.msix]
  split
  · rfl
  · split <;> rfl

theorem Dev.log_disc (d : Dev) (cls code block : Nat) (ctx : Option Nat) (unit detail : Nat) :
    (d.log cls code block ctx unit detail).disc = d.disc := by
  rw [Dev.log_eq]
  exact (Dev.msix_disc _ 0 0).trans rfl

section Retrain

variable {d : Dev} {n j : Nat}

/-- A port that has retrained within the limit resumes from the last acknowledged superframe. -/
theorem Dev.resume_ok (hst : d.portState n = 3) (h : d.time.toNat ≤ (d.link n).since + d.holdLimit n) :
    d.resume n = ((d.setLink n { d.link n with resent := 0, awaiting := false, nakDue := false }).setPort n
      (if (d.link n).admitted && !d.bit Reg.AON_RAS_STATUS 19 then 4 else 2)).resend n := by
  simp only [Dev.resume, hst, h, decide_true, Bool.and_self, if_true, Dev.resumeState, Dev.fenced]
  rfl

theorem Dev.resume_late (h : (d.link n).since + d.holdLimit n < d.time.toNat) : d.resume n = d := by
  simp only [Dev.resume, decide_eq_false (Nat.not_le.2 h), Bool.and_false, Bool.false_eq_true, if_false]

/-- A lane pair that stands is removed at both ends; the first degrades the port, a second fails it. -/
theorem Dev.pairOff_ok (hj : j < 4) (run : (d.portState n = 2 ∨ d.portState n = 4) ∨ d.portState n = 3)
    (hb : d.bit (Reg.FAB_P_STATUS n) (4 + j) = false) :
    d.pairOff n j =
      (let e := d.linkCmd n 2 j
       if d.fld (Reg.FAB_P_STATUS n) 4 4 = 0 then ((e.setBit (Reg.FAB_P_STATUS n) (4 + j) true).rasSet (24 + n)).resume n
       else (e.setBit (Reg.FAB_P_STATUS n) (4 + j) true).portFail n) := by
  have hst := d.linkCmd_portState n 2 j
  have hreg := d.linkCmd_reg n 2 j (Reg.FAB_P_STATUS n)
  have runs : (!(decide (d.portState n = 2) || decide (d.portState n = 3) || decide (d.portState n = 4))) = false := by
    simp only [Bool.not_eq_false', Bool.or_eq_true, decide_eq_true_eq]
    omega
  have stands : (d.linkCmd n 2 j).bit (Reg.FAB_P_STATUS n) (4 + j) = false := by rw [Dev.bit, hreg, ← Dev.bit, hb]
  have pairs : (d.linkCmd n 2 j).fld (Reg.FAB_P_STATUS n) 4 4 = d.fld (Reg.FAB_P_STATUS n) 4 4 := by rw [Dev.fld, hreg, ← Dev.fld]
  simp only [Dev.pairOff, hb, Dev.dropPair, hst, runs, decide_eq_false (Nat.not_le.2 hj), stands, pairs, Bool.or_self, Bool.false_eq_true,
    if_false]
  exact ite_not ..

theorem Dev.pairOff_gone (hb : d.bit (Reg.FAB_P_STATUS n) (4 + j) = true) : d.pairOff n j = d := if_pos hb

theorem becomes_dropPair {e : Dev} (hj : j < 4) (run : (d.portState n = 2 ∨ d.portState n = 4) ∨ d.portState n = 3) (h : d.pairOff n j = e) :
    Becomes (.dropPair n j) d e := by
  refine becomes_of_run (f := fun d => if (d.portState n = 2 || d.portState n = 3 || d.portState n = 4) && decide (j < 4) then d.pairOff n j
    else d) (fun _ => rfl) ((if_pos ?_).trans h)
  simp only [Bool.and_eq_true, Bool.or_eq_true, decide_eq_true_eq]
  omega

theorem becomes_laneRetrainFail {e : Dev} (hj : j < 4) (hst : d.portState n = 3) (h : d.pairOff n j = e) : Becomes (.laneRetrainFail n j) d e :=
  becomes_of_run (f := fun d => if d.portState n = 3 && decide (j < 4) then d.pairOff n j else d) (fun _ => rfl)
    ((if_pos (by rw [hst, decide_eq_true hj]; rfl)).trans h)

/-- A bench port that fails waits for a swing while port 15 stands by, any other goes DOWN. -/
theorem Dev.portFail_waits (hn : n < 15) (hsw : d.bit Reg.FAB_SWING 12 = false) :
    d.portFail n = (d.setLink n { d.link n with admitted := false, since := d.time.toNat }).setPort n 5 := by
  simp only [Dev.portFail, hn, Dev.swung, hsw, decide_true, Bool.not_false, Bool.and_self, if_true]

theorem Dev.portFail_span (hn : 16 ≤ n) : d.portFail n = d.portDown n := by
  have far : ¬n < 15 := by omega
  simp only [Dev.portFail, far, Nat.not_lt.2 hn, decide_false, Bool.false_and, Bool.false_eq_true, if_false]

theorem becomes_holdTimeout {e : Dev} (hst : d.portState n = 3) (h : (d.link n).since + d.holdLimit n ≤ d.time.toNat) (he : d.portFail n = e) :
    Becomes (.holdTimeout n) d e :=
  becomes_of_run (f := fun d => if d.portState n = 3 && (d.link n).since + d.holdLimit n ≤ d.time.toNat then d.portFail n else d)
    (fun _ => rfl) ((if_pos (by rw [decide_eq_true hst, decide_eq_true h]; rfl)).trans he)

theorem becomes_swingWaitTimeout (hst : d.portState n = 5) (hne : d.swingNow ≠ some n)
    (h : (d.link n).since + d.fld Reg.FAB_TIMEOUT 0 16 * 1600 ≤ d.time.toNat) : Becomes (.swingWaitTimeout n) d (d.portDown n) :=
  becomes_of_run (f := fun d =>
    if d.portState n = 5 && d.swingNow != some n && (d.link n).since + d.fld Reg.FAB_TIMEOUT 0 16 * 1600 ≤ d.time.toNat then d.portDown n
    else d) (fun _ => rfl) (if_pos (by rw [decide_eq_true hst, bne_iff_ne.2 hne, decide_eq_true h]; rfl))

section Trained

variable (hon : d.portEnabled n = true) (hst : d.portState n ≤ 1) (ns minor : Nat)
include hon hst

/-- A trained port comes UP, unless its round trip or its protocol forbids it. -/
theorem Dev.trained_ok (h : ns ≤ 5000) :
    d.trained n ns 1 minor = (({ d.setFld (Reg.BUR_PROTO_MINOR (n / 8)) (8 * (n % 8)) 8 (min minor 0) with
      links := mapPut d.links n none } : Dev).setFld (Reg.FAB_P_STATUS n) 4 4 0).setPort n 2 := by
  simp only [Dev.trained, hon, Nat.not_lt.2 hst, Nat.not_lt.2 h, Bool.not_true, decide_false, Bool.or_self, Bool.false_eq_true, if_false, ne_eq,
    not_true]
  rfl

theorem Dev.trained_far (h : 5000 < ns) : d.trained n ns 1 minor = d := by
  simp only [Dev.trained, hon, Nat.not_lt.2 hst, h, Bool.not_true, decide_false, Bool.or_self, Bool.false_eq_true, if_false, ne_eq, not_true,
    if_true]

theorem Dev.trained_major {major : Nat} (h : major ≠ 1) :
    d.trained n ns major minor = d.log 9 3 8 none n (d.fld (Reg.FAB_P_PEER n) 0 16) := by
  simp only [Dev.trained, hon, Nat.not_lt.2 hst, h, Bool.not_true, decide_false, Bool.or_self, Bool.false_eq_true, if_false, ne_eq,
    not_false_iff, if_true]

end Trained

/-- A port that goes DOWN outside an epoch is DOWN. -/
theorem Dev.portDown_state (hwf : mapWf csrReset d.csr = true) (hdisc : d.disc = none) (hst : d.portState n ≠ 0) :
    (d.portDown n).portState n = 0 := by
  have ends : ∀ (e : Dev) (v : Nat), mapWf csrReset e.csr = true → e.disc = none →
      (((e.setPort n 0).log 9 1 8 none n v).discAbort n).portState n = 0 := fun e v wf hd => by
    have calm : ((e.setPort n 0).log 9 1 8 none n v).disc = none := (Dev.log_disc ..).trans hd
    rw [Dev.discAbort, calm]
    refine (congrArg (fieldOf · 0 3) (Dev.log_reg_other _ _ _ _ _ _ _ (.inr ?_))).trans (e.fld_setFld_same _ 0 wf (by decide))
    rw [Reg.FAB_P_STATUS]
    omega
  rw [Dev.portDown, if_neg hst]
  exact ends _ _ (Dev.setReg_csr_wf _ _ _ (d.setReg_csr_wf _ _ hwf)) hdisc

end Retrain

/-- Settles O48: each event of a port by the lemma of its case. -/
theorem linkLayer : Obligations.LinkLayer := by
  unfold Obligations.LinkLayer
  intro d n j lw hn hj
  have receives : ∀ {bad : Bool} {e : Dev}, d.superframe n lw bad false = e → Becomes (.superframeReceive n lw bad false) d e :=
    fun {bad} {e} => becomes_of_run (f := (·.superframe n lw bad false)) fun _ => rfl
  have resumes : ∀ {e : Dev}, d.resume n = e → Becomes (.laneRetrainDone n) d e := becomes_of_run (f := (·.resume n)) fun _ => rfl
  have trains : ∀ {ns major minor : Nat} {e : Dev}, d.trained n ns major minor = e → Becomes (.portTrainingDone n ns major minor) d e :=
    fun {ns major minor} {e} => becomes_of_run (f := (·.trained n ns major minor)) fun _ => rfl
  refine ⟨fun room => ?_, Dev.sendFrame_full, Dev.pump_waits, Dev.pump_one, d.resend_out n, fun up => receives (Dev.superframe_bad hn up),
    fun up hseq => ⟨fun hnak few => receives (Dev.superframe_ack hn up hseq hnak few), fun hnak hrep few => receives ?_,
      fun hnak hrep seven => receives ?_⟩,
    fun up hseq => receives (Dev.superframe_other hn up hseq), fun up => ⟨becomes_of_run (f := (·.hold n)) (fun _ => rfl) (Dev.hold_up up rfl rfl), ?_⟩,
    fun hst => ⟨fun h => resumes (Dev.resume_ok hst h), fun h => resumes (Dev.resume_late h)⟩,
    ⟨fun run hb => becomes_dropPair hj run (Dev.pairOff_ok hj run hb), fun run hb => becomes_dropPair hj run (Dev.pairOff_gone hb),
      fun hst hb => becomes_laneRetrainFail hj hst (Dev.pairOff_ok hj (.inr hst) hb)⟩,
    fun hst h => ⟨fun h15 hsw => becomes_holdTimeout hst h (Dev.portFail_waits h15 hsw), fun h16 => becomes_holdTimeout hst h (Dev.portFail_span h16)⟩,
    fun hst hne h => becomes_swingWaitTimeout hst hne h,
    fun hon hst => ⟨fun ns minor h => trains (Dev.trained_ok hon hst ns minor h), fun ns minor h => trains (Dev.trained_far hon hst ns minor h),
      fun ns major minor h => trains (Dev.trained_major hon hst ns minor h)⟩,
    fun hwf hdisc hst => Dev.portDown_state (d.csr_wf hwf) hdisc hst⟩
  · obtain ⟨seq, ack, nak⟩ := (d.link n).word_fields (d.nextTaken n).startAt (d.dueAt n)
    have link := Dev.sendFrame_link room
    refine ⟨(d.nextFrame n).lw, (d.nextFrame n).units, congrArg Dev.out (Dev.sendFrame_room room), seq, ack, nak, congrArg Link.txSeq link, ?_⟩
    exact (congrArg (·.replay.length) link).trans List.length_append
  · exact Dev.superframe_nak_few hn up hseq hnak hrep few
  · exact Dev.superframe_nak_eighth hn up hseq hnak hrep seven
  · refine becomes_of_run (f := fun d => if d.portState n = 2 || d.portState n = 4 then d.holdBoth n else d) (fun _ => rfl)
      ((if_pos ?_).trans (Dev.holdBoth_up up rfl rfl))
    simpa only [Bool.or_eq_true, decide_eq_true_eq] using up

end Sys2Proof.Machine

namespace Sys2Proof.Machine

/-! ## Port swing and discovery (R602, R603, R647 to R651) -/

section Swing

variable {d : Dev} {src : Master} {w : Word} {p : Nat}

section Writes

variable (h : d.refusal src Reg.FAB_SWING true = none)
include h

/-- A write of FAB_SWING with GO. -/
theorem becomes_swingGo {e : Dev} (he : d.swingGo (w ||| 0x10) = e) : Becomes (.swingGo src w) d e := by
  have go : bitOf (w ||| 0x10) 4 = true := by
    rw [bitOf, BitVec.getLsbD_or]
    exact Bool.or_true _
  refine becomes_of_run (f := (·.guard src Reg.FAB_SWING fun d => d.wSwing (w ||| 0x10))) (fun _ => rfl) ?_
  rw [d.guard_of_passes h, Dev.wSwing, if_pos go, he]

/-- One with RELEASE. -/
theorem becomes_swingRelease {e : Dev} (he : d.swingRelease ((w ||| 0x20) &&& ~~~ 0x10) = e) : Becomes (.swingRelease src w) d e := by
  have go : bitOf ((w ||| 0x20) &&& ~~~ 0x10) 4 = false := by
    rw [bitOf, BitVec.getLsbD_and]
    exact Bool.and_false _
  have release : bitOf ((w ||| 0x20) &&& ~~~ 0x10) 5 = true := by
    rw [bitOf, BitVec.getLsbD_and, BitVec.getLsbD_or]
    exact (Bool.and_true _).trans (Bool.or_true _)
  refine becomes_of_run (f := (·.guard src Reg.FAB_SWING fun d => d.wSwing ((w ||| 0x20) &&& ~~~ 0x10))) (fun _ => rfl) ?_
  rw [d.guard_of_passes h, Dev.wSwing, go, if_neg Bool.false_ne_true, if_pos release, he]

end Writes

/-- GO for a bench port that is DOWN or waits, while no swing is in force. -/
theorem Dev.swingGo_ok (hp : fieldOf w 0 4 = p) (hsw : d.bit Reg.FAB_SWING 12 = false) (idle : d.swingNow = none) (h14 : p ≤ 14)
    (hst : d.portState p = 5 ∨ d.portState p = 0) :
    d.swingGo w = (({ d.plainWrite Reg.FAB_SWING w with swingNow := some p } : Dev).swingState p).linkCmd 15 3 p := by
  have waits : (!(decide (d.portState p = 5) || decide (d.portState p = 0))) = false := by
    simp only [Bool.not_eq_false', Bool.or_eq_true, decide_eq_true_eq, hst]
  simp only [Dev.swingGo, hp, Dev.swung, hsw, idle, decide_eq_false (Nat.not_lt.2 h14), waits, Option.isSome_none, Bool.or_self, Bool.false_eq_true,
    if_false]

theorem Dev.swingGo_swung (hsw : d.bit Reg.FAB_SWING 12 = true) : d.swingGo w = d.logDiscard Reg.FAB_SWING := by
  simp only [Dev.swingGo, Dev.swung, hsw, Bool.true_or, if_true]

/-- The link state of a port that waits for the swing becomes that of port 15. -/
theorem Dev.swingState_link (hst : d.portState p = 5) (hrep : (d.link p).replay ≠ []) :
    (d.swingState p).link 15 = { d.link p with swing := false } := by
  have keeps : ∀ e : Dev, e.portState p = 5 → (e.setLink 15 (if e.portState p = 5 then { d.link p with swing := false } else {})).link 15 =
      { d.link p with swing := false } := fun e he => by
    rw [if_pos he]
    exact Dev.link_setLink e 15 fun reset => hrep (congrArg Link.replay reset)
  exact keeps { d with
    rtr := _, parked := _, mcast := _, combine := _, credit := _, creditDue := _, links := _ } hst

section Moves

variable (hp : d.swingNow = some p)
include hp

theorem Dev.swingMove_peer {arg : Nat} (h : arg + p = 14) : d.swingMove arg = d.setLink 15 { d.link 15 with swing := true } := by
  simp only [Dev.swingMove, hp, h, ne_eq, not_true, if_false]

theorem Dev.swingMove_other {arg : Nat} (h : arg + p ≠ 14) : d.swingMove arg = d := by
  simp only [Dev.swingMove, hp, h, ne_eq, not_false_iff, if_true]

/-- A swing completes once the peer has sent SWING. -/
theorem Dev.swingDone_waits (h : (d.link 15).swing = false) : d.swingDone = d := by
  simp only [Dev.swingDone, hp, h, Bool.not_false, if_true]

theorem Dev.swingDone_ok (h : (d.link 15).swing = true) :
    d.swingDone =
      (let e := ((({ d with swingNow := none } : Dev).setFld Reg.FAB_SWING 8 4 p).setBit Reg.FAB_SWING 12 true).rasSet 16
       let f := (e.setLink 15 { e.link 15 with swing := false }).setPort 15 (if d.fenced then 2 else 4)
       ((f.setPort p 0).log 9 2 8 none p (f.fld (Reg.FAB_P_PEER p) 0 16)).resend 15) := by
  simp only [Dev.swingDone, hp, h, Bool.not_true, Bool.false_eq_true, if_false]

end Moves

/-- RELEASE takes port 15 back once the replaced port is UP. -/
theorem Dev.swingRelease_ok (hsw : d.bit Reg.FAB_SWING 12 = true)
    (hst : d.portState (d.fld Reg.FAB_SWING 8 4) = 2 ∨ d.portState (d.fld Reg.FAB_SWING 8 4) = 4) :
    d.swingRelease w =
      (let f := ((d.plainWrite Reg.FAB_SWING w).setBit Reg.FAB_SWING 12 false).setBit Reg.AON_RAS_STATUS 16 false
       ({ f with rtr := f.rtr.map fun q => if q.outp = some 15 then q.unroute else q } : Dev).unadmit 15) := by
  have back : (!(decide (d.portState (d.fld Reg.FAB_SWING 8 4) = 2) || decide (d.portState (d.fld Reg.FAB_SWING 8 4) = 4))) = false := by
    simp only [Bool.not_eq_false', Bool.or_eq_true, decide_eq_true_eq, hst]
  simp only [Dev.swingRelease, Dev.swung, hsw, back, Bool.not_true, Bool.or_self, Bool.false_eq_true, if_false]

theorem Dev.swingRelease_refused
    (h : d.bit Reg.FAB_SWING 12 = false ∨ (d.portState (d.fld Reg.FAB_SWING 8 4) ≠ 2 ∧ d.portState (d.fld Reg.FAB_SWING 8 4) ≠ 4)) :
    d.swingRelease w = d.logDiscard Reg.FAB_SWING := by
  refine if_pos ?_
  simp only [Dev.swung, Bool.or_eq_true, Bool.not_eq_true', Bool.or_eq_false_iff, decide_eq_false_iff_not]
  exact h

end Swing

section Discovery

variable {d : Dev}

/-- The packets of an epoch: one waits at each port of the snapshot. -/
def Dev.discSend (f : Word) (epoch : Nat) (e : Dev) (n : Nat) : Dev :=
  let h : Hdr := { ty := 0x19, vc := 0, dst := fieldOf f 0 16, src := e.node, pkey := 0xFFFF, len := 1 }
  let pay := leBytes 2 e.node ++ leBytes 2 n ++ leBytes 4 epoch ++ leBytes 8 0
  { e with rtr := e.rtr ++ [{ hdr := h, pay := pay, at_ := e.time.toNat, outp := some n }] }

theorem discSends_rtr (f : Word) (epoch : Nat) (ps : List Nat) (e : Dev) :
    (ps.foldl (Dev.discSend f epoch) e).rtr.length = e.rtr.length + ps.length := by
  induction ps generalizing e with
  | nil => rfl
  | cons n ps ih =>
    have one : (Dev.discSend f epoch e n).rtr.length = e.rtr.length + 1 := List.length_append
    rw [List.foldl_cons, ih, one, List.length_cons]
    omega

/-- An epoch of the ports that are UP. -/
theorem Dev.discBegin_ports (epoch : Nat) (h : d.upPorts ≠ []) :
    (d.discBegin epoch).disc = some { epoch := epoch, ports := d.upPorts, since := d.time.toNat } ∧
      (d.discBegin epoch).rtr.length = d.rtr.length + d.upPorts.length := by
  have time := foldl_keeps Dev.time (f := Dev.discSend d.fresh.1 epoch) (fun _ _ => rfl) d.upPorts d.fresh.2
  have some_ : d.upPorts.isEmpty = false := List.isEmpty_eq_false_iff.2 h
  have begun : d.discBegin epoch =
      ({ d.upPorts.foldl (Dev.discSend d.fresh.1 epoch) d.fresh.2 with disc := some { epoch := epoch, ports := d.upPorts, since := d.time.toNat } } :
        Dev).setFld Reg.FAB_DISC_STATUS 0 2 1 := by
    exact (if_neg (Bool.eq_false_iff.1 some_)).trans (congrArg (fun t : Word =>
      ({ d.upPorts.foldl (Dev.discSend d.fresh.1 epoch) d.fresh.2 with disc := some { epoch := epoch, ports := d.upPorts, since := t.toNat } } :
        Dev).setFld Reg.FAB_DISC_STATUS 0 2 1) time)
  exact ⟨congrArg Dev.disc begun, (congrArg (·.rtr.length) begun).trans (discSends_rtr d.fresh.1 epoch d.upPorts d.fresh.2)⟩

/-- With no port UP the epoch is DONE at once. -/
theorem Dev.discBegin_none (epoch : Nat) (h : d.upPorts = []) :
    d.discBegin epoch =
      (({ d.fresh.2 with disc := none } : Dev).setFld Reg.FAB_DISC_STATUS 0 2 2).setFld Reg.FAB_DISC_STATUS 32 32 epoch := by
  have none_ : d.fresh.2.upPorts = [] := h
  rw [Dev.discBegin]
  dsimp only
  rw [none_]
  rfl

theorem Dev.plainWrite_rtr (o : Nat) (w : Word) : (d.plainWrite o w).rtr = d.rtr ∧ (d.plainWrite o w).time = d.time := by
  rw [Dev.plainWrite]
  split <;> exact ⟨rfl, rfl⟩

/-- Which ports are UP, where their status registers are as before. -/
theorem Dev.upPorts_congr {e : Dev} (h : ∀ n, e.reg (Reg.FAB_P_STATUS n) = d.reg (Reg.FAB_P_STATUS n)) : e.upPorts = d.upPorts := by
  have state : ∀ n, e.portState n = d.portState n := fun n => congrArg (fieldOf · 0 3) (h n)
  rw [Dev.upPorts, Dev.upPorts]
  simp only [state]

section Start

variable {src : Master} {w : Word} (h : d.refusal src Reg.FAB_DISC_CTRL true = none)
include h

theorem becomes_discStart {e : Dev} (he : d.wDisc (w ||| 0x100000000) = e) : Becomes (.discStart src w) d e :=
  becomes_of_run (f := (·.guard src Reg.FAB_DISC_CTRL fun d => d.wDisc (w ||| 0x100000000))) (fun _ => rfl) ((d.guard_of_passes h _).trans he)

omit h in
theorem bitOf_discStart (w : Word) : bitOf (w ||| 0x100000000) 32 = true := by
  rw [bitOf, BitVec.getLsbD_or]
  exact Bool.or_true _

omit h in
theorem Dev.wDisc_busy {k : Disc} (hk : d.disc = some k) : d.wDisc (w ||| 0x100000000) = d.logDiscard Reg.FAB_DISC_CTRL := by
  rw [Dev.wDisc, if_pos (bitOf_discStart w), hk]
  rfl

/-- The block as an epoch begins. -/
def Dev.discReady (d : Dev) (w : Word) : Dev :=
  (d.plainWrite Reg.FAB_DISC_CTRL (w ||| 0x100000000)).setFld Reg.FAB_DISC_STATUS 8 4 0

omit h in
theorem Dev.wDisc_begins (hk : d.disc = none) :
    d.wDisc (w ||| 0x100000000) = (d.discReady w).discBegin (fieldOf (w ||| 0x100000000) 0 32) := by
  rw [Dev.wDisc, if_pos (bitOf_discStart w), hk]
  rfl

omit h in
theorem Dev.discReady_upPorts : (d.discReady w).upPorts = d.upPorts := by
  refine Dev.upPorts_congr fun n => ?_
  rw [Dev.discReady, Dev.setFld, Dev.setReg_other _ _ _ _ (by rw [Reg.FAB_P_STATUS, Reg.FAB_DISC_STATUS]; omega),
    d.plainWrite_other _ (by rw [Reg.FAB_P_STATUS, Reg.FAB_DISC_CTRL]; omega)]

end Start

section Answers

variable {k : Disc} (hk : d.disc = some k)
include hk

theorem Dev.discTimeout_due (h : k.since + 160000 ≤ d.time.toNat) : d.discTimeout = d.discEnd k := by
  simp only [Dev.discTimeout, hk, h, if_true]

theorem Dev.discTimeout_early (h : d.time.toNat < k.since + 160000) : d.discTimeout = d := by
  simp only [Dev.discTimeout, hk, Nat.not_le.2 h, if_false]

/-- A first answer of a port of the epoch. -/
theorem Dev.discGot_new {n : Nat} {pay : Bytes} (he : atLe pay 4 4 = k.epoch) (hn : k.ports.contains n = true)
    (hfirst : (k.got.any fun g => g.1 == n) = false) :
    d.discGot n pay =
      (let got := k.got ++ [(n, atLe pay 0 2, atLe pay 2 1)]
       if got.length = k.ports.length then d.discEnd { k with got := got } else { d with disc := some { k with got := got } }) := by
  simp only [Dev.discGot, hk, he, hn, hfirst, ne_eq, not_true, decide_false, Bool.not_true, Bool.or_self, Bool.false_eq_true, if_false]

theorem Dev.discGot_stale {n : Nat} {pay : Bytes} (he : atLe pay 4 4 ≠ k.epoch) : d.discGot n pay = d := by
  simp only [Dev.discGot, hk, he, ne_eq, not_false_iff, decide_true, Bool.true_or, if_true]

end Answers

theorem Dev.freeRegion_disc (p : RPkt) : (d.freeRegion p).disc = d.disc := by
  rw [Dev.freeRegion]
  split <;> rfl

/-- A packet that its port takes, and whose key it passes. -/
theorem Dev.portCheck_ok {q : Packet} {ty : Nat} (h : d.takesAt q ty = true) (f : Dev → Dev) :
    (d.held q).hdr.ty = ty ∧ d.portCheck (d.held q) f = f d := by
  simp only [Dev.takesAt, Bool.and_eq_true, beq_iff_eq, decide_eq_true_eq] at h
  obtain ⟨⟨⟨hty, hport⟩, takes⟩, key⟩ := h
  have place : (d.held q).port = some q.port := rfl
  refine ⟨hty, ?_⟩
  simp only [Dev.portCheck, place, decide_eq_false (Nat.not_le.2 hport), takes, key, Bool.not_true, Bool.or_self, Bool.false_eq_true, if_false]

/-- A DISC that is taken leaves its input region, and is heard where it is sound. -/
theorem becomes_disc {q : Packet} {e : Dev} (h : d.takesAt q 0x19 = true) (hbad : (d.held q).bad = false) (hvc : q.vc = 0)
    (hh : (d.held q).hdr.vc = 0) (he : (d.freeRegion (d.held q)).discGot q.port (d.held q).pay = e) : Becomes (.disc q) d e := by
  obtain ⟨hty, checked⟩ := Dev.portCheck_ok h fun d => d.takeUp (arrive q d.time.toNat) fun d p =>
    if p.bad || q.vc ≠ 0 || p.hdr.vc ≠ 0 then d else d.discGot q.port p.pay
  have sound : ((d.held q).bad || decide (q.vc ≠ 0) || decide ((d.held q).hdr.vc ≠ 0)) = false := by
    simp only [hbad, hvc, hh, ne_eq, not_true, decide_false, Bool.or_self]
  exact becomes_of_run (f := (·.discIn q)) (fun _ => rfl)
    ((if_neg (not_not_intro hty)).trans (checked.trans ((if_neg (Bool.eq_false_iff.1 sound)).trans he)))

end Discovery

/-- Settles O49: each command by the lemma of its case. -/
theorem swingAndDiscovery : Obligations.SwingAndDiscovery := by
  unfold Obligations.SwingAndDiscovery
  intro d src w p
  refine ⟨fun h hp => ⟨fun hsw idle h14 hst => becomes_swingGo h (Dev.swingGo_ok hp hsw idle h14 hst),
      fun hsw => becomes_swingGo h (Dev.swingGo_swung hsw)⟩, ⟨rfl, rfl, Dev.swingState_link⟩, fun hp => ?_, fun hp hsw => ?_, fun h => ?_,
    fun h => ⟨fun hk hup => ?_, fun hk hup hwf => ?_, fun k hk => becomes_discStart h (Dev.wDisc_busy hk)⟩, fun k hk => ?_⟩
  · have moves : ∀ {arg : Nat} {e : Dev}, d.swingMove arg = e → Becomes (.swing arg) d e :=
      fun {arg} {e} => becomes_of_run (f := (·.swingMove arg)) fun _ => rfl
    exact ⟨fun arg h => moves (Dev.swingMove_peer hp h), fun arg h => moves (Dev.swingMove_other hp h),
      fun h => becomes_of_run (f := (·.swingDone)) (fun _ => rfl) (Dev.swingDone_waits hp h)⟩
  · exact becomes_of_run (f := (·.swingDone)) (fun _ => rfl) (Dev.swingDone_ok hp hsw)
  · exact ⟨fun hsw hst => becomes_swingRelease h (Dev.swingRelease_ok hsw hst), fun hno => becomes_swingRelease h (Dev.swingRelease_refused hno)⟩
  · have ready := d.discReady_upPorts (w := w)
    obtain ⟨disc, rtr⟩ := Dev.discBegin_ports (d := d.discReady w) (fieldOf (w ||| 0x100000000) 0 32) (fun h => hup (ready.symm.trans h))
    obtain ⟨sameRtr, sameTime⟩ := d.plainWrite_rtr Reg.FAB_DISC_CTRL (w ||| 0x100000000)
    refine ⟨_, becomes_discStart h (Dev.wDisc_begins hk), disc.trans ?_, rtr.trans ?_⟩
    · rw [ready]
      exact congrArg (fun t : Word => some ({ epoch := fieldOf (w ||| 0x100000000) 0 32, ports := d.upPorts, since := t.toNat } : Disc)) sameTime
    · rw [ready]
      exact congrArg (fun l : List RPkt => l.length + d.upPorts.length) sameRtr
  · have none_ := Dev.discBegin_none (d := d.discReady w) (fieldOf (w ||| 0x100000000) 0 32) (d.discReady_upPorts.trans hup)
    have wf1 : mapWf csrReset (d.discReady w).csr = true := Dev.setReg_csr_wf _ _ _ (d.plainWrite_csr_wf _ (d.csr_wf hwf))
    have done : ∀ (e : Dev) (v : Nat), mapWf csrReset e.csr = true →
        ((e.setFld Reg.FAB_DISC_STATUS 0 2 2).setFld Reg.FAB_DISC_STATUS 32 32 v).fld Reg.FAB_DISC_STATUS 0 2 = 2 := fun e v wf => by
      have wf2 : mapWf csrReset (e.setFld Reg.FAB_DISC_STATUS 0 2 2).csr = true := e.setReg_csr_wf _ _ wf
      rw [Dev.fld_setFld_beside _ wf2 _ _ (by decide) (.inl (by decide)), e.fld_setFld_same _ _ wf (by decide),
        Nat.mod_eq_of_lt (by decide)]
    exact ⟨_, becomes_discStart h ((Dev.wDisc_begins hk).trans none_), rfl, done _ _ wf1, (d.plainWrite_rtr _ _).1⟩
  · refine ⟨fun q h hbad hvc hh => ⟨fun he hn hfirst => ?_, fun he => ?_⟩, ?_, ?_, rfl⟩
    · have heard := Dev.discGot_new ((d.freeRegion_disc (d.held q)).trans hk) he hn hfirst
      exact ⟨fun more => becomes_disc h hbad hvc hh (heard.trans (if_neg more)), fun all_ => becomes_disc h hbad hvc hh (heard.trans (if_pos all_))⟩
    · exact becomes_disc h hbad hvc hh (Dev.discGot_stale ((Dev.freeRegion_disc _).trans hk) he)
    · exact fun due => becomes_of_run (f := (·.discTimeout)) (fun _ => rfl) (Dev.discTimeout_due hk due)
    · exact fun early => becomes_of_run (f := (·.discTimeout)) (fun _ => rfl) (Dev.discTimeout_early hk early)

end Sys2Proof.Machine

namespace Sys2Proof.Machine

/-! ## What the router does with a packet (R611 to R625, R641, R642) -/

section Forward

variable {d : Dev} {k far : Nat} {p : RPkt}

/-- The packets of the router do not matter to the input region that a packet leaves. -/
theorem Dev.freeRegion_rtr (d : Dev) (p : RPkt) (l : List RPkt) :
    { d.freeRegion p with rtr := l } = ({ d with rtr := l } : Dev).freeRegion p := by
  rw [Dev.freeRegion, Dev.freeRegion]
  split <;> rfl

section Routed

theorem single_of_rmode (hmode : p.hdr.rmode ≤ 1) : (decide (p.hdr.rmode = 3) || (decide (p.hdr.rmode = 2) && p.port.isNone)) = false := by
  rw [decide_eq_false (by omega), decide_eq_false (by omega)]
  rfl

variable (hp : d.rtr[k]? = some p) (hout : p.outp = none) (h19 : p.hdr.ty ≠ 0x19) (h1A : p.hdr.ty ≠ 0x1A) (hmode : p.hdr.rmode ≤ 1)
include hp hout h19 h1A hmode

/-- A packet that is not at an output: for this device, discarded, waiting, or routed. -/
theorem Dev.forward_here (hr : d.route p far = .here) :
    d.forward k far = (({ d with rtr := d.rtr.eraseIdx k } : Dev).freeRegion p).deliverHere { p with inReg := false } := by
  simp only [Dev.forward, hp, hout, h19, h1A, single_of_rmode hmode, hr, decide_false, Bool.or_self, Bool.false_eq_true, if_false]

theorem Dev.forward_drop {f : Nat} (hr : d.route p far = .drop f) :
    d.forward k far = (({ d with rtr := d.rtr.eraseIdx k } : Dev).freeRegion p).addFld Reg.FAB_DROP (16 * f) 16 1 := by
  simp only [Dev.forward, hp, hout, h19, h1A, single_of_rmode hmode, hr, decide_false, Bool.or_self, Bool.false_eq_true, if_false, Dev.dropCount]

theorem Dev.forward_wait (hr : d.route p far = .wait) : d.forward k far = d := by
  simp only [Dev.forward, hp, hout, h19, h1A, single_of_rmode hmode, hr, decide_false, Bool.or_self, Bool.false_eq_true, if_false]

theorem Dev.forward_out {n : Nat} {h : Hdr} (hr : d.route p far = .out n h) : d.forward k far = d.toOutput k n p h := by
  simp only [Dev.forward, hp, hout, h19, h1A, single_of_rmode hmode, hr, decide_false, Bool.or_self, Bool.false_eq_true, if_false]

end Routed

theorem Dev.route_here (h : p.hdr.dst = d.node) : d.route p far = .here := if_pos h

section Output

variable {n : Nat} {h : Hdr}

/-- A routed packet takes its output, or is merged into one that waits there. -/
theorem Dev.toOutput_takes (hm : ({ d with rtr := d.rtr.eraseIdx k } : Dev).tryCombine n { p with hdr := h } = none) :
    d.toOutput k n p h = { d with rtr := d.rtr.set k { p with hdr := h, outp := some n, was := some (p.hdr.esc, p.hdr.sub, p.hdr.hops) } } := by
  simp only [Dev.toOutput, hm]

theorem Dev.toOutput_merged {e : Dev} (hm : ({ d with rtr := d.rtr.eraseIdx k } : Dev).tryCombine n { p with hdr := h } = some e) :
    d.toOutput k n p h = e.freeRegion p := by
  simp only [Dev.toOutput, hm]

/-- A packet at an output that its port does not take waits, or is routed again. -/
theorem Dev.transmit_held (ht : d.portTakes n p.hdr = false) (hst : d.portState n = 3 ∨ d.portState n = 5) : d.transmit k n p = d := by
  have held : (decide (d.portState n = 3) || decide (d.portState n = 5)) = true := by
    simp only [Bool.or_eq_true, decide_eq_true_eq, hst]
  simp only [Dev.transmit, ht, held, Bool.not_false, if_true]

theorem Dev.transmit_lost (ht : d.portTakes n p.hdr = false) (h3 : d.portState n ≠ 3) (h5 : d.portState n ≠ 5) :
    d.transmit k n p = { d with rtr := d.rtr.set k p.unroute } := by
  simp only [Dev.transmit, ht, h3, h5, decide_false, Bool.or_self, Bool.false_eq_true, if_false, Bool.not_false, if_true]

variable (ht : d.portTakes n p.hdr = true)
include ht

/-- One whose key the port does not pass is discarded. -/
theorem Dev.transmit_key (hk : d.pkeyOk n p.hdr = false) :
    d.transmit k n p = (({ d with rtr := d.rtr.eraseIdx k } : Dev).freeRegion p).addFld Reg.FAB_DROP 0 16 1 := by
  simp only [Dev.transmit, ht, hk, d.freeRegion_rtr, Bool.not_true, Bool.not_false, Bool.false_eq_true, if_false, if_true, Dev.dropCount, Nat.mul_zero]

variable (hk : d.pkeyOk n p.hdr = true)
include hk

theorem Dev.transmit_waits (h : d.hasCredit n p.hdr = false ∨ d.outranked n p.hdr.vc = true ∨ 160 ≤ (d.link n).waiting) :
    d.transmit k n p = d := by
  have waits : (!d.hasCredit n p.hdr || d.outranked n p.hdr.vc || decide (160 ≤ (d.link n).waiting)) = true := by
    simp only [Bool.or_eq_true, Bool.not_eq_true', decide_eq_true_eq, or_assoc, h]
  simp only [Dev.transmit, ht, hk, waits, Bool.not_true, Bool.false_eq_true, if_false, if_true]

variable (hc : d.hasCredit n p.hdr = true) (ho : d.outranked n p.hdr.vc = false) (hw : (d.link n).waiting < 160)
include hc ho hw

/-- One that may leave, in its round or by its priority. -/
theorem Dev.transmit_leaves {m : SMap Nat} (hm : (if p.hdr.vc < 2 then some d.drr else d.drrServe n p) = some m) :
    d.transmit k n p =
      ((({ ({ d with rtr := d.rtr.eraseIdx k } : Dev).freeRegion p with drr := m } : Dev).setCredit n p.hdr.vc p.hdr.region
        (d.creditOf n p.hdr.vc p.hdr.region - p.hdr.wire)).setLink n
          { d.link n with stream := (d.link n).stream ++ [(false, p.bytes)] }).pump n := by
  simp only [Dev.transmit, ht, hk, hc, ho, decide_eq_false (Nat.not_le.2 hw), hm, Bool.not_true, Bool.or_self, Bool.false_eq_true,
    if_false]
  exact congrArg (fun g : Dev =>
    ((({ g with drr := m } : Dev).setCredit n p.hdr.vc p.hdr.region (d.creditOf n p.hdr.vc p.hdr.region - p.hdr.wire)).setLink n
      { d.link n with stream := (d.link n).stream ++ [(false, p.bytes)] }).pump n) (d.freeRegion_rtr p (d.rtr.eraseIdx k))

theorem Dev.transmit_unserved (hm : (if p.hdr.vc < 2 then some d.drr else d.drrServe n p) = none) : d.transmit k n p = d := by
  simp only [Dev.transmit, ht, hk, hc, ho, decide_eq_false (Nat.not_le.2 hw), hm, Bool.not_true, Bool.or_self, Bool.false_eq_true, if_false]

end Output

theorem Dev.forward_output {n : Nat} (hp : d.rtr[k]? = some p) (hout : p.outp = some n) : d.forward k far = d.transmit k n p := by
  simp only [Dev.forward, hp, hout]

/-- A combining entry ends after its time. -/
theorem becomes_combineEntryTimeout {c : Combine} {e : Dev} (hc : mapFind d.combine k = some c)
    (he : (if c.since + d.deadTime c.far ≤ d.time.toNat then { d with combine := mapPut d.combine k none } else d) = e) :
    Becomes (.combineEntryTimeout k) d e := by
  refine becomes_of_run (f := fun d =>
    match mapFind d.combine k with
    | none => d
    | some c => if c.since + d.deadTime c.far ≤ d.time.toNat then { d with combine := mapPut d.combine k none } else d) (fun _ => rfl) ?_
  rw [hc]
  exact he

/-- A parked packet without a buffer is performed where it stands. -/
theorem Dev.unpark_bare {q : Parked} (hq : d.parked[k]? = some q) (hb : q.buf = none) :
    d.unpark k = (({ d with parked := d.parked.eraseIdx k } : Dev).freeRegion q.pkt).deliverHere { q.pkt with inReg := false } := by
  simp only [Dev.unpark, hq, hb, Dev.takeUp]

end Forward

/-- Settles O50: a packet that is routed, one at its output, a combining entry and a parked packet. -/
theorem packetForwarding : Obligations.PacketForwarding := by
  unfold Obligations.PacketForwarding
  intro d k far p
  have moves : ∀ {e : Dev}, d.forward k far = e → Becomes (.packetForward k far) d e := becomes_of_run (f := (·.forward k far)) fun _ => rfl
  refine ⟨fun hp hout h19 h1A hmode => ?_, fun n hp hout => ?_, fun c hc => ⟨fun due => becomes_combineEntryTimeout hc (if_pos due),
    fun early => becomes_combineEntryTimeout hc (if_neg (Nat.not_le.2 early))⟩,
    fun q hq hb => becomes_of_run (f := (·.unpark k)) (fun _ => rfl) (Dev.unpark_bare hq hb)⟩
  · exact ⟨fun h => moves (Dev.forward_here hp hout h19 h1A hmode (Dev.route_here h)),
      fun f hr => moves (Dev.forward_drop hp hout h19 h1A hmode hr), fun hr => moves (Dev.forward_wait hp hout h19 h1A hmode hr),
      fun n h hr => ⟨fun hm => moves ((Dev.forward_out hp hout h19 h1A hmode hr).trans (Dev.toOutput_takes hm)),
        fun e hm => moves ((Dev.forward_out hp hout h19 h1A hmode hr).trans (Dev.toOutput_merged hm))⟩⟩
  · have sends : ∀ {e : Dev}, d.transmit k n p = e → Becomes (.packetForward k far) d e := fun h => moves ((Dev.forward_output hp hout).trans h)
    exact ⟨fun ht => ⟨fun hst => sends (Dev.transmit_held ht hst), fun h3 h5 => sends (Dev.transmit_lost ht h3 h5)⟩,
      fun ht => ⟨fun hk => sends (Dev.transmit_key ht hk), fun hk => ⟨fun h => sends (Dev.transmit_waits ht hk h), fun hc ho hw =>
        ⟨fun hv => sends (Dev.transmit_leaves ht hk hc ho hw (if_pos hv)),
          fun hv hs => sends (Dev.transmit_unserved ht hk hc ho hw ((if_neg (Nat.not_lt.2 hv)).trans hs)),
          fun m hv hs => sends (Dev.transmit_leaves ht hk hc ho hw ((if_neg (Nat.not_lt.2 hv)).trans hs))⟩⟩⟩⟩

/-! ## Inbound requests and answers (R625 to R630, R654, R655) -/

section Received

variable {d : Dev} {p : Packet} {ty : Nat}

/-- A packet for this device that is taken up as it arrives. -/
theorem Dev.receive_here (h : d.takesHere p ty = true) (here : Dev → RPkt → Nat → Dev) :
    (d.held p).hdr.ty = ty ∧ d.isMcAnswer (d.held p) = false ∧
      d.receive p ty here = here (d.freeRegion (d.held p)) { d.held p with inReg := false } p.vc := by
  simp only [Dev.takesHere, Bool.and_eq_true, decide_eq_true_eq, beq_iff_eq, Bool.not_eq_true'] at h
  obtain ⟨⟨⟨⟨takes, hmode⟩, hdst⟩, hpark⟩, hmc⟩ := h
  obtain ⟨hty, checked⟩ := Dev.portCheck_ok takes fun d =>
    if d.isMcAnswer (arrive p d.time.toNat) && !(arrive p d.time.toNat).bad then d.takeUp (arrive p d.time.toNat) fun d q => here d q p.vc
    else if (arrive p d.time.toNat).hdr.rmode = 3 then { d with rtr := d.rtr ++ [arrive p d.time.toNat] }
    else if (arrive p d.time.toNat).hdr.rmode = 2 || (arrive p d.time.toNat).hdr.dst = d.node then
      if p.park then d.park (arrive p d.time.toNat) p.vc else d.takeUp (arrive p d.time.toNat) fun d q => here d q p.vc
    else { d with rtr := d.rtr ++ [arrive p d.time.toNat] }
  have own : (d.isMcAnswer (d.held p) && !(d.held p).bad) = false := by rw [hmc, Bool.false_and]
  have mine : (decide ((d.held p).hdr.rmode = 2) || decide ((d.held p).hdr.dst = d.node)) = true := by
    rw [decide_eq_true hdst, Bool.or_true]
  have free : ¬p.park = true := Bool.eq_false_iff.1 hpark
  refine ⟨hty, hmc, (if_neg (not_not_intro hty)).trans (checked.trans ((if_neg (Bool.eq_false_iff.1 own)).trans ?_))⟩
  exact (if_neg (by rw [Dev.held] at hmode; omega)).trans ((if_pos mine).trans (if_neg free))

end Received

section Requests

variable {d : Dev} {p : RPkt} {vc x : Nat} {ps : List Piece}

/-- A request that a check turns away is answered by a NACK. -/
theorem Dev.inRequest_refused {code : Nat} (h : d.inCheck p vc = .error code) :
    d.inRequest p vc = (d.refuse p.hdr code).inject ((d.refuse p.hdr code).respHdr p.hdr 0xB 0 code) [] false := by
  simp only [Dev.inRequest, h, Dev.nackTo]

theorem Dev.inRequest_ok (h : d.inCheck p vc = .ok (x, ps)) : d.inRequest p vc = d.inPerform p x ps := by
  simp only [Dev.inRequest, h]

theorem Dev.inPerform_write (h : p.hdr.ty = 1) : d.inPerform p x ps =
    ((d.storeLosing p.lost x ps p.pay).syncOp x p.hdr.sop p.hdr.sync p.hdr.sval p.hdr.len).inject (d.respHdr p.hdr 8 0 0) [] false := by
  simp only [Dev.inPerform, h]

theorem Dev.inPerform_writeShort (h : p.hdr.ty = 2) : d.inPerform p x ps =
    ((d.storeLosing p.lost x ps (p.pay.take 8)).syncOp x p.hdr.sop p.hdr.sync p.hdr.sval p.hdr.len).inject (d.respHdr p.hdr 8 0 0) [] false := by
  simp only [Dev.inPerform, h]

theorem Dev.inPerform_read (h : p.hdr.ty = 3) : d.inPerform p x ps =
    (let g := d.hcPieces x ps true
     (g.syncOp x p.hdr.sop p.hdr.sync p.hdr.sval p.hdr.len).inject (g.respHdr p.hdr 9 p.hdr.len 0) (g.readPieces ps) (g.piecesPoisoned ps)) := by
  simp only [Dev.inPerform, h]

theorem Dev.inPerform_amo (h : p.hdr.ty = 4) : d.inPerform p x ps =
    (let e := (d.amoApply x p.hdr.aop p.hdr.asz ps p.pay).2.syncOp x p.hdr.sop p.hdr.sync p.hdr.sval p.hdr.len
     e.inject (e.respHdr p.hdr 8 0 0) [] false) := by
  simp only [Dev.inPerform, h, if_true]

theorem Dev.inPerform_amoFetch (h : p.hdr.ty = 5) : d.inPerform p x ps =
    (let r := d.amoApply x p.hdr.aop p.hdr.asz ps p.pay
     let e := r.2.syncOp x p.hdr.sop p.hdr.sync p.hdr.sval p.hdr.len
     e.inject (e.respHdr p.hdr 0xA 1 0) (leBytes 16 r.1) false) := by
  simp only [Dev.inPerform, h, (by decide : ¬(5 = 4)), if_false]

/-- The refusal codes of a request's head, in order. -/
theorem Dev.inCheck_head {code : Nat} (h : d.inHead p vc = .error code) : d.inCheck p vc = .error code := by
  simp only [Dev.inCheck, h]

theorem Dev.inHead_bad (h : p.bad = true) : d.inHead p vc = .error 1 := if_pos h

section Head

variable (hbad : p.bad = false) (hty : typeOk p.hdr vc = true)
include hbad hty

theorem Dev.inHead_none (h : d.ctxOfJob p.hdr.job = none) : d.inHead p vc = .error 3 := by
  simp only [Dev.inHead, hbad, hty, h, Bool.not_true, Bool.false_eq_true, if_false]

variable (hx : d.ctxOfJob p.hdr.job = some x)
include hx

theorem Dev.inHead_marked (h : d.bit (Reg.FAB_CTX_ID x) 32 = true) : d.inHead p vc = .error 5 := by
  simp only [Dev.inHead, hbad, hty, hx, h, Bool.not_true, Bool.false_eq_true, if_false, if_true]

variable (hmark : d.bit (Reg.FAB_CTX_ID x) 32 = false)
include hmark

theorem Dev.inHead_state (h : (d.ctx x).state.takesInbound = false) : d.inHead p vc = .error 4 := by
  simp only [Dev.inHead, hbad, hty, hx, hmark, h, Bool.not_true, Bool.not_false, Bool.false_eq_true, if_false, if_true]

theorem Dev.inHead_key (hs : (d.ctx x).state.takesInbound = true) (h : d.fld (Reg.FAB_CTX_ID x) 16 16 ≠ p.hdr.pkey) :
    d.inHead p vc = .error 6 := by
  simp only [Dev.inHead, hbad, hty, hx, hmark, hs, Dev.pkey, h, Bool.not_true, Bool.false_eq_true, if_false, ne_eq, not_false_iff, if_true]

end Head

end Requests

/-- Settles O52: a request is refused by its checks, or performed by its type. -/
theorem inboundRequests : Obligations.InboundRequests := by
  unfold Obligations.InboundRequests
  intro d p
  have ends : ∀ {c : Instr} {ty : Nat} {e : Dev}, (∀ s, exec c s = s.run (·.receive p ty Dev.inRequest)) → d.takesHere p ty = true →
      (d.freeRegion (d.held p)).inRequest { d.held p with inReg := false } p.vc = e → Becomes c d e :=
    fun hc h he => becomes_of_run hc ((Dev.receive_here h Dev.inRequest).2.2.trans he)
  have type_ : ∀ {ty : Nat}, d.takesHere p ty = true → (d.held p).hdr.ty = ty := fun h => (Dev.receive_here h Dev.inRequest).1
  refine ⟨fun h code hcode => ends (fun _ => rfl) h (Dev.inRequest_refused hcode), fun h code hcode => ends (fun _ => rfl) h (Dev.inRequest_refused hcode),
    fun h code hcode => ends (fun _ => rfl) h (Dev.inRequest_refused hcode), fun h code hcode => ends (fun _ => rfl) h (Dev.inRequest_refused hcode),
    fun h code hcode => ends (fun _ => rfl) h (Dev.inRequest_refused hcode), fun x ps hok => ?_, fun hbad => Dev.inCheck_head (Dev.inHead_bad hbad),
    fun hbad hty => ⟨fun hx => Dev.inCheck_head (Dev.inHead_none hbad hty hx), fun x hx => ⟨fun hm => Dev.inCheck_head (Dev.inHead_marked hbad hty hx hm),
      fun hm => ⟨fun hs => Dev.inCheck_head (Dev.inHead_state hbad hty hx hm ?_), fun hs hkey => Dev.inCheck_head (Dev.inHead_key hbad hty hx hm ?_ hkey)⟩⟩⟩⟩
  · exact ⟨fun h => ends (fun _ => rfl) h ((Dev.inRequest_ok hok).trans (Dev.inPerform_write (type_ h))),
      fun h => ends (fun _ => rfl) h ((Dev.inRequest_ok hok).trans (Dev.inPerform_writeShort (type_ h))),
      fun h => ends (fun _ => rfl) h ((Dev.inRequest_ok hok).trans (Dev.inPerform_read (type_ h))),
      fun h => ends (fun _ => rfl) h ((Dev.inRequest_ok hok).trans (Dev.inPerform_amo (type_ h))),
      fun h => ends (fun _ => rfl) h ((Dev.inRequest_ok hok).trans (Dev.inPerform_amoFetch (type_ h)))⟩
  · obtain h | h | h | h | h := hs <;> rw [h] <;> rfl
  · rw [hs]
    rfl

end Sys2Proof.Machine

namespace Sys2Proof.Machine

/-! ## Inbound answers and chunks (R127, R627, R654, R655, R684, R686) -/

/-- The region that a packet leaves is no part of what it answers. -/
theorem Dev.isMcAnswer_freed (d : Dev) (p : RPkt) : (d.freeRegion p).isMcAnswer { p with inReg := false } = d.isMcAnswer p := by
  rw [Dev.freeRegion]
  split <;> rfl

section Answers

variable {d : Dev} {k : Nat} {t : Tracker} {h : Hdr} {pay : Bytes} {poison : Bool} {lost : List (Nat × Nat)}

/-- An answer that names no transfer in flight is counted and discarded. -/
theorem Dev.ownResponse_none (hk : d.trkOf h.seq = none) : d.ownResponse h pay poison lost = d.addFld Reg.FAB_LATE 0 64 1 := by
  simp only [Dev.ownResponse, hk, Dev.late]

variable (hk : d.trkOf h.seq = some k) (ht : d.trk k = t)
include hk

/-- Where the timeout is due, it wins. -/
theorem Dev.ownResponse_due (hdue : d.trkDue k = true) : d.ownResponse h pay poison lost = d.trkTimeout k := by
  simp only [Dev.ownResponse, hk, hdue, if_true]

variable (hdue : d.trkDue k = false)
include hdue ht

/-- A master that has faulted discards it. -/
theorem Dev.ownResponse_faulted (hf : d.masterFaulted t = true) : d.ownResponse h pay poison lost = d.addFld Reg.FAB_LATE 0 64 1 := by
  simp only [Dev.ownResponse, hk, ht, hdue, hf, if_true, Bool.false_eq_true, if_false, Dev.late]

variable (hf : d.masterFaulted t = false)
include hf

theorem Dev.ownResponse_ack (hty : h.ty = 8) : d.ownResponse h pay poison lost =
    if t.rd || t.fetches then d.addFld Reg.FAB_LATE 0 64 1 else d.setTrk k { t with state := 3 } := by
  simp only [Dev.ownResponse, hk, ht, hdue, hf, hty, Bool.false_eq_true, if_false, Dev.late]

theorem Dev.ownResponse_nack (hty : h.ty = 0xB) : d.ownResponse h pay poison lost = d.failTrk k 0x53 (h.sval % 256 + h.src * 2 ^ 16) 0 := by
  simp only [Dev.ownResponse, hk, ht, hdue, hf, hty, Bool.false_eq_true, if_false]

theorem Dev.ownResponse_read (hty : h.ty = 9) : d.ownResponse h pay poison lost =
    if t.rd then d.respData k t pay poison lost else d.addFld Reg.FAB_LATE 0 64 1 := by
  simp only [Dev.ownResponse, hk, ht, hdue, hf, hty, Bool.false_eq_true, if_false, Dev.late]

theorem Dev.ownResponse_amo (hty : h.ty = 0xA) : d.ownResponse h pay poison lost =
    if t.fetches then d.respData k t pay poison lost else d.addFld Reg.FAB_LATE 0 64 1 := by
  simp only [Dev.ownResponse, hk, ht, hdue, hf, hty, Bool.false_eq_true, if_false, Dev.late]

omit hk hdue ht hf in
/-- Data is written with its sync operation. -/
theorem Dev.respData_ok {ps : List Piece} (hps : d.translate t.ctx .w t.dva pay.length = .ok ps)
    (hsync : d.syncRefused t.ctx t.rop t.robj = false) :
    d.respData k t pay false lost =
      ((d.storeLosing lost t.ctx ps pay).syncOp t.ctx t.rop t.robj t.rval t.length).setTrk k { t with state := 3 } := by
  simp only [Dev.respData, hps, hsync, Bool.false_eq_true, if_false]

end Answers

/-- An answer to this device's own transfers. -/
theorem Dev.inResponse_own {d : Dev} {p : RPkt} {vc : Nat} (hbad : p.bad = false) (hvc : vcLegal p.hdr.ty vc = true)
    (hproxy : p.hdr.proxy = 0) (hmc : d.isMcAnswer p = false) : d.inResponse p vc = d.ownResponse p.hdr p.pay p.poison p.lost := by
  have own : ¬p.hdr.proxy = 1 := by omega
  simp only [Dev.inResponse, hbad, hvc, hmc, own, Bool.not_true, Bool.or_self, Bool.false_eq_true, if_false]

section Chunks

variable {d : Dev} {p : RPkt} {vc x : Nat}

/-- The block once a chunk is staged, and acknowledged. -/
def Dev.stageChunk (d : Dev) (p : RPkt) (x : Nat) (b : Option Buf) : Dev :=
  let g : Dev := { d with staged := d.staged ++ [{ ctx := x, hdr := p.hdr, pay := p.pay, poison := p.poison, buf := b }] }
  g.inject (g.respHdr p.hdr 8 0 0) [] false

theorem Dev.inChunk_refused {code : Nat} (h : d.inHead p vc = .error code) :
    d.inChunk p vc = (d.refuse p.hdr code).inject ((d.refuse p.hdr code).respHdr p.hdr 0xB 0 code) [] false := by
  simp only [Dev.inChunk, h, Dev.nackTo]

variable (h : d.inHead p vc = .ok x)
include h

theorem Dev.inChunk_ctag (ht : d.ctagBad x p.hdr = true) :
    d.inChunk p vc = (d.refuse p.hdr 0xC).inject ((d.refuse p.hdr 0xC).respHdr p.hdr 0xB 0 0xC) [] false := by
  simp only [Dev.inChunk, h, ht, if_true, Dev.nackTo]

variable (ht : d.ctagBad x p.hdr = false)
include ht

/-- A chunk that needs no buffer is staged as it is. -/
theorem Dev.inChunk_bare (hb : p.pay = [] ∨ d.cabOn x vc = false) : d.inChunk p vc = d.stageChunk p x none := by
  have bare : (decide (p.pay.length = 0) || !d.cabOn x vc) = true := by
    obtain hp | ho := hb
    · rw [hp]
      rfl
    · rw [ho, Bool.not_false, Bool.or_true]
  simp only [Dev.inChunk, h, ht, bare, Bool.false_eq_true, if_false, if_true]
  rfl

section Buffered

variable (hpay : p.pay ≠ []) (hon : d.cabOn x vc = true)
include hpay hon

theorem Dev.inChunk_buffer {b : Buf} {e : Dev} (ha : d.cabAlloc x vc p.pay.length vc = (some b, e)) :
    d.inChunk p vc = (e.cabFill b p.pay).stageChunk p x (some b) := by
  have needs : (decide (p.pay.length = 0) || !d.cabOn x vc) = false := by
    rw [hon, decide_eq_false (mt List.length_eq_zero_iff.1 hpay)]
    rfl
  simp only [Dev.inChunk, h, ht, needs, ha, Bool.false_eq_true, if_false]
  rfl

/-- With no buffer free it waits. -/
theorem Dev.inChunk_parked {e : Dev} (ha : d.cabAlloc x vc p.pay.length vc = (none, e)) :
    d.inChunk p vc = { e with parked := e.parked ++ [{ buf := none, pkt := p }] } := by
  have needs : (decide (p.pay.length = 0) || !d.cabOn x vc) = false := by
    rw [hon, decide_eq_false (mt List.length_eq_zero_iff.1 hpay)]
    rfl
  simp only [Dev.inChunk, h, ht, needs, ha, Bool.false_eq_true, if_false]

end Buffered

end Chunks

section Both

variable {d : Dev} {p : Packet}

/-- A chunk, in either of its packet types. -/
theorem becomes_chunk {e : Dev} (he : (d.freeRegion (d.held p)).inChunk { d.held p with inReg := false } p.vc = e) :
    (d.takesHere p 0x10 = true → Becomes (.coll p) d e) ∧ (d.takesHere p 0x11 = true → Becomes (.collLl p) d e) :=
  ⟨fun h => becomes_of_run (f := (·.receive p 0x10 Dev.inChunk)) (fun _ => rfl) ((Dev.receive_here h Dev.inChunk).2.2.trans he),
    fun h => becomes_of_run (f := (·.receive p 0x11 Dev.inChunk)) (fun _ => rfl) ((Dev.receive_here h Dev.inChunk).2.2.trans he)⟩

variable (hbad : (d.held p).bad = false) (hvc : vcLegal (d.held p).hdr.ty p.vc = true) (hproxy : (d.held p).hdr.proxy = 0)
include hbad hvc hproxy

/-- An answer to one of this device's own transfers. -/
theorem becomes_answer {c : Instr} {ty : Nat} {e : Dev} (hc : ∀ s, exec c s = s.run (·.receive p ty Dev.inResponse)) (h : d.takesHere p ty = true)
    (he : (d.held p).hdr.ty = ty →
      (d.freeRegion (d.held p)).ownResponse (d.held p).hdr (d.held p).pay (d.held p).poison (d.held p).lost = e) : Becomes c d e := by
  obtain ⟨hty, hmc, received⟩ := Dev.receive_here h Dev.inResponse
  exact becomes_of_run hc (received.trans ((Dev.inResponse_own hbad hvc hproxy ((d.isMcAnswer_freed _).trans hmc)).trans (he hty)))

/-- One that has the same effect whatever its type. -/
theorem becomes_answers {e : Dev} (he : (d.freeRegion (d.held p)).ownResponse (d.held p).hdr (d.held p).pay (d.held p).poison (d.held p).lost = e) :
    (d.takesHere p 8 = true → Becomes (.ack p) d e) ∧ (d.takesHere p 9 = true → Becomes (.readResp p) d e) ∧
      (d.takesHere p 0xA = true → Becomes (.amoResp p) d e) ∧ (d.takesHere p 0xB = true → Becomes (.nack p) d e) :=
  ⟨fun h => becomes_answer hbad hvc hproxy (fun _ => rfl) h fun _ => he, fun h => becomes_answer hbad hvc hproxy (fun _ => rfl) h fun _ => he,
    fun h => becomes_answer hbad hvc hproxy (fun _ => rfl) h fun _ => he, fun h => becomes_answer hbad hvc hproxy (fun _ => rfl) h fun _ => he⟩

end Both

/-- Settles O53: an answer by the transfer it names, a chunk by its checks. -/
theorem inboundAnswers : Obligations.InboundAnswers := by
  unfold Obligations.InboundAnswers
  intro d p
  refine ⟨fun hbad hvc hproxy => ⟨fun hk => becomes_answers hbad hvc hproxy (Dev.ownResponse_none hk), fun k hk => ?_⟩,
    fun code hcode => becomes_chunk (Dev.inChunk_refused hcode), fun x hx ht => becomes_chunk (Dev.inChunk_ctag hx ht), fun x hx ht =>
      ⟨fun hb => becomes_chunk (Dev.inChunk_bare hx ht hb), fun hpay hon => ⟨fun b e ha => becomes_chunk (Dev.inChunk_buffer hx ht hpay hon ha),
        fun e ha => becomes_chunk (Dev.inChunk_parked hx ht hpay hon ha)⟩⟩⟩
  refine ⟨fun hdue => becomes_answers hbad hvc hproxy (Dev.ownResponse_due hk hdue),
    fun hdue hf => becomes_answers hbad hvc hproxy (Dev.ownResponse_faulted hk rfl hdue hf), fun hdue hf => ?_⟩
  have ends : ∀ {c : Instr} {ty : Nat} {e : Dev}, (∀ s, exec c s = s.run (·.receive p ty Dev.inResponse)) → d.takesHere p ty = true → _ → _ :=
    fun {c} {ty} {e} hc h he => becomes_answer (c := c) (ty := ty) (e := e) hbad hvc hproxy hc h he
  refine ⟨fun h => ⟨fun hrd hfetch => ends (fun _ => rfl) h fun hty => (Dev.ownResponse_ack hk rfl hdue hf hty).trans (if_neg ?_),
      fun hdata => ends (fun _ => rfl) h fun hty => (Dev.ownResponse_ack hk rfl hdue hf hty).trans (if_pos ?_)⟩,
    fun h => ends (fun _ => rfl) h fun hty => Dev.ownResponse_nack hk rfl hdue hf hty,
    fun h hrd => ends (fun _ => rfl) h fun hty => (Dev.ownResponse_read hk rfl hdue hf hty).trans (if_neg (Bool.eq_false_iff.1 hrd)),
    fun h hfetch => ends (fun _ => rfl) h fun hty => (Dev.ownResponse_amo hk rfl hdue hf hty).trans (if_neg (Bool.eq_false_iff.1 hfetch)),
    fun ps hps hpoison hsync => ⟨fun h hrd => ends (fun _ => rfl) h fun hty => (Dev.ownResponse_read hk rfl hdue hf hty).trans ((if_pos hrd).trans ?_),
      fun h hfetch => ends (fun _ => rfl) h fun hty => (Dev.ownResponse_amo hk rfl hdue hf hty).trans ((if_pos hfetch).trans ?_)⟩⟩
  · rw [hrd, hfetch]
    exact Bool.false_ne_true
  · exact Bool.or_eq_true_iff.2 hdata
  · rw [hpoison]
    exact Dev.respData_ok hps hsync
  · rw [hpoison]
    exact Dev.respData_ok hps hsync

end Sys2Proof.Machine

namespace Sys2Proof.Machine

/-! ## The time base (R705 to R707) -/

section TimeBase

variable {d : Dev}

/-- The block as an exchange begins. -/
def Dev.exchangeBegun (d : Dev) : Dev :=
  { d with trs := { d.trs with sent := some d.time.toNat, intv := d.fld Reg.TRS_CFG 8 24, port := d.fld Reg.TRS_CFG 1 5, last := some d.time.toNat } }

/-- An exchange that is due begins, with a packet to the parent's port where that is up. -/
theorem Dev.timeBegin_due (hl : d.hubLocked = true) (hm : d.bit Reg.TRS_CFG 0 = false) (hs : d.trs.sent = none)
    (hdue : ∀ t, d.trs.last = some t → t + d.trs.intv ≤ d.time.toNat) :
    d.timeBegin = if d.portState (d.fld Reg.TRS_CFG 1 5) = 2 || d.portState (d.fld Reg.TRS_CFG 1 5) = 4 then
      d.exchangeBegun.sendTime (d.fld Reg.TRS_CFG 1 5) [d.time.toNat] else d.exchangeBegun := by
  rw [Dev.timeBegin]
  refine (if_neg (Bool.eq_false_iff.1 ?_)).trans rfl
  rw [hl, hm, hs]
  cases last : d.trs.last with
  | none => rfl
  | some t =>
    dsimp only
    rw [decide_eq_true (hdue t last)]
    rfl

theorem Dev.timeBegin_early {t : Nat} (hlast : d.trs.last = some t) (h : d.time.toNat < t + d.trs.intv) : d.timeBegin = d := by
  simp only [Dev.timeBegin, hlast, decide_eq_false (Nat.not_le.2 h), Bool.not_false, Bool.or_true, if_true]

theorem Dev.freeRegion_trs (p : RPkt) : (d.freeRegion p).trs = d.trs := by
  rw [Dev.freeRegion]
  split <;> rfl

/-- A TIME packet that is taken leaves its input region, and is heard where it is sound. -/
theorem becomes_time {p : Packet} {e : Dev} (h : d.takesAt p 0x1A = true) (hbad : (d.held p).bad = false) (hvc : p.vc = 7)
    (hh : (d.held p).hdr.vc = 7)
    (he : (if (d.held p).hdr.len = 1 then (d.freeRegion (d.held p)).sendTime p.port [atLe (d.held p).pay 0 8, d.time.toNat, d.time.toNat]
      else if (d.freeRegion (d.held p)).trs.sent = some (atLe (d.held p).pay 0 8) && (d.freeRegion (d.held p)).trs.port = p.port then
        (d.freeRegion (d.held p)).timeReply (atLe (d.held p).pay 0 8) (atLe (d.held p).pay 8 8) (atLe (d.held p).pay 16 8) d.time.toNat
      else d.freeRegion (d.held p)) = e) : Becomes (.time p) d e := by
  obtain ⟨hty, checked⟩ := Dev.portCheck_ok h fun e => e.takeUp (arrive p d.time.toNat) fun e q =>
    if q.bad || p.vc ≠ 7 || q.hdr.vc ≠ 7 then e
    else if q.hdr.len = 1 then e.sendTime p.port [atLe q.pay 0 8, d.time.toNat, d.time.toNat]
    else if e.trs.sent = some (atLe q.pay 0 8) && e.trs.port = p.port then
      e.timeReply (atLe q.pay 0 8) (atLe q.pay 8 8) (atLe q.pay 16 8) d.time.toNat
    else e
  have sound : ((d.held p).bad || decide (p.vc ≠ 7) || decide ((d.held p).hdr.vc ≠ 7)) = false := by
    simp only [hbad, hvc, hh, ne_eq, not_true, decide_false, Bool.or_self]
  exact becomes_of_run (f := (·.timeGot p)) (fun _ => rfl)
    ((if_neg (not_not_intro hty)).trans (checked.trans ((if_neg (Bool.eq_false_iff.1 sound)).trans he)))

/-- An offset of an UNSYNCED device that no context steps on is taken at once, forward and once; any other is absorbed. -/
theorem Dev.applyOffset_step {off : Int} (hs : d.fld Reg.TRS_SYNC 0 2 = 0) (hstep : d.stepping = false) (honce : d.trs.stepped = false)
    (hpos : 0 < off) :
    d.applyOffset off = { d with time := d.time + BitVec.ofInt 64 off, trs := { d.trs with stepped := true, slew := 0 } } := by
  simp only [Dev.applyOffset, Dev.syncState, hs, hstep, honce, hpos, decide_true, Bool.not_false, Bool.and_self, if_true]

theorem Dev.applyOffset_slew {off : Int} (h : off ≤ 0 ∨ d.stepping = true) : d.applyOffset off = { d with trs := { d.trs with slew := off } } := by
  refine if_neg ?_
  simp only [Bool.and_eq_true, decide_eq_true_eq, Bool.not_eq_true']
  rintro ⟨⟨⟨-, hstep⟩, -⟩, hpos⟩
  obtain hneg | hyes := h
  · omega
  · rw [hstep] at hyes
    cases hyes

section Missed

variable {t : Nat} (hs : d.trs.sent = some t) (h : t + d.trs.intv ≤ d.time.toNat) {e : Dev}
  (he : ({ d with trs := { d.trs with sent := none, good := 0 } } : Dev).addFld Reg.TRS_SYNC 32 16 1 = e)
include hs h he

/-- An exchange without a reply is missed; 16 in a row put a LOCKED device in HOLDOVER. -/
theorem Dev.timeMissed_holdover (hl : e.fld Reg.TRS_SYNC 0 2 = 1) (hm : 16 ≤ e.fld Reg.TRS_SYNC 32 16) : d.timeMissed = e.setSync 2 := by
  simp only [Dev.timeMissed, hs, h, he, Dev.syncState, hl, hm, decide_true, Bool.and_self, if_true]

theorem Dev.timeMissed_few (hm : e.fld Reg.TRS_SYNC 32 16 < 16) : d.timeMissed = e := by
  simp only [Dev.timeMissed, hs, h, he, decide_eq_false (Nat.not_le.2 hm), Bool.and_false, Bool.false_eq_true, if_false, if_true]

end Missed

theorem Dev.timeMissed_none (hs : d.trs.sent = none) : d.timeMissed = d := by
  simp only [Dev.timeMissed, hs]

end TimeBase

/-- Settles O55: each event of an exchange by the lemma of its case. -/
theorem timeExchanges : Obligations.TimeExchanges := by
  unfold Obligations.TimeExchanges
  intro d
  have begins : ∀ {e : Dev}, d.timeBegin = e → Becomes .trestleExchange d e := becomes_of_run (f := (·.timeBegin)) fun _ => rfl
  have misses : ∀ {e : Dev}, d.timeMissed = e → Becomes .timeExchangeMissed d e := becomes_of_run (f := (·.timeMissed)) fun _ => rfl
  refine ⟨fun hl hm hs hdue => ⟨fun hup => begins ((Dev.timeBegin_due hl hm hs hdue).trans (if_pos ?_)),
      fun h2 h4 => begins ((Dev.timeBegin_due hl hm hs hdue).trans (if_neg ?_))⟩,
    fun t hlast h => begins (Dev.timeBegin_early hlast h), fun p h hbad hvc hh => ⟨fun hlen => becomes_time h hbad hvc hh (if_pos hlen),
      fun hlen hsent hport => becomes_time h hbad hvc hh ((if_neg hlen).trans (if_pos ?_)),
      fun hlen hsent => becomes_time h hbad hvc hh ((if_neg hlen).trans (if_neg ?_))⟩,
    fun off => ⟨Dev.applyOffset_step, Dev.applyOffset_slew⟩,
    fun t hs h => ⟨fun hl hm => misses (Dev.timeMissed_holdover hs h rfl hl hm), fun hm => misses (Dev.timeMissed_few hs h rfl hm)⟩,
    fun hs => misses (Dev.timeMissed_none hs)⟩
  · simpa only [Bool.or_eq_true, decide_eq_true_eq] using hup
  · simp only [Bool.or_eq_true, decide_eq_true_eq, h2, h4, or_self, not_false_iff]
  · rw [Dev.freeRegion_trs, decide_eq_true hsent, decide_eq_true hport]
    rfl
  · rw [Dev.freeRegion_trs, decide_eq_false hsent, Bool.false_and]
    exact Bool.false_ne_true

/-! ## The host interface (R793 to R801) -/

section PfBar

variable {d : Dev} (hon : d.domOn 24 = true) {off n : Nat}
include hon

theorem Dev.pfBar2_open {wr : Option Bytes} (hfit : off + accessLen wr n ≤ 64 * 2 ^ 30) :
    (!d.hostOn || decide (64 * 2 ^ 30 < off + accessLen wr n)) = false := by
  rw [Dev.hostOn, hon, decide_eq_false (Nat.not_lt.2 hfit)]
  rfl

/-- A write through PF BAR2, and one to an address that it does not reach. -/
theorem Dev.pfBar2_write {bs : Bytes} (hfit : off + bs.length ≤ 64 * 2 ^ 30) :
    d.pfBar2 off n (some bs) =
      if d.pfReaches (d.pfAt off) bs.length then d.hubWrite (d.pfAt off) bs else d.log 1 5 0xFF none 0 (d.pfAt off) :=
  if_neg (Bool.eq_false_iff.1 (Dev.pfBar2_open hon (wr := some bs) hfit))

theorem Dev.pfBar2_read (hfit : off + n ≤ 64 * 2 ^ 30) :
    d.pfBar2 off n none =
      if d.pfReaches (d.pfAt off) n then ((d.softRead (d.pfAt off) n).2.hcTouch 0 (d.pfAt off) n false).emit (.bar 0 (some (d.softRead (d.pfAt off) n).1))
      else (d.log 1 5 0xFF none 0 (d.pfAt off)).emit (.bar 0 none) :=
  if_neg (Bool.eq_false_iff.1 (Dev.pfBar2_open hon (wr := none) hfit))

omit hon in
/-- A read of bytes without an error. -/
theorem Dev.softRead_clean {a : Nat} (h : d.poisoned a n = false) : d.softRead a n = (d.read a n, d) := by
  rw [Dev.softRead, h, if_neg Bool.false_ne_true]

end PfBar

section VfBar

variable {d : Dev} {n off x : Nat}

/-- An unbound VF reads zeros and writes nothing. -/
theorem Dev.vfRead_unbound (h : d.vfCtx n = none) : d.vfRead n off = d.emit (.bar n (some (leBytes 8 0))) := by
  simp only [Dev.vfRead, h]
  rfl

theorem Dev.vfWrite_unbound (w : Word) (h : d.vfCtx n = none) : d.vfWrite n off w = d := by
  simp only [Dev.vfWrite, h]

section Bound

variable (h : d.vfCtx n = some x)
include h

/-- A bound one reads and writes the registers of its context's view. -/
theorem Dev.vfRead_reg {r : Nat} (hr : vfReg x off = some r) (hne : r ≠ Reg.AON_POWER) (hp : d.refusal .host r false = none) :
    d.vfRead n off = d.emit (.bar n (some (leBytes 8 (d.readReg r).toNat))) := by
  simp only [Dev.vfRead, h, hr, Dev.csrRead, hp, hne, if_false]

theorem Dev.vfRead_other (hr : vfReg x off = none) :
    d.vfRead n off = (d.log 1 5 0xFF none 0 off).emit (.bar n (some (leBytes 8 0))) := by
  simp only [Dev.vfRead, h, hr]
  rfl

theorem Dev.vfWrite_other (w : Word) (hr : vfReg x off = none) (h20 : off ≠ 0x20) (h30 : off ≠ 0x30) :
    d.vfWrite n off w = d.log 1 5 0xFF none 0 off := by
  simp only [Dev.vfWrite, h, hr, h20, h30, Option.isSome_none, Bool.false_eq_true, if_false, Dev.logHost]

theorem Dev.vfWrite_ctrl (w : Word) : d.vfWrite n 0x30 w = d.wCtxCtrl .host x w := by
  simp only [Dev.vfWrite, h, (by decide : ¬(0x30 = 0x20)), if_false, if_true]

end Bound

variable (hon : d.domOn 24 = true) (h1 : 1 ≤ n) (h8 : n ≤ 8)
include hon h1 h8

theorem becomes_vfBar0Read {e : Dev} (ho : off < 0x10000) (he : d.vfRead n off = e) : Becomes (.vfBar0Access n off none) d e := by
  refine becomes_of_run (f := fun d => if n = 0 || 8 < n || 0x10000 ≤ off || !d.hostOn then d else d.vfRead n off) (fun _ => rfl)
    ((if_neg (Bool.eq_false_iff.1 ?_)).trans he)
  rw [Dev.hostOn, hon, decide_eq_false (by omega), decide_eq_false (by omega), decide_eq_false (by omega)]
  rfl

theorem becomes_vfBar0Write {w : Word} {e : Dev} (ho : off < 0x10000) (he : d.vfWrite n off w = e) :
    Becomes (.vfBar0Access n off (some w)) d e := by
  refine becomes_of_run (f := fun d => if n = 0 || 8 < n || 0x10000 ≤ off || !d.hostOn then d else d.vfWrite n off w) (fun _ => rfl)
    ((if_neg (Bool.eq_false_iff.1 ?_)).trans he)
  rw [Dev.hostOn, hon, decide_eq_false (by omega), decide_eq_false (by omega), decide_eq_false (by omega)]
  rfl

theorem becomes_vfBar2 {len : Nat} {wr : Option Bytes} {e : Dev} (hfit : off + accessLen wr len ≤ 2 ^ 34) (he : d.vfBar2 n off len wr = e) :
    Becomes (.vfBar2Access n off len wr) d e := by
  refine becomes_of_run (f := fun d => if n = 0 || 8 < n || 2 ^ 34 < off + accessLen wr len || !d.hostOn then d else d.vfBar2 n off len wr)
    (fun _ => rfl) ((if_neg (Bool.eq_false_iff.1 ?_)).trans he)
  rw [Dev.hostOn, hon, decide_eq_false (by omega), decide_eq_false (by omega), decide_eq_false (Nat.not_lt.2 hfit)]
  rfl

end VfBar

section HubCache

variable (d : Dev)

/-- What the hub cache looks up changes no byte and no mark of memory. -/
theorem Dev.hcLook_mem (x line : Nat) (alloc : Bool) : (d.hcLook x line alloc).mem = d.mem ∧ (d.hcLook x line alloc).poison = d.poison := by
  rw [Dev.hcLook]
  split
  · exact ⟨rfl, rfl⟩
  · dsimp only
    split <;> exact ⟨rfl, rfl⟩

theorem Dev.hcTouch_mem (x a n : Nat) (alloc : Bool) : (d.hcTouch x a n alloc).mem = d.mem ∧ (d.hcTouch x a n alloc).poison = d.poison := by
  rw [Dev.hcTouch]
  split
  · exact ⟨rfl, rfl⟩
  · exact ⟨foldl_keeps Dev.mem (fun e l => (e.hcLook_mem x l alloc).1) _ d, foldl_keeps Dev.poison (fun e l => (e.hcLook_mem x l alloc).2) _ d⟩

theorem Dev.hcPieces_mem (x : Nat) (ps : List Piece) (alloc : Bool) :
    (d.hcPieces x ps alloc).mem = d.mem ∧ (d.hcPieces x ps alloc).poison = d.poison :=
  ⟨foldl_keeps Dev.mem (f := fun (e : Dev) (p : Piece) => e.hcTouch x p.pa p.len alloc) (fun e p => (e.hcTouch_mem x p.pa p.len alloc).1) ps d,
    foldl_keeps Dev.poison (f := fun (e : Dev) (p : Piece) => e.hcTouch x p.pa p.len alloc) (fun e p => (e.hcTouch_mem x p.pa p.len alloc).2) ps d⟩

end HubCache

section VfBar2

variable {d : Dev} {n off len x : Nat} {bs : Bytes} {ps : List Piece}

/-- The context window of a VF reaches its context's memory through translation. -/
theorem Dev.vfBar2_write {va : Nat} (hva : d.vfAt n off = va) (h : d.vfCtx n = some x) (hps : d.translate x .w va bs.length = .ok ps) :
    d.vfBar2 n off len (some bs) = (d.writePieces x ps bs).hcPieces x ps false := by
  delta Dev.vfBar2
  rw [hva, h]
  dsimp only
  rw [hps]

theorem Dev.vfBar2_refused {va : Nat} {e : Nat × Nat} (hva : d.vfAt n off = va) (h : d.vfCtx n = some x)
    (he : d.translate x .w va bs.length = .error e) : d.vfBar2 n off len (some bs) = d.log 1 5 0xFF none 0 va := by
  delta Dev.vfBar2
  rw [hva, h]
  dsimp only
  rw [he]
  rfl

theorem Dev.vfBar2_read {va : Nat} (hva : d.vfAt n off = va) (h : d.vfCtx n = some x) (hps : d.translate x .r va len = .ok ps)
    (clean : d.piecesPoisoned ps = false) : d.vfBar2 n off len none = (d.hcPieces x ps true).emit (.bar n (some (d.readPieces ps))) := by
  obtain ⟨mem, poison⟩ := d.hcPieces_mem x ps true
  have clean1 : (d.hcPieces x ps true).piecesPoisoned ps = false := by
    rw [← clean]
    exact congrArg (fun m : SMap Bool => ps.any fun p : Piece => ({ d with poison := m } : Dev).poisoned p.pa p.len) poison
  have read1 : (d.hcPieces x ps true).readPieces ps = d.readPieces ps :=
    congrArg (fun m : List Host.Cell => ps.flatMap fun p : Piece => ({ d with mem := m } : Dev).read p.pa p.len) mem
  delta Dev.vfBar2
  rw [hva, h]
  dsimp only
  rw [hps]
  dsimp only
  rw [clean1, read1]
  rfl

theorem Dev.vfBar2_unbound (h : d.vfCtx n = none) : d.vfBar2 n off len (some bs) = d := by
  delta Dev.vfBar2
  rw [h]

end VfBar2

section Reset

variable {d : Dev}

/-- A reset of domain 24 gives its registers their reset values, and leaves the others. -/
theorem Dev.hifReset_reg (o : Nat) : d.hifReset.reg o = if regDomain o = 24 then csrReset o else d.reg o := by
  have kept : d.hifReset.reg o = ((if (regDomain o != 24) = true then mapFind d.csr o else none).getD (csrReset o)) :=
    congrArg (·.getD (csrReset o)) (mapFind_mapKeep (fun off => regDomain off != 24) d.csr o)
  rw [kept]
  by_cases h : regDomain o = 24
  · rw [if_pos h, h]
    rfl
  · rw [if_neg h, if_pos (bne_iff_ne.2 h)]
    rfl

/-- The trained link of the host. -/
theorem Dev.linkUp_ok {speed width : Nat} {flit : Bool} (hon : d.domOn 24 = true) (h1 : 1 ≤ speed) (h7 : speed ≤ 7)
    (hw : width ∈ [1, 2, 4, 8, 16]) :
    d.linkUp speed width flit = ((d.setFld Reg.HIF_LINK 0 3 speed).setFld Reg.HIF_LINK 8 5 width).setBit Reg.HIF_LINK 13 flit := by
  refine if_pos ?_
  rw [Dev.hostOn, hon, decide_eq_true h1, decide_eq_true h7, List.contains_iff_mem.2 hw]
  rfl

end Reset

/-- Settles O56: each access by the lemma of its case. -/
theorem hostInterface : Obligations.HostInterface := by
  unfold Obligations.HostInterface
  intro d hon
  refine ⟨fun off n bs => ?_, fun n off h1 h8 ho => ⟨fun h => ?_, fun x h => ?_⟩, fun n off len bs ps h1 h8 => ⟨fun x h => ?_, fun h hfit => ?_⟩,
    fun n h1 h8 => ?_, ?_, fun speed width flit h1 h7 hw =>
      becomes_of_run (f := (·.linkUp speed width flit)) (fun _ => rfl) (Dev.linkUp_ok hon h1 h7 hw)⟩
  · have ends : ∀ {wr : Option Bytes} {e : Dev}, d.pfBar2 off n wr = e → Becomes (.pfBar2Access off n wr) d e :=
      fun {wr} {e} => becomes_of_run (f := (·.pfBar2 off n wr)) fun _ => rfl
    refine ⟨fun hfit => ⟨fun hr => ends ((Dev.pfBar2_write hon hfit).trans (if_pos hr)),
      fun hr => ends ((Dev.pfBar2_write hon hfit).trans (if_neg (Bool.eq_false_iff.1 hr)))⟩,
      fun hfit => ⟨fun hr clean => ends ((Dev.pfBar2_read hon hfit).trans ((if_pos hr).trans ?_)),
        fun hr => ends ((Dev.pfBar2_read hon hfit).trans (if_neg (Bool.eq_false_iff.1 hr)))⟩⟩
    rw [Dev.softRead_clean clean]
  · exact ⟨becomes_vfBar0Read hon h1 h8 ho (Dev.vfRead_unbound h), fun w => becomes_vfBar0Write hon h1 h8 ho (Dev.vfWrite_unbound w h)⟩
  · exact ⟨fun r hr hne hp => becomes_vfBar0Read hon h1 h8 ho (Dev.vfRead_reg h hr hne hp),
      fun hr h20 h30 => ⟨becomes_vfBar0Read hon h1 h8 ho (Dev.vfRead_other h hr),
        fun w => becomes_vfBar0Write hon h1 h8 ho (Dev.vfWrite_other h w hr h20 h30)⟩,
      fun w => becomes_vfBar0Write hon h1 h8 (by decide) (Dev.vfWrite_ctrl h w)⟩
  · exact ⟨fun hfit => ⟨fun hps => becomes_vfBar2 hon h1 h8 hfit (Dev.vfBar2_write rfl h hps),
        fun e he => becomes_vfBar2 hon h1 h8 hfit (Dev.vfBar2_refused rfl h he)⟩,
      fun hfit hps clean => becomes_vfBar2 hon h1 h8 hfit (Dev.vfBar2_read rfl h hps clean)⟩
  · exact becomes_vfBar2 hon h1 h8 hfit (Dev.vfBar2_unbound h)
  · refine becomes_of_run (f := fun d => if 1 ≤ n && n ≤ 8 then d.vfFlr n else d) (fun _ => rfl) (if_pos ?_)
    rw [decide_eq_true h1, decide_eq_true h8]
    rfl
  · exact ⟨d.hifReset, becomes_of_run (f := (·.hifReset)) (fun _ => rfl) rfl, becomes_of_run (f := (·.hifReset)) (fun _ => rfl) rfl,
      becomes_of_run (f := (·.hifReset)) (fun _ => rfl) rfl, rfl, rfl, rfl, fun o h => (Dev.hifReset_reg o).trans (if_pos h),
      fun o h => (Dev.hifReset_reg o).trans (if_neg h)⟩

end Sys2Proof.Machine

namespace Sys2Proof.Machine

/-! ## The network ports (R803 to R813) -/

section Commits

variable {d : Dev} {src : Master} {w : Word} {t : Nat}

/-- A commit of a target, and one of an ingest region. -/
theorem becomes_netTgtCommit {e : Dev} (ht : t < 16) (h : d.refusal src (Reg.NET_TGT_W t 0 + 0x38) true = none)
    (he : (if d.tgtBusy t || tgtReserved (d.staged8 (Reg.NET_TGT_W t 0) w) then d.logDiscard (Reg.NET_TGT_W t 0 + 0x38)
      else d.commitWords (Reg.NET_TGT_W t 0) t (atLe (d.staged8 (Reg.NET_TGT_W t 0) w) 0x24 3) (d.staged8 (Reg.NET_TGT_W t 0) w)) = e) :
    Becomes (.netTgtCommit src t w) d e := by
  have place : Reg.NET_TGT_W t 7 = Reg.NET_TGT_W t 0 + 0x38 := by simp only [Reg.NET_TGT_W]
  have rem : (Reg.NET_TGT_W t 0 + 0x38) % 0x40 = 0x38 := by
    rw [Reg.NET_TGT_W]
    omega
  have low : Reg.NET_TGT_W t 0 < Reg.NET_ING_W 0 0 := by
    rw [Reg.NET_TGT_W, Reg.NET_ING_W]
    omega
  have index : (Reg.NET_TGT_W t 0 - Reg.NET_TGT_W 0 0) / 0x40 = t := by
    rw [Reg.NET_TGT_W, Reg.NET_TGT_W]
    omega
  refine becomes_of_run (f := fun d => if t < 16 then d.wNetWord src (Reg.NET_TGT_W t 7) w else d) (fun _ => rfl) ((if_pos ht).trans ?_)
  rw [place, Dev.wNetWord, d.guard_of_passes h]
  simp only [rem, Nat.add_sub_cancel, ne_eq, not_true, if_false, low, if_true, index]
  exact he

theorem becomes_netIngCommit {e : Dev} (ht : t < 16) (h : d.refusal src (Reg.NET_ING_W t 0 + 0x38) true = none)
    (he : (if d.ingBusy t || ingReserved (d.staged8 (Reg.NET_ING_W t 0) w) then d.logDiscard (Reg.NET_ING_W t 0 + 0x38)
      else d.commitWords (Reg.NET_ING_W t 0) (16 + t) (atLe (d.staged8 (Reg.NET_ING_W t 0) w) 0x1C 3) (d.staged8 (Reg.NET_ING_W t 0) w)) = e) :
    Becomes (.netIngCommit src t w) d e := by
  have place : Reg.NET_ING_W t 7 = Reg.NET_ING_W t 0 + 0x38 := by simp only [Reg.NET_ING_W]
  have rem : (Reg.NET_ING_W t 0 + 0x38) % 0x40 = 0x38 := by
    rw [Reg.NET_ING_W]
    omega
  have high : ¬Reg.NET_ING_W t 0 < Reg.NET_ING_W 0 0 := by
    rw [Reg.NET_ING_W, Reg.NET_ING_W]
    omega
  have index : (Reg.NET_ING_W t 0 - Reg.NET_ING_W 0 0) / 0x40 = t := by
    rw [Reg.NET_ING_W, Reg.NET_ING_W]
    omega
  refine becomes_of_run (f := fun d => if t < 16 then d.wNetWord src (Reg.NET_ING_W t 7) w else d) (fun _ => rfl) ((if_pos ht).trans ?_)
  rw [place, Dev.wNetWord, d.guard_of_passes h]
  simp only [rem, Nat.add_sub_cancel, ne_eq, not_true, if_false, high, index]
  exact he

end Commits

section Ports

variable {d : Dev} {p : Nat}

theorem becomes_networkLinkDown (hp : p < 2) (hon : d.domOn 23 = true) : Becomes (.networkLinkDown p) d (d.setBit (Reg.NET_P_STATUS p) 0 false) :=
  becomes_of_run (f := fun d => if p < 2 && d.domOn 23 then d.setBit (Reg.NET_P_STATUS p) 0 false else d) (fun _ => rfl)
    (if_pos (by rw [hon, decide_eq_true hp]; rfl))

/-- What a pump emits changes no register. -/
theorem Dev.netPump_csr (t : Nat) : (d.netPump t).csr = d.csr := by
  rw [Dev.netPump]
  split
  · rfl
  · exact foldl_keeps Dev.csr (f := fun (e : Dev) (m : NetMsg) => e.netEmit (d.tgt t) m) (fun _ _ => rfl) _ d

/-- The block once a network link is up. -/
def Dev.netLinked (d : Dev) (p : Nat) : Dev :=
  ((upFrom 0 16).filter fun t => netPort ((d.setFld (Reg.NET_P_STATUS p) 0 2 1).tgt t) == p).foldl (fun e t => e.netPump t)
    (d.setFld (Reg.NET_P_STATUS p) 0 2 1)

theorem becomes_networkLinkUp (hp : p < 2) (hon : d.domOn 23 = true) : Becomes (.networkLinkUp p 0) d (d.netLinked p) :=
  becomes_of_run (f := fun d => if p < 2 && d.domOn 23 then
    let d := d.setFld (Reg.NET_P_STATUS p) 0 2 (1 + 0 % 2 * 2)
    ((upFrom 0 16).filter fun t => netPort (d.tgt t) == p).foldl (fun e t => e.netPump t) d
    else d) (fun _ => rfl) (if_pos (by rw [hon, decide_eq_true hp]; rfl))

theorem Dev.netLinked_bit (hwf : mapWf csrReset d.csr = true) :
    (d.netLinked p).bit (Reg.NET_P_STATUS p) 0 = true ∧ (d.netLinked p).bit (Reg.NET_P_STATUS p) 1 = false := by
  have csr : (d.netLinked p).csr = (d.setFld (Reg.NET_P_STATUS p) 0 2 1).csr := foldl_keeps Dev.csr (fun e t => e.netPump_csr t) _ _
  have same : ∀ i, (d.netLinked p).bit (Reg.NET_P_STATUS p) i = (d.setFld (Reg.NET_P_STATUS p) 0 2 1).bit (Reg.NET_P_STATUS p) i :=
    fun i => congrArg (fun m => bitOf (mapGet csrReset m (Reg.NET_P_STATUS p)) i) csr
  rw [same, same, d.bit_setFld hwf _ _ _ _ (by decide), d.bit_setFld hwf _ _ _ _ (by decide)]
  exact ⟨rfl, rfl⟩

theorem becomes_priorityFlowControlFrame {prio : Nat} (hp : p < 2) (hprio : prio < 8) (hup : d.netUp p = true) :
    Becomes (.priorityFlowControlFrame p prio true) d
      (((upFrom 0 16).filter fun t => netPort (d.tgt t) == p && netPrio (d.tgt t) == prio).foldl (fun e t => e.netPump t)
        { d with netPause := mapSet (fun _ => false) d.netPause (p * 8 + prio) true }) :=
  becomes_of_run (f := fun d => if p < 2 && prio < 8 && d.netUp p then
      let d := { d with netPause := mapSet (fun _ => false) d.netPause (p * 8 + prio) true }
      ((upFrom 0 16).filter fun t => netPort (d.tgt t) == p && netPrio (d.tgt t) == prio).foldl (fun e t => e.netPump t) d
    else d) (fun _ => rfl) (if_pos (by rw [hup, decide_eq_true hp, decide_eq_true hprio]; rfl))

theorem becomes_congestionNotificationPacket {k : Nat} (hk : k < 32) (hon : d.domOn 23 = true) :
    Becomes (.congestionNotificationPacket (0x10 + k)) d (d.setQp k { d.qp k with slow := (d.qp k).slow + 1 }) := by
  have index : 0x10 + k - 0x10 = k := by omega
  refine becomes_of_run (f := fun d => if 0x10 ≤ 0x10 + k && 0x10 + k < 0x30 && d.domOn 23 then
    d.setQp (0x10 + k - 0x10) { d.qp (0x10 + k - 0x10) with slow := (d.qp (0x10 + k - 0x10)).slow + 1 } else d) (fun _ => rfl)
    ((if_pos ?_).trans (by rw [index]))
  rw [hon, decide_eq_true (by omega), decide_eq_true (by omega)]
  rfl

end Ports

section Ingest

variable {d : Dev} {r : Rdma} {i : Nat} (hi : d.ingOf r = some i)
include hi

theorem becomes_invalidOpcodeIn :
    Becomes (.invalidOpcodeIn r) d (d.emit (.rdma (netPort (d.ing i)) (atLe (d.ing i) 0x18 3) .nakInvalid r.psn 0 0 [])) := by
  refine becomes_of_run (f := fun d =>
    match d.ingOf r with
    | some i => d.netAnswer (d.ing i) .nakInvalid r.psn
    | none =>
      let b := d.tgt (r.qp - 0x10)
      if 0x10 ≤ r.qp && r.qp < 0x20 && r.pkey = 0xFFFF && d.netUp r.port && netPort b = r.port then
        d.emit (.rdma (netPort b) (atLe b 4 3) .nakInvalid r.psn 0 0 [])
      else d) (fun _ => rfl) ?_
  rw [hi]
  rfl

variable (imm : Option Nat)

/-- An inbound write behind one that waits, waits. -/
theorem Dev.ingest_busy (hb : d.ingBusy i = true) : d.ingest r imm = { d with netWait := d.netWait ++ [(r, imm)] } := by
  simp only [Dev.ingest, hi, hb, if_true]

variable (hb : d.ingBusy i = false)
include hb

/-- One out of sequence is discarded. -/
theorem Dev.ingest_psn (hpsn : r.psn ≠ (d.qp (16 + i)).psn) : d.ingest r imm = d := by
  simp only [Dev.ingest, hi, hb, hpsn, Bool.false_eq_true, if_false, ne_eq, not_false_iff, if_true]

/-- A write fits its region. -/
def Dev.ingestFits (d : Dev) (r : Rdma) (i : Nat) : Prop :=
  bitsOf (atLe (d.ing i) 0 1) 0 1 = 1 ∧ r.rkey = atLe (d.ing i) 4 4 ∧ atLe (d.ing i) 8 8 ≤ r.addr ∧
    r.addr + r.data.length ≤ atLe (d.ing i) 8 8 + atLe (d.ing i) 0x10 8

variable (hpsn : r.psn = (d.qp (16 + i)).psn)
include hpsn

omit hi hb hpsn in
theorem Dev.ingestFits_iff : (bitsOf (atLe (d.ing i) 0 1) 0 1 == 1 && r.rkey == atLe (d.ing i) 4 4 && decide (atLe (d.ing i) 8 8 ≤ r.addr) &&
    decide (r.addr + r.data.length ≤ atLe (d.ing i) 8 8 + atLe (d.ing i) 0x10 8)) = true ↔ d.ingestFits r i := by
  simp only [Dev.ingestFits, Bool.and_eq_true, beq_iff_eq, decide_eq_true_eq, and_assoc]

/-- One that does not fit its region is refused. -/
theorem Dev.ingest_refused (hfit : ¬d.ingestFits r i) :
    d.ingest r imm = (d.addFld (Reg.NET_P_STATUS r.port) 32 32 1).emit
      (.rdma (netPort (d.ing i)) (atLe (d.ing i) 0x18 3) .nakAccess r.psn 0 0 []) := by
  have unfit := Bool.eq_false_iff.2 (mt Dev.ingestFits_iff.1 hfit)
  simp only [Dev.ingest, hi, hb, hpsn, unfit, Bool.not_false, Bool.true_or, Bool.false_eq_true, if_false, ne_eq, not_true, if_true, Dev.netAnswer]

section Fits

variable (hfit : d.ingestFits r i) (hrun : (d.ctx (atLe (d.ing i) 1 1)).state = .running) {ps : List Piece}
  (hps : d.translate (atLe (d.ing i) 1 1) .iw r.addr r.data.length = .ok ps) (hon : d.cabOn (atLe (d.ing i) 1 1) 11 = true)
include hfit hrun hps hon

/-- One whose buffer is not free waits. -/
theorem Dev.ingest_waits (himm : (imm.all fun v => d.immOk (atLe (d.ing i) 1 1) v r.data.length) = true)
    (hpick : d.cabPick (atLe (d.ing i) 1 1) 11 (min (max r.data.length 1) 4096) = none) :
    d.ingest r imm =
      (let e := d.cabWait (atLe (d.ing i) 1 1) 11 (min (max r.data.length 1) 4096)
       { e with netWait := e.netWait ++ [(r, imm)] }) := by
  have fit := Dev.ingestFits_iff.2 hfit
  have takes : (CtxState.running).takesIngest = true := rfl
  have none_ : d.cabAlloc (atLe (d.ing i) 1 1) 11 (min (max r.data.length 1) 4096) 11 =
      (none, d.cabWait (atLe (d.ing i) 1 1) 11 (min (max r.data.length 1) 4096)) := by
    simp only [Dev.cabAlloc, hpick]
  simp only [Dev.ingest, hi, hb, hpsn, fit, hrun, takes, hps, himm, hon, hpick, none_, Option.isNone_none, Bool.not_true, Bool.or_self,
    Bool.false_eq_true, if_false, ne_eq, not_true, if_true]

/-- The end of a write that is performed: the next in sequence is expected, and it is acknowledged. -/
def Dev.ingested (d f : Dev) (r : Rdma) (i : Nat) : Dev :=
  (f.setQp (16 + i) { d.qp (16 + i) with psn := ((d.qp (16 + i)).psn + max 1 (ceilDiv r.data.length 4096)) % 2 ^ 24 }).emit
    (.rdma (netPort (d.ing i)) (atLe (d.ing i) 0x18 3) .ack r.psn 0 0 [])

variable {k : Buf} {e : Dev} (halloc : d.cabAlloc (atLe (d.ing i) 1 1) 11 (min (max r.data.length 1) 4096) 11 = (some k, e))
include halloc

omit imm in
/-- One that has its buffer is written at the translated address, with its sync operation. -/
theorem Dev.ingest_write :
    d.ingest r none = d.ingested ((e.writeLosing r.lost (atLe (d.ing i) 1 1) ps r.data).cabRelease k 11) r i := by
  have fit := Dev.ingestFits_iff.2 hfit
  have takes : (CtxState.running).takesIngest = true := rfl
  simp only [Dev.ingest, hi, hb, hpsn, fit, hrun, takes, hps, hon, halloc, Option.all_none, Bool.not_true, Bool.or_self, Bool.false_eq_true,
    if_false, ne_eq, not_true, Dev.ingested, Dev.netAnswer]

omit imm in
theorem Dev.ingest_writeImm {v : Nat} (hv : d.immOk (atLe (d.ing i) 1 1) v r.data.length = true) :
    d.ingest r (some v) = d.ingested (((e.writeLosing r.lost (atLe (d.ing i) 1 1) ps r.data).cabRelease k 11).syncOp (atLe (d.ing i) 1 1)
      (bitsOf v 16 4) (v % 65536) 0 (r.data.length / 16)) r i := by
  have fit := Dev.ingestFits_iff.2 hfit
  have takes : (CtxState.running).takesIngest = true := rfl
  simp only [Dev.ingest, hi, hb, hpsn, fit, hrun, takes, hps, hon, halloc, Option.all_some, hv, Bool.not_true, Bool.or_self, Bool.false_eq_true,
    if_false, ne_eq, not_true, Dev.ingested, Dev.netAnswer]

end Fits

end Ingest

section Requests

variable {d : Dev} {t : Nat} {m : NetMsg} {rest : List NetMsg} (ht : t < 16) (hm : (d.qp t).msgs = m :: rest)

section Head

include hm

/-- A refused request that has left ends its transfer. -/
theorem Dev.netNak_sent (hs : m.sent = true) : d.netNak t = d.netFail t m := by
  simp only [Dev.netNak, hm, hs, if_true]

theorem Dev.netNak_unsent (hs : m.sent = false) : d.netNak t = d := by
  simp only [Dev.netNak, hm, hs, Bool.false_eq_true, if_false]

section Timeout

variable (hs : m.sent = true) (hdue : m.at_ + 12800000 ≤ d.time.toNat)
include hs hdue

/-- One without acknowledgement is sent again, up to seven times. -/
theorem Dev.netTimeout_last (h : 7 ≤ m.tries) : d.netTimeout t = d.netFail t m := by
  simp only [Dev.netTimeout, hm, hs, decide_eq_false (Nat.not_lt.2 hdue), h, Bool.not_true, Bool.or_self, Bool.false_eq_true, if_false, if_true]

theorem Dev.netTimeout_again (h : m.tries < 7) :
    d.netTimeout t = (d.setQp t { d.qp t with
      msgs := ({ m with tries := m.tries + 1 } :: rest).map fun k => { k with sent := false } }).netPump t := by
  simp only [Dev.netTimeout, hm, hs, decide_eq_false (Nat.not_lt.2 hdue), Nat.not_le.2 h, Bool.not_true, Bool.or_self, Bool.false_eq_true, if_false]

end Timeout

/-- An acknowledgement of the oldest request alone. -/
theorem Dev.netAck_one {psn : Nat} (h : ackedBy psn (d.qp t).msgs = [m]) :
    d.netAck t psn = ((d.setQp t { d.qp t with msgs := rest }).endMsg m).netAcked t m := by
  simp only [Dev.netAck, h, List.foldl_cons, List.foldl_nil]
  rw [hm]
  rfl

/-- The rest of a manifest arrives, and is checked. -/
theorem Dev.restoreData_manifest {r : Restore} {data : Bytes} (lost : List (Nat × Nat)) (hr : d.restore = some r) (htgt : r.tgt = t)
    (hkind : m.kind = 3) (hs : m.sent = true) (hlen : m.len = data.length) (hout : r.out = none) (hman : r.man.length = 64) :
    d.restoreData t data lost = (d.setQp t { d.qp t with msgs := rest }).restoreManifest { r with man := r.man ++ data } := by
  have some_ : r.man.isEmpty = false := List.isEmpty_eq_false_iff.2 fun h => by
    rw [h] at hman
    cases hman
  simp only [Dev.restoreData, hr, hm, htgt, hkind, hs, hlen, hout, some_, hman, ne_eq, not_true, decide_false, Bool.not_true, Option.isSome_none,
    Bool.or_self, Bool.false_eq_true, if_false, if_true]

end Head

theorem Dev.netAck_none {psn : Nat} (h : ackedBy psn (d.qp t).msgs = []) : d.netAck t psn = d := by
  simp only [Dev.netAck, h, List.foldl_nil]

end Requests

/-- Settles O57: each event by the lemma of its case. -/
theorem networkPorts : Obligations.NetworkPorts := by
  unfold Obligations.NetworkPorts
  intro d
  refine ⟨fun src t w ht h => ⟨fun hb hres => becomes_netTgtCommit ht h (if_neg ?_), fun hbad => becomes_netTgtCommit ht h (if_pos ?_)⟩,
    fun src i w ht h => ⟨fun hb hres => becomes_netIngCommit ht h (if_neg ?_), fun hbad => becomes_netIngCommit ht h (if_pos ?_)⟩,
    fun p hp hon => ⟨becomes_networkLinkDown hp hon, fun hwf => ⟨_, becomes_networkLinkUp hp hon, Dev.netLinked_bit (d.csr_wf hwf)⟩⟩,
    fun p prio hp hprio hup => becomes_priorityFlowControlFrame hp hprio hup, fun k hk hon => becomes_congestionNotificationPacket hk hon,
    fun r i hi => ⟨becomes_invalidOpcodeIn hi, ?_⟩, fun t m rest ht hm => ?_⟩
  · rw [hb, hres]
    exact Bool.false_ne_true
  · exact Bool.or_eq_true_iff.2 hbad
  · rw [hb, hres]
    exact Bool.false_ne_true
  · exact Bool.or_eq_true_iff.2 hbad
  · have writes : ∀ {e : Dev}, d.ingest r none = e → Becomes (.rdmaWriteIn r) d e := becomes_of_run (f := (·.ingest r none)) fun _ => rfl
    have writesImm : ∀ {v : Nat} {e : Dev}, d.ingest r (some v) = e → Becomes (.rdmaWriteImmIn r v) d e :=
      fun {v} {e} => becomes_of_run (f := (·.ingest r (some v))) fun _ => rfl
    refine ⟨fun hb => ⟨writes (Dev.ingest_busy hi none hb), fun v => writesImm (Dev.ingest_busy hi (some v) hb)⟩,
      fun hb hpsn => ⟨writes (Dev.ingest_psn hi none hb hpsn), fun v => writesImm (Dev.ingest_psn hi (some v) hb hpsn)⟩,
      fun hb hpsn hfit => ⟨writes (Dev.ingest_refused hi none hb hpsn hfit), fun v => writesImm (Dev.ingest_refused hi (some v) hb hpsn hfit)⟩,
      fun hb hpsn hfit hrun ps hps hon => ⟨fun hpick => writes (Dev.ingest_waits hi none hb hpsn hfit hrun hps hon rfl hpick),
        fun k e halloc => ⟨writes (Dev.ingest_write hi hb hpsn hfit hrun hps hon halloc),
          fun v hv => writesImm (Dev.ingest_writeImm hi hb hpsn hfit hrun hps hon halloc hv)⟩⟩⟩
  · have acks : ∀ {psn : Nat} {e : Dev}, d.netAck t psn = e → Becomes (.rdmaAckIn t psn) d e := fun {psn} {e} he =>
      becomes_of_run (f := fun d => if t < 16 then d.netAck t psn else d) (fun _ => rfl) ((if_pos ht).trans he)
    have naks : ∀ {e : Dev}, d.netNak t = e → Becomes (.rdmaNakIn t) d e := fun {e} he =>
      becomes_of_run (f := fun d => if t < 16 then d.netNak t else d) (fun _ => rfl) ((if_pos ht).trans he)
    have ends : ∀ {e : Dev}, d.netTimeout t = e → Becomes (.rdmaAckTimeout t) d e := fun {e} he =>
      becomes_of_run (f := fun d => if t < 16 then d.netTimeout t else d) (fun _ => rfl) ((if_pos ht).trans he)
    exact ⟨fun hs => naks (Dev.netNak_sent hm hs), fun hs => naks (Dev.netNak_unsent hm hs),
      fun hs hdue => ⟨fun h => ends (Dev.netTimeout_last hm hs hdue h), fun h => ends (Dev.netTimeout_again hm hs hdue h)⟩,
      fun psn h => acks (Dev.netAck_none h), fun psn h => acks (Dev.netAck_one hm h),
      fun r data lost hr htgt hkind hs hlen hout hman =>
        becomes_of_run (f := fun d => if t < 16 then d.restoreData t data lost else d) (fun _ => rfl)
          ((if_pos ht).trans (Dev.restoreData_manifest hm lost hr htgt hkind hs hlen hout hman))⟩

end Sys2Proof.Machine


namespace Sys2Proof.Machine

/-! ### Answers of the management responder (R820 to R822) -/

variable {d : Dev} {path : Nat}

theorem onPath_of (hp : path < 3) (f : Dev → Dev) (d : Dev) : onPath path f d = f d := if_pos hp

theorem Dev.freshBytes_length (d : Dev) (n : Nat) : (d.freshBytes n).1.length = n := by
  rw [Dev.freshBytes, List.length_map, upFrom_eq_range', List.length_range']

/-- The state of an always-on domain whose queue is empty anyway. -/
theorem aon_of_idmQ {a : Aon} (h : a.idmQ = []) : { a with idmQ := [] } = a := by
  rw [← h]

/-- The identity memory of a block is performed at once where nothing waits: a read that a message asks for. -/
theorem Dev.idmMessage_read {blk : Nat} (hblk : blk < 1024) (h : d.aon.idmQ = []) :
    d.idmMessage path blk none = d.emit (.mgmt (d.answerPath path) 12 0 (nvGet d.nv.idm (64 * blk) 64)) := by
  simp only [Dev.idmMessage, Dev.idmJoin, h, List.nil_append, Nat.mod_eq_of_lt hblk]
  exact congrArg (fun a => ({ d.emit (.mgmt (d.answerPath path) 12 0 (nvGet d.nv.idm (64 * blk) 64)) with aon := a } : Dev)) (aon_of_idmQ h)

theorem Dev.idmMessage_refused {blk : Nat} {bs : Bytes} (h : idmWritable 0 blk = false) :
    d.idmMessage path blk (some bs) = d.emit (.mgmt (d.answerPath path) 12 1 []) := by
  simp only [Dev.idmMessage, h, Bool.not_false, if_true]
  rfl

/-- The write that runs is stored and answered; with nothing behind it, that is all. -/
theorem Dev.idmDone_last {q : IdmAcc} {bs : Bytes} (h : d.aon.idmQ = [q]) (hw : q.data = some bs) (hp : q.path = some path) :
    d.idmDone = ({ d with nv := { d.nv with idm := nvPut d.nv.idm (64 * q.block) bs }, aon := { d.aon with idmQ := [] } } : Dev).emit
      (.mgmt (d.answerPath path) 12 0 []) := by
  simp only [Dev.idmDone, h, hw, Dev.idmAnswer, hp, Option.isSome_some, if_true]
  rfl

/-! ### Commands of MGT_IDM_CMD (R825) -/

theorem bitOf_or_read (w : Word) : bitOf ((w ||| 0x2000) &&& ~~~ 0x1000) 13 = true ∧ bitOf ((w ||| 0x2000) &&& ~~~ 0x1000) 12 = false := by
  simp [bitOf]

theorem bitOf_or_write (w : Word) : bitOf (w ||| 0x3000) 13 = true ∧ bitOf (w ||| 0x3000) 12 = true := by
  simp [bitOf]

theorem fieldOf_congr {v w : Word} {lo n : Nat} (h : ∀ i, i < n → v.getLsbD (lo + i) = w.getLsbD (lo + i)) : fieldOf v lo n = fieldOf w lo n := by
  refine Nat.eq_of_testBit_eq fun i => ?_
  rw [testBit_fieldOf, testBit_fieldOf]
  by_cases hi : i < n
  · rw [h i hi]
  · rw [decide_eq_false hi, Bool.false_and, Bool.false_and]

/-- The command bits stand above the block number. -/
theorem fieldOf_or_read (w : Word) : fieldOf ((w ||| 0x2000) &&& ~~~ 0x1000) 0 10 = fieldOf w 0 10 := by
  have low : ∀ i, i < 10 → (0x2000 : Word).getLsbD (0 + i) = false ∧ (~~~ (0x1000 : Word)).getLsbD (0 + i) = true := by decide
  refine fieldOf_congr fun i hi => ?_
  rw [BitVec.getLsbD_and, BitVec.getLsbD_or, (low i hi).1, (low i hi).2, Bool.or_false, Bool.and_true]

theorem fieldOf_or_write (w : Word) : fieldOf (w ||| 0x3000) 0 10 = fieldOf w 0 10 := by
  have low : ∀ i, i < 10 → (0x3000 : Word).getLsbD (0 + i) = false := by decide
  refine fieldOf_congr fun i hi => ?_
  rw [BitVec.getLsbD_or, low i hi, Bool.or_false]

theorem Dev.wIdmCmd_runs {src : Master} {w : Word} (hgo : bitOf w 13 = true) (h : d.fld Reg.MGT_IDM_CMD 16 2 = 3) :
    d.wIdmCmd src w = d.logDiscard Reg.MGT_IDM_CMD := by
  simp only [Dev.wIdmCmd, hgo, h, Bool.not_true, Bool.false_eq_true, if_false, if_true]

theorem Dev.plainWrite_aon {off : Nat} {w : Word} : (d.plainWrite off w).aon = d.aon := by
  rw [Dev.plainWrite]
  split <;> rfl

/-- The 64 bytes of MGT_IDM_DATA0 to MGT_IDM_DATA7. -/
def Dev.idmWords (d : Dev) : Bytes := (upFrom 0 8).flatMap fun k => leBytes 8 (d.reg (Reg.MGT_IDM_DATA k)).toNat

theorem Dev.wIdmCmd_go {src : Master} {w : Word} (hgo : bitOf w 13 = true) (h : d.fld Reg.MGT_IDM_CMD 16 2 ≠ 3) :
    d.wIdmCmd src w = if idmWho src = 2 && d.idmBoard then ((d.plainWrite Reg.MGT_IDM_CMD w).idmStatus 1).log 0xB 2 3 none 0 0
      else if bitOf w 12 then
        if !idmWritable (idmWho src) (fieldOf w 0 10) then (d.plainWrite Reg.MGT_IDM_CMD w).idmStatus 2
        else ((d.plainWrite Reg.MGT_IDM_CMD w).idmStatus 3).idmJoin
          (.mk (idmWho src) none (fieldOf w 0 10) (some (d.plainWrite Reg.MGT_IDM_CMD w).idmWords))
      else ((d.plainWrite Reg.MGT_IDM_CMD w).idmStatus 3).idmJoin (.mk (idmWho src) none (fieldOf w 0 10) none) := by
  have board : (d.plainWrite Reg.MGT_IDM_CMD w).idmBoard = d.idmBoard := by
    rw [Dev.idmBoard, Dev.plainWrite_aon, Dev.idmBoard]
  simp only [Dev.wIdmCmd, hgo, h, Bool.not_true, Bool.false_eq_true, if_false, board, Dev.idmWords]

theorem Dev.plainWrite_nv {off : Nat} {w : Word} : (d.plainWrite off w).nv = d.nv := by
  rw [Dev.plainWrite]
  split <;> rfl

theorem Dev.idmBoard_none (h : d.aon.idmQ = []) : d.idmBoard = false := by
  rw [Dev.idmBoard, h, List.any_nil]

/-- A write of the Bureau outside its blocks. -/
theorem idmWritable_bureau {blk : Nat} (h : blk < 128) : idmWritable 1 blk = false := by
  rw [idmWritable, if_pos h]
  split <;> rfl

/-- The registers MGT_IDM_DATA0 to MGT_IDM_DATA7 take 64 bytes. -/
def Dev.idmTake (d : Dev) (bs : Bytes) : Dev :=
  (upFrom 0 8).foldl (fun e k => e.setReg (Reg.MGT_IDM_DATA k) (BitVec.ofNat 64 (atLe bs (8 * k) 8))) d

theorem foldl_setReg_aon {α : Type} (o : α → Nat) (v : α → Word) (a : Aon) (l : List α) (d : Dev) :
    l.foldl (fun e k => e.setReg (o k) (v k)) { d with aon := a } = { (l.foldl (fun e k => e.setReg (o k) (v k)) d) with aon := a } := by
  induction l generalizing d with
  | nil => rfl
  | cons k l ih => exact ih (d.setReg (o k) (v k))

theorem Dev.idmTake_aon (d : Dev) (bs : Bytes) (a : Aon) : ({ d with aon := a } : Dev).idmTake bs = { d.idmTake bs with aon := a } :=
  foldl_setReg_aon _ _ a (upFrom 0 8) d

/-- A read that the register asks for is performed at once where nothing waits. -/
theorem Dev.idmJoin_read {who blk : Nat} (h : d.aon.idmQ = []) :
    d.idmJoin { by_ := who, path := none, block := blk, data := none } = (d.idmTake (nvGet d.nv.idm (64 * blk) 64)).idmStatus 0 := by
  have taken := d.idmTake_aon (nvGet d.nv.idm (64 * blk) 64)
    { d.aon with idmQ := [{ by_ := who, path := none, block := blk, data := none }] }
  have answered := congrArg (fun e : Dev => ({ e.idmStatus 0 with aon := { e.aon with idmQ := e.aon.idmQ.drop 1 } } : Dev)) taken
  have same : ({ d.idmTake (nvGet d.nv.idm (64 * blk) 64) with aon := { d.aon with idmQ := [] } } : Dev) =
      d.idmTake (nvGet d.nv.idm (64 * blk) 64) := by
    rw [aon_of_idmQ h]
    exact (d.idmTake_aon _ d.aon).symm
  have joined : d.idmJoin { by_ := who, path := none, block := blk, data := none } =
      ({ d.idmTake (nvGet d.nv.idm (64 * blk) 64) with aon := { d.aon with idmQ := [] } } : Dev).idmStatus 0 := by
    simp only [Dev.idmJoin, h, List.nil_append]
    exact answered
  rw [joined, same]

/-- A write that the register asks for runs. -/
theorem Dev.idmJoin_write {who blk : Nat} {bs : Bytes} (h : d.aon.idmQ = []) :
    d.idmJoin { by_ := who, path := none, block := blk, data := some bs } =
      { d with aon := { d.aon with idmQ := [{ by_ := who, path := none, block := blk, data := some bs }] } } := by
  simp only [Dev.idmJoin, h, List.nil_append]
  rfl

/-! ### Firmware update (R840) -/

theorem Dev.requestUpdate_of {slot : Nat} (h : d.aon.upd = none) : d.requestUpdate path slot =
    if d.boot.slot = some slot then d.answer path 2 1 []
    else { d with aon := { d.aon with upd := some (slot, false) } }.answer path 2 0 [] := by
  rw [Dev.requestUpdate, h]
  rfl

theorem Dev.storeWrite_of {slot off : Nat} {data : Bytes} {last : Bool} (h : d.aon.upd = some (slot, false)) (hs : d.boot.slot ≠ some slot)
    (hlen : off + data.length ≤ 2 ^ 24) : d.storeWrite off data last =
      { d with
        nv := { d.nv with
          fw := nvPut d.nv.fw (slot * 2 ^ 24 + off) data,
          writing := if last then d.nv.writing.filter fun k => k != slot else slot :: d.nv.writing.filter fun k => k != slot },
        aon := { d.aon with upd := some (slot, last) } } := by
  simp only [Dev.storeWrite, h, hs, decide_false, Bool.or_self, decide_eq_false (Nat.not_lt.2 hlen), Bool.false_eq_true, if_false]

theorem contains_writing (l : List Nat) (slot : Nat) (last : Bool) :
    (if last then l.filter fun k => k != slot else slot :: l.filter fun k => k != slot).contains slot = !last := by
  cases last <;> simp

theorem Dev.activate_ready {slot : Nat} {record : Bytes} (h : d.aon.upd = some (slot, true)) (hon : d.domOn 26 = true) :
    d.activate path record =
      ((({ d with aon := { d.aon with upd := none } } : Dev).setBit Reg.AON_FW_CTRL 1 true).mrExtend 7 (sha384 record)).answer path 4 0 [] := by
  have on : (({ d with aon := { d.aon with upd := none } } : Dev).setBit Reg.AON_FW_CTRL 1 true).domOn 26 = true := by
    rw [← hon, Dev.domOn, Dev.setBit, Dev.setFld, Dev.bit_setReg_other _ _ (by decide)]
    rfl
  simp only [Dev.activate, h, on, if_true]

theorem Dev.activate_none {record : Bytes} (h : d.aon.upd = none) : d.activate path record = d.answer path 4 1 [] := by
  rw [Dev.activate, h]

/-! ### I3C bus recovery (R826) -/

theorem Dev.i3cEnd_high (h : d.fld Reg.MGT_I3C_STATUS 0 2 = 2) :
    d.i3cEnd true = (d.setFld Reg.MGT_I3C_STATUS 0 2 0).setFld Reg.MGT_I3C_STATUS 2 2 0 := by
  simp only [Dev.i3cEnd, h, ne_eq, not_true, if_false, if_true]

theorem Dev.i3cEnd_again (h : d.fld Reg.MGT_I3C_STATUS 0 2 = 2) (hn : d.fld Reg.MGT_I3C_STATUS 2 2 < 2) :
    d.i3cEnd false = (d.setFld Reg.MGT_I3C_STATUS 2 2 (d.fld Reg.MGT_I3C_STATUS 2 2 + 1)).setFld Reg.MGT_I3C_STATUS 0 2 0 := by
  have less : ¬ 3 ≤ d.fld Reg.MGT_I3C_STATUS 2 2 + 1 := by omega
  simp only [Dev.i3cEnd, h, ne_eq, not_true, if_false, Bool.false_eq_true, less, Nat.min_eq_left (Nat.le_of_not_le less)]

theorem Dev.i3cEnd_third (h : d.fld Reg.MGT_I3C_STATUS 0 2 = 2) (hn : d.fld Reg.MGT_I3C_STATUS 2 2 = 2) :
    d.i3cEnd false = ((d.setFld Reg.MGT_I3C_STATUS 2 2 3).setFld Reg.MGT_I3C_STATUS 0 2 3).log 0xB 1 3 none 0 0 := by
  simp only [Dev.i3cEnd, h, hn, ne_eq, not_true, if_false, Bool.false_eq_true, Nat.reduceAdd, Nat.le_refl, if_true, Nat.min_self]

theorem Dev.wI3cCtrl_high {w : Word} (hw : bitOf w 0 = true) (h : d.i3cFailed = true) :
    d.wI3cCtrl w true = (d.setFld Reg.MGT_I3C_STATUS 0 2 0).setFld Reg.MGT_I3C_STATUS 2 2 0 := by
  simp only [Dev.wI3cCtrl, hw, h, Bool.not_true, Bool.false_eq_true, if_false, if_true]

theorem Dev.wI3cCtrl_low {w : Word} (hw : bitOf w 0 = true) : d.wI3cCtrl w false = d.logDiscard Reg.MGT_I3C_CTRL := by
  simp only [Dev.wI3cCtrl, hw, Bool.not_true, Bool.false_eq_true, if_false]

theorem bitOf_or_one (w : Word) : bitOf (w ||| 1) 0 = true := by
  simp [bitOf]

/-! ### Management packets (R650) -/

theorem Dev.mgmtGot_csr {q : RPkt} {bs : Bytes} {e : Dev} (hbad : q.bad = false) (hslot : d.boot.slot.isSome = true) (hk : atLe q.pay 0 1 = 3)
    (hsrc : q.hdr.src = d.fld Reg.BUR_FM 0 16) (he : d.mgmtAccess (q.pay.drop 4) = (bs, e)) :
    d.mgmtGot q = e.sendMgmt q.hdr.src ([4, 0, 0, 0] ++ bs) := by
  have slot : d.boot.slot.isNone = false := by
    rw [← Option.not_isSome, hslot, Bool.not_true]
  simp only [Dev.mgmtGot, hbad, slot, Bool.or_self, Bool.false_eq_true, if_false, hk, hsrc, ne_eq, not_true, he]

theorem Dev.mgmtGot_swing {q : RPkt} (hbad : q.bad = false) (hslot : d.boot.slot.isSome = true) (hk : atLe q.pay 0 1 = 5) :
    d.mgmtGot q = { d with swingMsg := some (q.hdr.src, atLe q.pay 4 1, atLe q.pay 5 1) } := by
  have slot : d.boot.slot.isNone = false := by
    rw [← Option.not_isSome, hslot, Bool.not_true]
  simp only [Dev.mgmtGot, hbad, slot, Bool.or_self, Bool.false_eq_true, if_false, hk]

theorem Dev.freeRegion_boot (q : RPkt) : (d.freeRegion q).boot = d.boot ∧ (d.freeRegion q).csr = d.csr := by
  rw [Dev.freeRegion]
  split <;> exact ⟨rfl, rfl⟩

/-! ### The obligation -/

theorem becomes_onPath (hp : path < 3) {c : Instr} {f : Dev → Dev} {e : Dev} (hc : ∀ s : State, exec c s = s.run (onPath path f)) (h : f d = e) :
    Becomes c d e :=
  becomes_of_run hc ((onPath_of hp f d).trans h)

/-- A management packet for this device, once it is taken up. -/
theorem becomes_mgmt {p : Packet} {e : Dev} (h : d.takesHere p 0x18 = true) (he : (d.freeRegion (d.held p)).mgmtGot { d.held p with inReg := false } = e) :
    Becomes (.mgmtCsr p) d e ∧ Becomes (.mgmtSwing p) d e :=
  have got := (Dev.receive_here h fun d q _ => d.mgmtGot q).2.2.trans he
  ⟨becomes_of_run (f := (·.receive p 0x18 fun d q _ => d.mgmtGot q)) (fun _ => rfl) got,
    becomes_of_run (f := (·.receive p 0x18 fun d q _ => d.mgmtGot q)) (fun _ => rfl) got⟩

/-- Measurements: the block asked for, and a signature (R841, R843). -/
theorem becomes_measurements (hp : path < 3) {ix : Nat} (h1 : 1 ≤ ix) (h8 : ix ≤ 8) : Becomes (.getMeasurements path ix) d
    ((d.freshBytes 96).2.emit (.mgmt (d.answerPath path) 11 0 (d.mrBlock (ix - 1) ++ (d.freshBytes 96).1))) := by
  have one : measured ix = [ix - 1] := by
    rw [measured, if_neg (by omega), decide_eq_true h1, decide_eq_true h8]
    rfl
  refine becomes_onPath hp (f := fun d => (d.freshBytes 96).2.answer path 11 0 ((measured ix).flatMap d.mrBlock ++ (d.freshBytes 96).1)) (fun _ => rfl) ?_
  rw [one, List.flatMap_singleton]
  rfl

/-- A command of MGT_IDM_CMD that its register takes. -/
theorem becomes_idm {src : Master} {w : Word} (h : d.refusal src Reg.MGT_IDM_CMD true = none) :
    (∀ {e}, d.wIdmCmd src ((w ||| 0x2000) &&& ~~~ 0x1000) = e → Becomes (.idmRead src w) d e) ∧
      (∀ {e}, d.wIdmCmd src (w ||| 0x3000) = e → Becomes (.idmWrite src w) d e) :=
  ⟨fun he => becomes_of_run (f := (·.guard src Reg.MGT_IDM_CMD (·.wIdmCmd src ((w ||| 0x2000) &&& ~~~ 0x1000)))) (fun _ => rfl)
      ((d.guard_of_passes h _).trans he),
    fun he => becomes_of_run (f := (·.guard src Reg.MGT_IDM_CMD (·.wIdmCmd src (w ||| 0x3000)))) (fun _ => rfl) ((d.guard_of_passes h _).trans he)⟩

theorem Dev.idmStatus_aon (d : Dev) {st : Nat} : (d.idmStatus st).aon = d.aon := rfl

theorem Dev.idmStatus_nv (d : Dev) {st : Nat} : (d.idmStatus st).nv = d.nv := rfl

/-- Commands of MGT_IDM_CMD while nothing waits at the identity memory. -/
theorem Dev.wIdmCmd_idle {src : Master} {w : Word} (hfree : d.fld Reg.MGT_IDM_CMD 16 2 ≠ 3) (hq : d.aon.idmQ = []) :
    (d.wIdmCmd src ((w ||| 0x2000) &&& ~~~ 0x1000) =
      (((d.plainWrite Reg.MGT_IDM_CMD ((w ||| 0x2000) &&& ~~~ 0x1000)).idmStatus 3).idmTake (nvGet d.nv.idm (64 * fieldOf w 0 10) 64)).idmStatus 0) ∧
    (idmWritable (idmWho src) (fieldOf w 0 10) = true → d.wIdmCmd src (w ||| 0x3000) =
      { (d.plainWrite Reg.MGT_IDM_CMD (w ||| 0x3000)).idmStatus 3 with
        aon := { d.aon with
          idmQ := [IdmAcc.mk (idmWho src) none (fieldOf w 0 10) (some (d.plainWrite Reg.MGT_IDM_CMD (w ||| 0x3000)).idmWords)] } }) := by
  have aon := fun v => ((d.plainWrite Reg.MGT_IDM_CMD v).idmStatus_aon (st := 3)).trans Dev.plainWrite_aon
  refine ⟨?_, fun hw => ?_⟩
  · rw [Dev.wIdmCmd_go (bitOf_or_read w).1 hfree, Dev.idmBoard_none hq, Bool.and_false, if_neg Bool.false_ne_true, (bitOf_or_read w).2,
      if_neg Bool.false_ne_true, fieldOf_or_read, Dev.idmJoin_read (by rw [aon, hq])]
    rw [Dev.idmStatus_nv, Dev.plainWrite_nv]
  · rw [Dev.wIdmCmd_go (bitOf_or_write w).1 hfree, Dev.idmBoard_none hq, Bool.and_false, if_neg Bool.false_ne_true, (bitOf_or_write w).2,
      if_pos rfl, fieldOf_or_write, hw, Bool.not_true, if_neg Bool.false_ne_true, Dev.idmJoin_write (by rw [aon, hq]), aon]

/-- Settles O58: an answer goes out on its path at once, with what the responder reads; every other clause is the branch of the
responder's function that its premises choose. -/
theorem managementRequests : Obligations.ManagementRequests := by
  unfold Obligations.ManagementRequests
  intro d path hp
  dsimp only
  have free : ∀ {c : Instr} {kind : Nat}, (∀ s : State, exec c s = s.run (onPath path (·.answerFree path kind))) →
      ∃ (bs : Bytes) (n : Nat), True ∧ Becomes c d (({ d with freeCtr := n } : Dev).emit (.mgmt (d.answerPath path) kind 0 bs)) :=
    fun hc => ⟨_, _, trivial, becomes_onPath hp hc rfl⟩
  refine ⟨free fun _ => rfl, free fun _ => rfl, becomes_onPath hp (f := (·.answer path 5 0 [0x12, 0x13])) (fun _ => rfl) rfl, free fun _ => rfl,
    free fun _ => rfl, ⟨_, _, d.freshBytes_length 48, becomes_onPath hp (f := fun d => (d.freshBytes 48).2.answer path 8 0 (d.freshBytes 48).1) (fun _ => rfl) rfl⟩,
    fun n hn => ⟨(d.freshBytes n).1, (d.freshBytes n).2.freeCtr, d.freshBytes_length n, ?_⟩,
    ⟨_, _, d.freshBytes_length 96, becomes_onPath hp (f := fun d => (d.freshBytes 96).2.answer path 10 0 (d.freshBytes 96).1) (fun _ => rfl) rfl⟩,
    fun ix h1 h8 => ⟨_, _, ⟨_, rfl, d.freshBytes_length 96⟩, becomes_measurements hp h1 h8⟩,
    fun body bs e he => ?_, fun slot hslot hu => ?_, fun slot off data last hu hs hlen => ?_,
    fun slot record hu hon => becomes_onPath hp (f := (·.activate path record)) (fun _ => rfl) (Dev.activate_ready hu hon),
    fun hu record => becomes_onPath hp (f := (·.activate path record)) (fun _ => rfl) (Dev.activate_none hu),
    fun blk hblk hq => becomes_onPath hp (f := (·.idmMessage path blk none)) (fun _ => rfl) (Dev.idmMessage_read hblk hq),
    fun blk bs hw => becomes_onPath hp (f := (·.idmMessage path blk (some bs))) (fun _ => rfl) (Dev.idmMessage_refused hw),
    fun q t bs hq hd hpath ht => ⟨_, becomes_of_run (f := Dev.idmDone) (fun _ => rfl) (Dev.idmDone_last (ht ▸ hq) hd hpath), rfl, rfl⟩,
    fun src w hr hrun => ⟨(becomes_idm hr).1 (Dev.wIdmCmd_runs (bitOf_or_read w).1 hrun), (becomes_idm hr).2 (Dev.wIdmCmd_runs (bitOf_or_write w).1 hrun)⟩,
    fun w hr hfree hblk => (becomes_idm hr).2 ?_,
    fun src w hr hfree hq => ⟨(becomes_idm hr).1 (Dev.wIdmCmd_idle hfree hq).1, fun hw => (becomes_idm hr).2 ((Dev.wIdmCmd_idle hfree hq).2 hw)⟩,
    fun addr hf => becomes_of_run (f := fun d => if d.i3cFailed then d else d.setFld Reg.MGT_I3C_STATUS 4 7 addr) (fun _ => rfl)
      (if_neg (Bool.eq_false_iff.1 hf)),
    fun hi => becomes_of_run (f := fun d => if d.fld Reg.MGT_I3C_STATUS 0 2 ≤ 1 then (d.setFld Reg.MGT_I3C_STATUS 0 2 2).emit .i3cRecover else d)
      (fun _ => rfl) (if_pos hi),
    fun hi => ⟨becomes_of_run (f := (·.i3cEnd true)) (fun _ => rfl) (Dev.i3cEnd_high hi),
      fun hn => becomes_of_run (f := (·.i3cEnd false)) (fun _ => rfl) (Dev.i3cEnd_again hi hn),
      fun hn => becomes_of_run (f := (·.i3cEnd false)) (fun _ => rfl) (Dev.i3cEnd_third hi hn)⟩,
    fun src w hr => ⟨fun hf => ?_, ?_⟩, fun p htake hbad hslot => ⟨fun hk hsrc bs e he => ?_, fun hk => ?_⟩⟩
  · refine becomes_onPath hp (f := fun d => (d.freshBytes (n % 65536)).2.answer path 9 0 (d.freshBytes (n % 65536)).1) (fun _ => rfl) ?_
    rw [Nat.mod_eq_of_lt hn]
    rfl
  · refine becomes_onPath hp (f := fun d => (d.mgmtAccess body).2.answer path 13 0 (d.mgmtAccess body).1) (fun _ => rfl) ?_
    rw [he]
  · have asked : (fun d : Dev => if slot < 2 then d.requestUpdate path slot else d) d = if d.boot.slot = some slot then d.answer path 2 1 []
        else { d with aon := { d.aon with upd := some (slot, false) } }.answer path 2 0 [] := (if_pos hslot).trans (Dev.requestUpdate_of hu)
    exact ⟨fun hs => becomes_onPath hp (fun _ => rfl) (asked.trans (if_pos hs)), fun hs => becomes_onPath hp (fun _ => rfl) (asked.trans (if_neg hs))⟩
  · exact ⟨_, becomes_of_run (f := (·.storeWrite off data last)) (fun _ => rfl) (Dev.storeWrite_of hu hs hlen), rfl, contains_writing _ slot last, rfl, rfl⟩
  · rw [Dev.wIdmCmd_go (bitOf_or_write w).1 hfree, (bitOf_or_write w).2, if_pos rfl, show idmWho .bureau = 1 from rfl, idmWritable_bureau hblk]
    rfl
  · exact becomes_of_run (f := (·.guard src Reg.MGT_I3C_CTRL (·.wI3cCtrl (w ||| 1) true))) (fun _ => rfl)
      ((d.guard_of_passes hr _).trans (Dev.wI3cCtrl_high (bitOf_or_one w) hf))
  · exact becomes_of_run (f := (·.guard src Reg.MGT_I3C_CTRL (·.wI3cCtrl (w ||| 1) false))) (fun _ => rfl)
      ((d.guard_of_passes hr _).trans (Dev.wI3cCtrl_low (bitOf_or_one w)))
  · have from_ : (d.held p).hdr.src = (d.freeRegion (d.held p)).fld Reg.BUR_FM 0 16 := by
      rw [hsrc, Dev.fld, Dev.fld, Dev.reg_of_csr (d.freeRegion_boot (d.held p)).2]
    exact (becomes_mgmt htake (Dev.mgmtGot_csr hbad ((d.freeRegion_boot (d.held p)).1 ▸ hslot) hk from_ he)).1
  · exact (becomes_mgmt htake (Dev.mgmtGot_swing hbad ((d.freeRegion_boot (d.held p)).1 ▸ hslot) hk)).2

end Sys2Proof.Machine


namespace Sys2Proof.Machine

/-! ### The cache line of an uncorrectable error (R764) -/

/-- A block whose domain 21 is on and whose hub cache lists set 0 twice, with line 0 both times. -/
def twiceCached : Dev := { csr := [(Reg.PWR_DOMAIN_STATUS, 0x8200000)], cache := [(0, [{ way := 0, line := 0 }]), (0, [{ way := 0, line := 0 }])] }

/-- Line 0 is in error: its first listing goes, and the second reads as set 0 from then on. -/
theorem twiceCached_sramError : (twiceCached.sramError (.cacheLine 0)).cache = [(0, [{ way := 0, line := 0 }])] := by
  have on : twiceCached.domOn 21 = true := by decide
  have logged : (twiceCached.countSram 0xFF 0).cache = twiceCached.cache := by decide
  simp only [Dev.sramError, on, Bool.not_true, Bool.false_eq_true, if_false, Nat.zero_mod]
  change mapSet _ (twiceCached.countSram 0xFF 0).cache 0 _ = _
  rw [logged]
  decide

/-- Refutes O59: the canonical tables that the clause of the hub cache asks for do not include the cache, and where the cache lists a
set twice, an error in its only line takes the first listing away and the line is read in the second. -/
theorem not_powerUp : ¬ Obligations.PowerUp := by
  unfold Obligations.PowerUp
  intro h
  obtain ⟨-, -, -, -, -, -, -, -, -, -, -, -, -, -, -, -, -, -, -, -, -, -, hcache, -⟩ := h twiceCached
  obtain ⟨e, becomes, -, gone⟩ := hcache (by decide) 0
  have ends : Becomes (.bureauSramUncorrectable (.cacheLine 0)) twiceCached (twiceCached.sramError (.cacheLine 0)) :=
    becomes_of_run (f := (·.sramError (.cacheLine 0))) (fun _ => rfl) rfl
  have same := (becomes []).symm.trans (ends [])
  injection same with same
  have cache : e.cache = [(0, [{ way := 0, line := 0 }])] := (congrArg (fun s : State => s.dev.cache) same).trans twiceCached_sramError
  exact gone (by decide) { way := 0, line := 0 } (by rw [cache]; decide) rfl

end Sys2Proof.Machine


namespace Sys2Proof.Machine

/-! ### What a domain that is powered off leaves as it was (R62) -/

/-- Trestle time, the lock of the hub PLL, and whether a cold reset waits for the temperature. -/
def Dev.clock (d : Dev) : Word × Bool × Bool := (d.time, d.hubLocked, d.boot.coldWait)

/-- The clock and the power status of the domains are the same, and the register file stays canonical. -/
structure Dev.Steady (d e : Dev) : Prop where
  clock : e.clock = d.clock
  status : e.reg Reg.PWR_DOMAIN_STATUS = d.reg Reg.PWR_DOMAIN_STATUS
  wf : mapWf csrReset d.csr = true → mapWf csrReset e.csr = true

namespace Dev.Steady

variable {d e f : Dev}

/-- A change beside the register file, time and the PLL. -/
theorem of_csr (hclock : e.clock = d.clock) (hcsr : e.csr = d.csr) : Steady d e :=
  ⟨hclock, Dev.reg_of_csr hcsr _, fun h => hcsr ▸ h⟩

theorem refl (d : Dev) : Steady d d := of_csr rfl rfl

theorem trans (h : Steady d e) (g : Steady e f) : Steady d f :=
  ⟨g.clock.trans h.clock, g.status.trans h.status, fun hwf => g.wf (h.wf hwf)⟩

theorem foldl {α : Type} {step : Dev → α → Dev} {l : List α} (h : ∀ e, ∀ a ∈ l, Steady e (step e a)) (d : Dev) : Steady d (l.foldl step d) := by
  induction l generalizing d with
  | nil => exact refl d
  | cons a l ih => exact (h d a List.mem_cons_self).trans (ih (fun e b hb => h e b (List.mem_cons_of_mem a hb)) _)

theorem setReg {o : Nat} (ho : o ≠ Reg.PWR_DOMAIN_STATUS) (v : Word) : Steady d (d.setReg o v) :=
  ⟨rfl, d.setReg_other o _ v ho.symm, d.setReg_csr_wf o v⟩

theorem setFld {o : Nat} (ho : o ≠ Reg.PWR_DOMAIN_STATUS) (lo w x : Nat) : Steady d (d.setFld o lo w x) := setReg ho _

end Dev.Steady

/-- A register above those of the power domains. -/
theorem ne_status {o : Nat} (h : 0x200010 ≤ o) : o ≠ Reg.PWR_DOMAIN_STATUS := by
  rw [Reg.PWR_DOMAIN_STATUS]
  omega

section Steady

open Dev (Steady)

variable {d : Dev}

theorem Dev.msix_clock (d : Dev) (fn vec : Nat) : (d.msix fn vec).clock = d.clock := by
  rw [Dev.msix]
  split
  · rfl
  · split <;> rfl

theorem Dev.log_clock (d : Dev) (cls code block : Nat) (ctx : Option Nat) (unit detail : Nat) : (d.log cls code block ctx unit detail).clock = d.clock := by
  rw [Dev.log_eq]
  exact Eq.trans (b := ((d.logged cls code block ctx unit detail).msix 0 0).clock) rfl ((Dev.msix_clock _ 0 0).trans rfl)

theorem Dev.log_csr_wf (d : Dev) (cls code block : Nat) (ctx : Option Nat) (unit detail : Nat) (h : mapWf csrReset d.csr = true) :
    mapWf csrReset (d.log cls code block ctx unit detail).csr = true := by
  have table : (d.log cls code block ctx unit detail).csr = (d.logged cls code block ctx unit detail).csr := by
    rw [Dev.log_eq]
    exact (Dev.msix_keeps _ 0 0).1
  rw [table, Dev.logged]
  exact Dev.setReg_csr_wf _ _ _ (Dev.logWords_csr_wf _ _ _ _ _ h)

theorem Dev.steady_log (d : Dev) (cls code block : Nat) (ctx : Option Nat) (unit detail : Nat) : Steady d (d.log cls code block ctx unit detail) :=
  ⟨d.log_clock .., d.log_reg_other _ _ _ _ _ _ (.inr (by decide)), d.log_csr_wf _ _ _ _ _ _⟩

theorem Dev.steady_setPort (d : Dev) (n st : Nat) : Steady d (d.setPort n st) := .setFld (ne_status (by rw [Reg.FAB_P_STATUS]; omega)) _ _ _

/-! #### Ports -/

theorem Dev.steady_unadmit (d : Dev) (n : Nat) : Steady d (d.unadmit n) := by
  have unlinked : Steady d (d.setLink n { d.link n with admitted := false }) := .of_csr rfl rfl
  rw [Dev.unadmit]
  dsimp only
  split
  · exact unlinked.trans (Dev.steady_setPort _ n 2)
  · exact unlinked

theorem Dev.steady_discEnd (d : Dev) (k : Disc) : Steady d (d.discEnd k) := by
  have peer : ∀ n, Reg.FAB_P_PEER n ≠ Reg.PWR_DOMAIN_STATUS := fun n => ne_status (by rw [Reg.FAB_P_PEER]; omega)
  have status : Reg.FAB_DISC_STATUS ≠ Reg.PWR_DOMAIN_STATUS := by decide
  rw [Dev.discEnd]
  refine .trans (.trans (e := { k.ports.foldl _ d with disc := none }) (.trans (.foldl (fun e n _ => ?_) d) (.of_csr rfl rfl))
    (.setFld status _ _ _)) (.setFld status _ _ _)
  dsimp only
  split
  · exact e.steady_unadmit n
  · split
    · exact .setReg (peer n) _
    · split
      · exact .trans (.setReg (peer n) _) (Dev.steady_setPort _ n 4)
      · split
        · exact .trans (.setReg (peer n) _) (.of_csr rfl rfl)
        · exact .setReg (peer n) _

theorem Dev.steady_discBegin (d : Dev) (epoch : Nat) : Steady d (d.discBegin epoch) := by
  have disc : Reg.FAB_DISC_STATUS ≠ Reg.PWR_DOMAIN_STATUS := by decide
  have sent : Steady d (d.fresh.2.upPorts.foldl (Dev.discSend d.fresh.1 epoch) d.fresh.2) :=
    .trans (e := d.fresh.2) (.of_csr rfl rfl) (.foldl (step := Dev.discSend d.fresh.1 epoch) (fun _ _ _ => .of_csr rfl rfl) _)
  rw [Dev.discBegin]
  dsimp only
  split
  · exact sent.trans (Dev.steady_discEnd _ _)
  · refine .trans ?_ (.setFld disc _ _ _)
    exact sent.trans (.of_csr rfl rfl)

theorem Dev.steady_discAbort (d : Dev) (n : Nat) : Steady d (d.discAbort n) := by
  have disc : Reg.FAB_DISC_STATUS ≠ Reg.PWR_DOMAIN_STATUS := by decide
  rw [Dev.discAbort]
  split
  · exact .refl d
  · split
    · exact .refl d
    · dsimp only
      split
      · refine .trans ?_ (.setFld disc _ _ _)
        exact .of_csr rfl rfl
      · exact .trans (.setFld disc _ _ _) (Dev.steady_discBegin _ _)

theorem Dev.steady_portDown (d : Dev) {n : Nat} (hn : n < 32) : Steady d (d.portDown n) := by
  have minor : Reg.BUR_PROTO_MINOR (n / 8) ≠ Reg.PWR_DOMAIN_STATUS := by
    rw [Reg.BUR_PROTO_MINOR, Reg.PWR_DOMAIN_STATUS]
    omega
  have drop : Reg.FAB_DROP ≠ Reg.PWR_DOMAIN_STATUS := by decide
  rw [Dev.portDown]
  split
  · exact .refl d
  · dsimp only
    refine .trans (.trans (.trans (.trans ?_ (.setFld minor _ _ _)) (Dev.steady_setPort _ n 0)) (Dev.steady_log _ _ _ _ _ _ _)) (Dev.steady_discAbort _ n)
    exact .trans (.setFld drop 48 16 (satAdd 16 (d.fld Reg.FAB_DROP 48 16) (d.link n).unacked)) (.of_csr rfl rfl)

theorem Dev.steady_portsOff (d : Dev) {ps : List Nat} (h : ∀ n ∈ ps, n < 32) : Steady d (d.portsOff ps) :=
  .trans (.foldl (fun e n hn => e.steady_portDown (h n hn)) d) (.of_csr rfl rfl)

/-! #### Buffers and messages -/

theorem Dev.steady_cabPut (d : Dev) (b : Buf) : Steady d (d.cabPut b) := by
  have state : Reg.CAB_CTX_P_STATE b.ctx b.pool ≠ Reg.PWR_DOMAIN_STATUS := ne_status (by rw [Reg.CAB_CTX_P_STATE]; omega)
  have res : ∀ x p, Reg.CAB_CTX_P_RES x p ≠ Reg.PWR_DOMAIN_STATUS := fun x p => ne_status (by rw [Reg.CAB_CTX_P_RES]; omega)
  have refill : ∀ (e : Dev) (x p : Nat), Steady e (e.cabRefill x p) := fun e x p => by
    rw [Dev.cabRefill]
    split
    · exact .setFld (res x p) _ _ _
    · exact .refl e
  have owner : ∀ (e : Dev) (b : Buf) (o : Option Nat), Steady e (e.setOwner b o) := fun _ _ _ => .of_csr rfl rfl
  have written : ∀ (e : Dev) (a : Nat) (bs : Bytes), Steady e (e.write a bs) := fun _ _ _ => .of_csr rfl rfl
  rw [Dev.cabPut]
  exact .trans (.trans (.trans (.trans (written _ _ _) (.setFld state _ _ _)) (owner _ _ _)) (.setFld state _ _ _)) (refill _ _ _)

theorem Dev.steady_ckpBack (d : Dev) (b : Buf) : Steady d (d.ckpBack b) := by
  rw [Dev.ckpBack]
  split
  · exact d.steady_cabPut b
  · exact .refl d

theorem Dev.steady_endMsg (d : Dev) (m : NetMsg) : Steady d (d.endMsg m) := by
  have entry : ∀ k, Steady d (d.freeTrkEntry k) := fun _ => .of_csr rfl rfl
  rw [Dev.endMsg]
  cases m.trk <;> cases m.buf
  · exact .refl d
  · exact d.steady_ckpBack _
  · exact entry _
  · exact (entry _).trans (Dev.steady_ckpBack _ _)

theorem Dev.steady_dropMsgs (d : Dev) (p : NetMsg → Bool) : Steady d (d.dropMsgs p) := by
  rw [Dev.dropMsgs]
  refine .trans ?_ (.foldl (fun e m _ => e.steady_endMsg m) _)
  exact .of_csr rfl rfl

/-! #### What a context holds -/

theorem Dev.steady_freePools (d : Dev) (x : Nat) : Steady d (d.freePools x) := by
  have cfg : Reg.CAB_CTX_CFG x ≠ Reg.PWR_DOMAIN_STATUS := ne_status (by rw [Reg.CAB_CTX_CFG]; omega)
  have base : ∀ p, Reg.CAB_CTX_P_BASE x p ≠ Reg.PWR_DOMAIN_STATUS := fun p => ne_status (by rw [Reg.CAB_CTX_P_BASE]; omega)
  have state : ∀ p, Reg.CAB_CTX_P_STATE x p ≠ Reg.PWR_DOMAIN_STATUS := fun p => ne_status (by rw [Reg.CAB_CTX_P_STATE]; omega)
  have res : ∀ p, Reg.CAB_CTX_P_RES x p ≠ Reg.PWR_DOMAIN_STATUS := fun p => ne_status (by rw [Reg.CAB_CTX_P_RES]; omega)
  rw [Dev.freePools]
  refine .trans (.trans ?_ (.setReg cfg 0)) (.foldl (fun e p _ => .trans (.trans (.setReg (base p) 0) (.setReg (state p) 0)) (.setReg (res p) 0)) _)
  exact .of_csr rfl rfl

theorem Dev.steady_freeBias (d : Dev) (x : Nat) : Steady d (d.freeBias x) := by
  have bias : Reg.DRS_CTX_BIAS x ≠ Reg.PWR_DOMAIN_STATUS := ne_status (by rw [Reg.DRS_CTX_BIAS]; omega)
  exact .trans (.setReg bias 0) (.of_csr rfl rfl)

theorem Dev.steady_freeNs (d : Dev) (x : Nat) : Steady d (d.freeNs x) := by
  have info : ∀ k, Reg.CHEST_NS_INFO k ≠ Reg.PWR_DOMAIN_STATUS := fun k => ne_status (by rw [Reg.CHEST_NS_INFO]; omega)
  rw [Dev.freeNs]
  refine .foldl (fun e k _ => ?_) d
  split
  · exact .setFld (info k) _ _ _
  · exact .refl e

theorem Dev.steady_freeSlots (d : Dev) (x : Nat) : Steady d (d.freeSlots x) := by
  have slot : ∀ i, Reg.FPU_SLOT i ≠ Reg.PWR_DOMAIN_STATUS := fun i => ne_status (by rw [Reg.FPU_SLOT]; omega)
  have mod : ∀ f : Ctx → Ctx, Steady d (d.modCtx x f) := fun _ => .of_csr rfl rfl
  rw [Dev.freeSlots]
  refine (mod _).trans (.foldl (fun e s _ => .trans (e := e.setReg (Reg.FPU_SLOT s.slot) 0) (.setReg (slot s.slot) 0) ?_) _)
  exact .of_csr rfl rfl

theorem Dev.steady_hcUnpin (d : Dev) (x : Nat) : Steady d (d.hcUnpin x) := by
  have ways : Reg.CAB_HC_CTX_WAYS x ≠ Reg.PWR_DOMAIN_STATUS := ne_status (by rw [Reg.CAB_HC_CTX_WAYS]; omega)
  have base : Reg.CAB_HC_CTX_PIN_BASE x ≠ Reg.PWR_DOMAIN_STATUS := ne_status (by rw [Reg.CAB_HC_CTX_PIN_BASE]; omega)
  have size : Reg.CAB_HC_CTX_PIN_SIZE x ≠ Reg.PWR_DOMAIN_STATUS := ne_status (by rw [Reg.CAB_HC_CTX_PIN_SIZE]; omega)
  have status : Reg.CAB_HC_STATUS ≠ Reg.PWR_DOMAIN_STATUS := by decide
  rw [Dev.hcUnpin]
  refine .trans (.trans (.trans (.trans ?_ (.setReg ways 0)) (.setReg base 0)) (.setReg size 0)) (.setFld status _ _ _)
  exact .of_csr rfl rfl

theorem Dev.steady_noteHeld (d : Dev) : Steady d d.noteHeld := by
  have held : ∀ x, Reg.TIER_CTX_HELD x ≠ Reg.PWR_DOMAIN_STATUS := fun x => ne_status (by rw [Reg.TIER_CTX_HELD]; omega)
  rw [Dev.noteHeld]
  exact .foldl (fun e x _ => .trans (.setFld (held x) _ _ _) (.setFld (held x) _ _ _)) d

theorem Dev.steady_release (d : Dev) (x : Nat) : Steady d (d.release x) := by
  have place : Reg.DRS_CTX_PLACE_ID x ≠ Reg.PWR_DOMAIN_STATUS := ne_status (by rw [Reg.DRS_CTX_PLACE_ID]; omega)
  have swap : Reg.DRS_CTX_PLACE_SWAP x ≠ Reg.PWR_DOMAIN_STATUS := ne_status (by rw [Reg.DRS_CTX_PLACE_SWAP]; omega)
  have objs : ∀ e : Dev, Steady e (e.freeObjs x) := fun _ => .of_csr rfl rfl
  have mod : ∀ (e : Dev) (f : Ctx → Ctx), Steady e (e.modCtx x f) := fun _ _ => .of_csr rfl rfl
  rw [Dev.release]
  refine .trans (.trans (.trans (.trans (.trans (.trans (.trans (.trans (.trans (.trans ?_ (.setReg place 0)) (.setReg swap 0)) (objs _))
    (Dev.steady_freePools _ x)) (Dev.steady_freeBias _ x)) (Dev.steady_freeNs _ x)) (Dev.steady_freeSlots _ x)) (Dev.steady_hcUnpin _ x))
    (mod _ _)) (Dev.steady_noteHeld _)
  exact .of_csr rfl rfl

/-! #### Units -/

theorem Dev.steady_memOff (d : Dev) (lo hi : Nat) : Steady d (d.memOff lo hi) := .of_csr rfl rfl

theorem Dev.steady_queueOff (d : Dev) (lo hi : Nat) : Steady d (d.queueOff lo hi) := .of_csr rfl rfl

theorem Dev.steady_groupOff (d : Dev) (g : Nat) : Steady d (d.groupOff g) := .of_csr rfl rfl

/-- Domain 21 with the contexts it holds. -/
theorem Dev.steady_hubOff (d : Dev) : Steady d (d.unitOff 21) := by
  have tier : ∀ x, Reg.TIER_CTX_STATE x ≠ Reg.PWR_DOMAIN_STATUS := fun x => ne_status (by rw [Reg.TIER_CTX_STATE]; omega)
  have left : Steady d ((allCtxs.filter d.loaded).foldl (fun (e : Dev) x => (e.release x).setReg (Reg.TIER_CTX_STATE x) 0) d) :=
    .foldl (fun e x _ => .trans (e.steady_release x) (.setReg (tier x) 0)) d
  exact left.trans (.of_csr rfl rfl)

/-- Domain 23 with its messages and snapshots. -/
theorem Dev.steady_portsUnitOff (d : Dev) : Steady d (d.unitOff 23) := by
  have back : Steady d ((d.snaps.flatMap fun e => e.2.early).foldl (fun (e : Dev) p => e.ckpBack p.2) ((d.queueOff 6 6).dropMsgs fun _ => true)) :=
    .trans (.trans (d.steady_queueOff 6 6) (Dev.steady_dropMsgs _ _)) (.foldl (fun e p _ => e.steady_ckpBack p.2) _)
  exact back.trans (.of_csr rfl rfl)

theorem Dev.steady_unitOff (d : Dev) (n : Nat) : Steady d (d.unitOff n) := by
  unfold Dev.unitOff
  split
  · exact d.steady_groupOff n
  · split
    · exact d.steady_portsOff (by decide)
    · exact d.steady_portsOff (by decide)
    · exact .of_csr rfl rfl
    · exact d.steady_hubOff
    · exact .of_csr rfl rfl
    · exact d.steady_portsUnitOff
    · exact .of_csr rfl rfl
    · exact .foldl (fun e n hn => e.steady_portDown ((by decide : ∀ n ∈ upFrom 16 16, n < 32) n hn)) d
    · exact .of_csr rfl rfl
    · exact .refl d

theorem Dev.steady_regsOff (d : Dev) {n : Nat} (hn : n < 27) : Steady d (d.regsOff n) := by
  have kept : (regDomain Reg.PWR_DOMAIN_STATUS != n) = true := bne_iff_ne.2 (by rw [show regDomain Reg.PWR_DOMAIN_STATUS = 27 by decide]; omega)
  refine ⟨rfl, ?_, mapWf_mapKeep csrReset (fun off => regDomain off != n) d.csr⟩
  rw [Dev.reg, Dev.regsOff, mapGet, mapFind_mapKeep, kept, if_pos rfl, Dev.reg, mapGet]

end Steady

/-! ### Powering domains off (R62) -/

section Off

variable (d : Dev)

/-- A domain powered off: it is off, the others are as they were. -/
theorem Dev.domOff_keeps (n : Nat) : (d.domOff n).clock = d.clock ∧ (mapWf csrReset d.csr = true → mapWf csrReset (d.domOff n).csr = true ∧
    ∀ k, k < 28 → (d.domOff n).domOn k = if k = n ∧ n < 27 then false else d.domOn k) := by
  rw [Dev.domOff]
  split
  · next h => exact ⟨rfl, fun hwf => ⟨hwf, fun k _ => (if_neg fun hk => Nat.not_lt.2 h hk.2).symm⟩⟩
  · next h =>
    have steady := (d.steady_unitOff n).trans (Dev.steady_regsOff (d.unitOff n) (Nat.lt_of_not_le h))
    refine ⟨steady.clock, fun hwf => ⟨Dev.setReg_csr_wf _ _ _ (steady.wf hwf), fun k hk => ?_⟩⟩
    have status : (((d.unitOff n).regsOff n).setBit Reg.PWR_DOMAIN_STATUS n false).bit Reg.PWR_DOMAIN_STATUS k =
        if k = n then false else d.bit Reg.PWR_DOMAIN_STATUS k := by
      rw [Dev.setBit, Dev.bit_setFld _ (steady.wf hwf) _ _ _ _ (by omega), Dev.bit, steady.status, Dev.bit]
      by_cases hkn : k = n
      · rw [if_pos (by omega), if_pos hkn, Bool.toNat_false, Nat.zero_testBit]
      · rw [if_neg (by omega), if_neg hkn]
    have on : ∀ e : Dev, e.domOn k = e.bit Reg.PWR_DOMAIN_STATUS k := fun e => by rw [Dev.domOn, decide_eq_true hk, Bool.true_and]
    rw [on, on d]
    refine Eq.trans status ?_
    simp only [Nat.lt_of_not_le h, and_true]

theorem Dev.domOff_clock (n : Nat) : (d.domOff n).clock = d.clock := (d.domOff_keeps n).1

theorem foldl_domOff_off {l : List Nat} (hl : ∀ n ∈ l, n < 27) (d : Dev) (hwf : mapWf csrReset d.csr = true) {k : Nat} (hk : k < 28)
    (h : k ∈ l ∨ d.domOn k = false) : (l.foldl Dev.domOff d).domOn k = false := by
  induction l generalizing d with
  | nil => exact h.resolve_left List.not_mem_nil
  | cons n l ih =>
    obtain ⟨wf, on⟩ := (d.domOff_keeps n).2 hwf
    refine ih (fun m hm => hl m (List.mem_cons_of_mem n hm)) _ wf ?_
    rw [on k hk]
    obtain hmem | hoff := h
    · obtain rfl | hmem := List.mem_cons.1 hmem
      · exact .inr (if_pos ⟨rfl, hl _ List.mem_cons_self⟩)
      · exact .inl hmem
    · exact .inr (by rw [hoff, ite_self])

theorem foldl_domOff_wf (l : List Nat) (hwf : mapWf csrReset d.csr = true) : mapWf csrReset (l.foldl Dev.domOff d).csr = true :=
  foldl_csr_wf (fun e n h => ((e.domOff_keeps n).2 h).1) l d hwf

theorem Dev.allOff_clock : d.allOff.clock = d.clock := foldl_keeps Dev.clock (fun e n => e.domOff_clock n) _ d

theorem Dev.allOff_off (hwf : mapWf csrReset d.csr = true) {n : Nat} (hn : n < 27) : d.allOff.domOn n = false :=
  foldl_domOff_off (fun k hk => by rw [mem_upFrom] at hk; omega) d hwf (by omega) (.inl (by rw [mem_upFrom]; omega))

end Off

end Sys2Proof.Machine


namespace Sys2Proof.Machine

/-! ### Freezes leave the clock, and freeze what is active (R747) -/

section Freezes

variable (d : Dev)

theorem Dev.loosen_clock (rs : List (Nat × Nat)) : (d.loosen rs).clock = d.clock :=
  foldl_keeps Dev.clock (fun e r => by
    rw [Dev.loosenOne]
    split <;> rfl) rs d

theorem Dev.snapFrozen_clock (x : Nat) : (d.snapFrozen x).clock = d.clock := by
  have aborted : (d.snapAbort x 7).clock = d.clock := by
    rw [Dev.snapAbort]
    split
    · rfl
    · exact Eq.trans (foldl_keeps Dev.clock (f := fun (e : Dev) (p : Nat × Buf) => e.ckpBack p.2) (fun e p => (e.steady_ckpBack p.2).clock) _ _)
        (Dev.steady_dropMsgs _ _).clock
  rw [Dev.snapFrozen]
  split
  · split
    · exact aborted
    · rfl
  · rfl

theorem Dev.dropWork_clock (x : Nat) : (d.dropWork x).clock = d.clock := by
  have idle : ∀ e : Dev, (e.stopIdle x).clock = e.clock := fun e => foldl_keeps Dev.clock (fun e p => by split <;> rfl) _ e
  have currents : ∀ e : Dev, (e.leaveCurrents x).clock = e.clock := fun e =>
    foldl_keeps Dev.clock (f := fun (e : Dev) (q : Nat × Cluster) => e.modClu q.1 (leaveCurrent x (e.fld (Reg.MXA_CURR q.1) 8 5))) (fun _ _ => rfl) e.clus e
  have without : ∀ e : Dev, (e.withoutCtx x).clock = e.clock := fun _ => rfl
  rw [Dev.dropWork_eq, idle, currents, without, Dev.snapFrozen_clock, Dev.loosen_clock]

theorem Dev.ctxEvent_clock (x : Nat) : (d.ctxEvent x).clock = d.clock := by
  rw [Dev.ctxEvent]
  refine (foldl_keeps Dev.clock (fun e n => ?_) _ _).trans (d.msix_clock _ _)
  split
  · exact e.msix_clock n 0
  · rfl

theorem Dev.freezeReport_clock (x source unit step : Nat) : (d.freezeReport x source unit step).clock = d.clock :=
  Eq.trans (b := ((d.log 4 source 0xFF (some x) unit step).ctxEvent x).clock) rfl ((Dev.ctxEvent_clock _ x).trans (d.log_clock ..))

theorem Dev.fillRecord_clock (x : Nat) (summary : Word) (detail : Nat) : (d.fillRecord x summary detail).clock = d.clock := rfl

theorem Dev.freeze_clock (x source code sub tr unit detail : Nat) : (d.freeze x source code sub tr unit detail).clock = d.clock := by
  by_cases h : d.freezable x = true
  · have set_ : ∀ (e : Dev) (k : Ctx), (e.setCtx x k).clock = e.clock := fun _ _ => rfl
    rw [Dev.freeze_freezable _ _ _ _ _ _ h, Dev.freezeReport_clock, Dev.dropWork_clock, set_, Dev.fillRecord_clock]
  · by_cases hs : (d.ctx x).state = .frozen
    · rw [Dev.freeze_frozen _ _ _ _ _ _ hs]
      split <;> rfl
    · rw [Dev.freeze_other _ _ _ _ _ _ (Bool.eq_false_iff.2 h) hs]

/-- The contexts once the active ones of a list are frozen. -/
def Dev.freezeActive (d : Dev) (source code sub : Nat) (xs : List Nat) : Dev :=
  xs.foldl (fun e x => if (e.ctx x).state.active then e.freeze x source code sub 0 0 0 else e) d

theorem Dev.freezeActive_clock (source code sub : Nat) (xs : List Nat) : (d.freezeActive source code sub xs).clock = d.clock :=
  foldl_keeps Dev.clock (fun e x => by
    split
    · exact e.freeze_clock ..
    · rfl) xs d

variable {d}

/-- A freeze of an active context: it is frozen, the others are as they were, and the table stays in order. -/
theorem Dev.freeze_active {x : Nat} (source code sub : Nat) (h : (d.ctx x).state.active = true) (rise : keysRise (d.ctxs.map Prod.fst) = true) :
    let e := d.freeze x source code sub 0 0 0
    (e.ctx x).state = .frozen ∧ (∀ y, y ≠ x → e.ctx y = d.ctx y) ∧ keysRise (e.ctxs.map Prod.fst) = true := by
  have filled : (d.fillRecord x (freezeSummary source code sub 0 0) 0).ctxs = d.ctxs := Dev.fillRecord_ctxs ..
  have kept := (d.fillRecord x (freezeSummary source code sub 0 0) 0).frozen_keeps x source 0 (d.ctx x).step.toNat
    { d.ctx x with state := .frozen, phase := 1, holdEnd := d.time.toNat + planHold (d.ctx x).plan * 1600 } (filled ▸ rise)
  obtain ⟨here, others, -⟩ := kept
  dsimp only
  rw [Dev.freeze_freezable _ _ _ _ _ _ ((d.freezable_iff x).2 (.inl h))]
  refine ⟨congrArg Ctx.state here, fun y hy => (others y hy).trans (by rw [Dev.ctx, filled, Dev.ctx]), ?_⟩
  rw [Dev.ctxs_of_work (Dev.freezeReport_work _ _ _ _ _), Dev.dropWork_ctxs]
  exact keysRise_put _ x _ (filled ▸ rise)

theorem Dev.freezeActive_frozen {xs : List Nat} {source code sub y : Nat} (rise : keysRise (d.ctxs.map Prod.fst) = true)
    (h : (d.ctx y).state = .frozen ∨ (y ∈ xs ∧ (d.ctx y).state.active = true)) : ((d.freezeActive source code sub xs).ctx y).state = .frozen := by
  induction xs generalizing d with
  | nil => exact h.resolve_right fun hy => List.not_mem_nil hy.1
  | cons x xs ih =>
    rw [Dev.freezeActive, List.foldl_cons]
    by_cases ha : (d.ctx x).state.active = true
    · obtain ⟨here, others, rise'⟩ := Dev.freeze_active source code sub ha rise
      rw [if_pos ha]
      refine ih rise' ?_
      by_cases hy : y = x
      · exact .inl (hy ▸ here)
      · rw [others y hy]
        exact h.imp_right fun hm => ⟨(List.mem_cons.1 hm.1).resolve_left hy, hm.2⟩
    · rw [if_neg ha]
      refine ih rise (h.imp_right fun hm => ⟨(List.mem_cons.1 hm.1).resolve_left fun hy => ha (by rw [← hy]; exact hm.2), hm.2⟩)

theorem Dev.freezeUsers_clock (d : Dev) (n : Nat) : (d.freezeUsers n).clock = d.clock :=
  foldl_keeps Dev.clock (fun e x => by
    split
    · exact e.freeze_clock ..
    · rfl) allCtxs d

end Freezes

/-! ### The clock through the operations of the always-on controller (R858) -/

section Aon

variable (d : Dev)

theorem Dev.rise_clock (n : Nat) : (d.rise n).clock = d.clock := by
  rw [Dev.rise]
  split <;> rfl

theorem Dev.trainPorts_clock : d.trainPorts.clock = d.clock := by
  rw [Dev.trainPorts]
  refine foldl_keeps Dev.clock (fun e n => ?_) _ d
  split
  · exact (e.steady_setPort n 1).clock
  · rfl

theorem Dev.quote_clock : d.quote.clock = d.clock := by
  have fresh : (d.freshBytes 96).2.clock = d.clock := rfl
  rw [Dev.quote]
  refine (foldl_keeps Dev.clock (fun e k => ?_) _ _).trans fresh
  rfl

theorem Dev.aonOff_clock (n : Nat) : (d.aonOff n).clock = d.clock :=
  foldl_keeps Dev.clock (fun e k => (Dev.domOff_clock _ k).trans (e.freezeUsers_clock k)) _ d

theorem Dev.portDown_clock {n : Nat} (hn : n < 32) : (d.portDown n).clock = d.clock := (d.steady_portDown hn).clock

end Aon

/-! ### Thermal shutdown (R856) -/

theorem Dev.msix_aon (d : Dev) (fn vec : Nat) : (d.msix fn vec).aon = d.aon := by
  rw [Dev.msix]
  split
  · rfl
  · split <;> rfl

theorem Dev.log_aon (d : Dev) (cls code block : Nat) (ctx : Option Nat) (unit detail : Nat) : (d.log cls code block ctx unit detail).aon = d.aon := by
  rw [Dev.log_eq]
  exact Eq.trans (b := ((d.logged cls code block ctx unit detail).msix 0 0).aon) rfl ((Dev.msix_aon _ 0 0).trans rfl)

/-- The log and the alert of a thermal shutdown. -/
def Dev.tripLog (e : Dev) : Dev := ((e.setStage 0).log 7 2 1 none 0 (e.fld Reg.AON_THERM 32 16)).alert 3

section TripLog

variable (e : Dev)

theorem Dev.setStage_alert_aon (n : Nat) (b : Nat) : (e.setStage n).aon = e.aon ∧ (e.alert b).aon = e.aon := ⟨rfl, rfl⟩

theorem Dev.tripLog_aon : e.tripLog.aon = e.aon := by
  rw [Dev.tripLog, (Dev.setStage_alert_aon _ 0 3).2, Dev.log_aon, (Dev.setStage_alert_aon e 0 3).1]

theorem Dev.tripLog_clock : e.tripLog.clock = e.clock := by
  have alert : ∀ e : Dev, (e.alert 3).clock = e.clock := fun _ => rfl
  have stage : (e.setStage 0).clock = e.clock := rfl
  rw [Dev.tripLog, alert, Dev.log_clock, stage]

theorem Dev.tripLog_bit {o : Nat} (h : o < Reg.AON_LOG_STATUS ∨ 0x118000 ≤ o) (i : Nat) : e.tripLog.bit o i = e.bit o i := by
  have alert : ∀ e : Dev, (e.alert 3).reg o = e.reg o := fun _ => rfl
  have stage : (e.setStage 0).reg o = e.reg o := rfl
  rw [Dev.bit, Dev.tripLog, alert, Dev.log_reg_other _ _ _ _ _ _ _ h, stage, Dev.bit]

end TripLog

/-- TRIPPED is set and THERMTRIP_N pulled. -/
def Dev.trip (e : Dev) (a : Aon) : Dev := ({ e with aon := a } : Dev).setBit Reg.AON_THERM 16 true

theorem Dev.trip_keeps (e : Dev) (a : Aon) : (e.trip a).aon = a ∧ (e.trip a).clock = e.clock ∧ (e.trip a).csr = (e.setBit Reg.AON_THERM 16 true).csr :=
  ⟨rfl, rfl, rfl⟩

theorem Dev.trip_bit (e : Dev) (a : Aon) (o i : Nat) : (e.trip a).bit o i = (e.setBit Reg.AON_THERM 16 true).bit o i := by
  rw [Dev.bit, Dev.reg_of_csr (e.trip_keeps a).2.2, Dev.bit]

theorem Dev.thermalOff_eq (d : Dev) : d.thermalOff = (d.allOff.trip { d.aon with thermtrip := true }).tripLog := by
  rw [Dev.thermalOff, Dev.tripLog, Dev.trip]

theorem Dev.thermalOff_clock (d : Dev) : d.thermalOff.clock = d.clock := by
  rw [Dev.thermalOff_eq, Dev.tripLog_clock, (Dev.trip_keeps _ _).2.1, Dev.allOff_clock]

theorem Dev.thermalOff_off (d : Dev) (hwf : mapWf csrReset d.csr = true) :
    d.thermalOff.aon.thermtrip = true ∧ d.thermalOff.bit Reg.AON_THERM 16 = true ∧ ∀ n, n < 27 → d.thermalOff.domOn n = false := by
  have wf : mapWf csrReset d.allOff.csr = true := foldl_domOff_wf d _ hwf
  rw [Dev.thermalOff_eq]
  refine ⟨congrArg Aon.thermtrip (Dev.tripLog_aon _), ?_, fun n hn => ?_⟩
  · rw [Dev.tripLog_bit _ (.inl (by decide)), Dev.trip_bit, Dev.setBit, Dev.bit_setFld _ wf _ _ _ _ (by decide)]
    rfl
  · rw [← d.allOff_off hwf hn, Dev.domOn, Dev.tripLog_bit _ (.inr (by decide)), Dev.trip_bit, Dev.setBit, Dev.setFld, Dev.bit_setReg_other _ _ (by decide), Dev.domOn]

end Sys2Proof.Machine


namespace Sys2Proof.Machine

/-! ### PWR_DOMAIN_CTRL (R847 to R850) -/

/-- A command that passes its checks has one of its three bits. -/
theorem Dev.domCode_one {d : Dev} {n : Nat} {off on reset : Bool} (h : d.domCode n off on reset = 0) :
    off.toNat + on.toNat + reset.toNat ≤ 1 := by
  refine Nat.le_of_not_lt fun many => ?_
  rw [Dev.domCode, if_pos (by simp only [many, decide_true, Bool.or_true])] at h
  exact absurd h (by decide)

theorem bitOf_or_own (w : Word) : bitOf (w ||| 0x100) 8 = true ∧ bitOf (w ||| 0x200) 9 = true ∧ bitOf (w ||| 0x400) 10 = true := by
  simp [bitOf]

/-- The block once a command's code stands in PWR_DOMAIN_STATUS. -/
def Dev.domShown (d : Dev) (w : Word) : Dev :=
  let p := d.plainWrite Reg.PWR_DOMAIN_CTRL w
  (p.setFld Reg.PWR_DOMAIN_STATUS 32 8 (p.domCode (fieldOf w 0 5) (bitOf w 8) (bitOf w 9) (bitOf w 10))).setFld Reg.PWR_DOMAIN_STATUS 40 5 (fieldOf w 0 5)

section Domain

variable {d : Dev} {w : Word} (h : d.bit Reg.PWR_DOMAIN_STATUS 28 = false)

theorem Dev.wDomain_runs (h : d.bit Reg.PWR_DOMAIN_STATUS 28 = true) : d.wDomain w = d.logDiscard Reg.PWR_DOMAIN_CTRL := by
  simp only [Dev.wDomain, h, if_true]

include h

theorem Dev.wDomain_refused (hany : (!bitOf w 8 && !bitOf w 9 && !bitOf w 10) = false)
    (hc : (d.plainWrite Reg.PWR_DOMAIN_CTRL w).domCode (fieldOf w 0 5) (bitOf w 8) (bitOf w 9) (bitOf w 10) ≠ 0) :
    d.wDomain w = (d.domShown w).log 8 ((d.plainWrite Reg.PWR_DOMAIN_CTRL w).domCode (fieldOf w 0 5) (bitOf w 8) (bitOf w 9) (bitOf w 10)) 2 none
      (fieldOf w 0 5) w.toNat := by
  simp only [Dev.wDomain, h, Bool.false_eq_true, if_false, hany, hc, ne_eq, not_false_eq_true, if_true, Dev.domShown]

variable (hc : (d.plainWrite Reg.PWR_DOMAIN_CTRL w).domCode (fieldOf w 0 5) (bitOf w 8) (bitOf w 9) (bitOf w 10) = 0)
include hc

theorem Dev.wDomain_off (hoff : bitOf w 8 = true) : d.wDomain w = (d.domShown w).domOff (fieldOf w 0 5) := by
  simp only [Dev.wDomain, h, Bool.false_eq_true, if_false, hoff, Bool.not_true, Bool.false_and, hoff ▸ hc, ne_eq, not_true, if_true, Dev.domShown]

theorem Dev.wDomain_on (hon : bitOf w 9 = true) (hs : (d.domShown w).domOn (fieldOf w 0 5) = false) :
    d.wDomain w = ((d.domShown w).rise (fieldOf w 0 5)).setBit Reg.PWR_DOMAIN_STATUS 28 true := by
  have one := Dev.domCode_one hc
  have off : bitOf w 8 = false := by
    refine Bool.eq_false_iff.2 fun hb => ?_
    rw [hb, hon, Bool.toNat_true] at one
    omega
  rw [off, hon] at hc
  simp only [Dev.domShown, off, hon, hc] at hs
  simp only [Dev.wDomain, Dev.domShown, h, off, hon, hc, hs, Bool.not_true, Bool.and_false, Bool.false_and, Bool.false_eq_true, ne_eq, not_true,
    if_false, if_true]

theorem Dev.wDomain_reset (hreset : bitOf w 10 = true) (hs : (d.domShown w).domOn (fieldOf w 0 5) = true) :
    d.wDomain w = (((d.domShown w).domOff (fieldOf w 0 5)).rise (fieldOf w 0 5)).setBit Reg.PWR_DOMAIN_STATUS 28 true := by
  have one := Dev.domCode_one hc
  have off : bitOf w 8 = false := by
    refine Bool.eq_false_iff.2 fun hb => ?_
    rw [hb, hreset, Bool.toNat_true] at one
    omega
  have on : bitOf w 9 = false := by
    refine Bool.eq_false_iff.2 fun hb => ?_
    rw [hb, hreset, Bool.toNat_true] at one
    omega
  rw [off, on, hreset] at hc
  simp only [Dev.domShown, off, on, hreset, hc] at hs
  simp only [Dev.wDomain, Dev.domShown, h, off, on, hreset, hc, hs, Bool.not_true, Bool.and_false, Bool.false_eq_true, ne_eq, not_true,
    if_false, if_true]

end Domain

/-! ### The codes of PWR_DOMAIN_CTRL (R848) -/

section Codes

variable {d : Dev} {n : Nat}

theorem Dev.domCode_range (h : n = 24 ∨ n = 26 ∨ 27 ≤ n) : d.domCode n true false false = 8 := by
  have bad : (decide (n = 24) || decide (n = 26) || decide (27 ≤ n)) = true := by
    simp only [Bool.or_eq_true, decide_eq_true_eq]
    omega
  simp only [Dev.domCode, bad, Bool.true_or, if_true]

variable (hn : n < 27) (h24 : n ≠ 24) (h26 : n ≠ 26)
include hn h24 h26

theorem Dev.domCode_held (h : d.domHeld n = true) : d.domCode n true false false = 9 := by
  simp only [Dev.domCode, h24, h26, Nat.not_le.2 hn, h]
  rfl

theorem Dev.domCode_dependent (h : d.domHeld n = false) (hk : ∃ k, k < 27 ∧ prereq k = some n ∧ d.domOn k = true) :
    d.domCode n true false false = 0xA := by
  obtain ⟨k, hk, hp, hon⟩ := hk
  have dep : (dependents n).any d.domOn = true :=
    List.any_eq_true.2 ⟨k, List.mem_filter.2 ⟨mem_upFrom.2 (by omega), by rw [hp]; exact beq_self_eq_true _⟩, hon⟩
  simp only [Dev.domCode, h24, h26, Nat.not_le.2 hn, h, dep]
  rfl

theorem Dev.domCode_prereq {k : Nat} (hp : prereq n = some k) (h : d.domOn k = false) : d.domCode n false true false = 0xB := by
  simp only [Dev.domCode, h24, h26, Nat.not_le.2 hn, hp, Option.any_some, h]
  rfl

end Codes

/-! ### AON_OP (R858 to R860) -/

/-- An operation's number and argument stand in the word that is written. -/
theorem aonWord_fields {op arg : Nat} (hop : op < 16) (harg : arg < 2 ^ 16) : fieldOf (aonWord op arg) 0 8 = op ∧ fieldOf (aonWord op arg) 16 32 = arg := by
  have small : op + arg % 2 ^ 32 * 65536 < 2 ^ 64 := by omega
  rw [aonWord, fieldOf_ofNat small, fieldOf_ofNat small]
  omega

/-- AON_OP_STATUS shows an operation that runs. -/
def Dev.aonShown (d : Dev) (op : Nat) : Dev :=
  ((d.setFld Reg.AON_OP_STATUS 0 8 op).setFld Reg.AON_OP_STATUS 8 8 0).setBit Reg.AON_OP_STATUS 16 true

/-- An operation that runs, on an argument and with its code. -/
def Dev.aonRuns (e : Dev) (op arg code : Nat) : Dev :=
  { e with aon := { e.aon with op := some { op := op, arg := arg, code := code, since := e.time.toNat } } }

section AonOp

variable {d e : Dev} {src : Master} {op arg : Nat} (hs : src ≠ .host) (hb : d.bit Reg.AON_OP_STATUS 16 = false)
include hs hb

theorem Dev.wAonOp_of (hop : op < 16) (harg : arg < 2 ^ 16) (h9 : op ≠ 9)
    (hrun : (if op = 1 then (d.aonShown op).setBit Reg.AON_OP_STATUS 17 false else d.aonShown op).aonRun op arg = (0, e)) (ht : e.clock = d.clock) :
    d.wAonOp src (aonWord op arg) = e.aonRuns op arg 0 := by
  have time : e.time = d.time := congrArg Prod.fst ht
  have shown : (if op = 1 then (d.aonShown op).setBit Reg.AON_OP_STATUS 17 false else d.aonShown op).time = d.time := by split <;> rfl
  simp only [Dev.aonShown] at hrun shown
  simp only [Dev.wAonOp, hs, hb, (aonWord_fields hop harg).1, (aonWord_fields hop harg).2, hrun, h9, shown, if_false, Bool.false_eq_true, Dev.aonRuns, time]

theorem Dev.wAonOp_cold (hcool : (d.aonShown 9).anyAt 85 = false) : d.wAonOp src (aonWord 9 0) = ((d.aonShown 9).aonRuns 9 0 0).coldReset := by
  have cool : ((d.aonShown 9).aonRuns 9 0 0).anyAt 85 = false := hcool
  have request : ((d.aonShown 9).aonRuns 9 0 0).coldRequest = ((d.aonShown 9).aonRuns 9 0 0).coldReset := by
    rw [Dev.coldRequest, cool, if_neg Bool.false_ne_true]
  rw [← request]
  simp only [Dev.wAonOp, hs, hb, (aonWord_fields (op := 9) (arg := 0) (by decide) (by decide)).1,
    (aonWord_fields (op := 9) (arg := 0) (by decide) (by decide)).2, Dev.aonRun, if_false, if_true, Bool.false_eq_true]
  rfl

end AonOp

end Sys2Proof.Machine


namespace Sys2Proof.Machine

/-! ### What each operation does (R858) -/

section Operations

variable {d : Dev}

theorem Dev.aonRun_teardown {x : Nat} (hx : x < 8) (ha : (d.ctx x).state.active = true) :
    d.aonRun 1 x = (0, (d.freeze x 0xA 0 0 0 0 0).endHold x) := by
  simp only [Dev.aonRun, Nat.not_le.2 hx, ha, if_false, if_true]

theorem Dev.aonRun_port {n : Nat} (hn : n < 32) :
    d.aonRun 2 n = (0, { d with linkOff := mapSet (fun _ => false) d.linkOff n true }.portDown n) ∧
      d.aonRun 3 n = (0, { d with linkOff := mapSet (fun _ => false) d.linkOff n false }.trainPorts) := by
  simp only [Dev.aonRun, Nat.not_le.2 hn, if_false]
  exact ⟨trivial, trivial⟩

theorem Dev.aonRun_domain {n : Nat} (hn : n < 27) :
    (n ≠ 26 → d.aonRun 4 n = (0, ((d.freezeUsers n).domOff n).rise n)) ∧ d.aonRun 5 n = (0, d.aonOff n) ∧
      ((∀ k, prereq n = some k → d.domOn k = true) → d.bit Reg.AON_THERM 16 = false → d.aonRun 6 n = (0, d.rise n)) := by
  refine ⟨fun h26 => ?_, ?_, fun hp ht => ?_⟩
  · simp only [Dev.aonRun, Nat.not_le.2 hn, if_false, Dev.aonReset, h26, decide_false, Bool.false_and, Bool.false_eq_true]
  · simp only [Dev.aonRun, Nat.not_le.2 hn, if_false]
  · have ready : ((prereq n).any (fun k => !d.domOn k)) = false := by
      cases h : prereq n with
      | none => rfl
      | some k => rw [Option.any_some, hp k h, Bool.not_true]
    simp only [Dev.aonRun, Nat.not_le.2 hn, if_false, ready, ht, Bool.or_self, Bool.false_eq_true]

end Operations

/-- A master's operation of AON_OP that the register takes. -/
theorem becomes_aonOp {d : Dev} {src : Master} (h : d.refusal src Reg.AON_OP true = none) {c : Instr} {op arg : Nat} {e : Dev}
    (hc : ∀ s : State, exec c s = s.run (·.aonOp src op arg)) (he : d.wAonOp src (aonWord op arg) = e) : Becomes c d e :=
  becomes_of_run hc ((d.guard_of_passes h _).trans he)

/-! ### The end of an operation (R860, R861) -/

theorem Dev.uses_hub {d : Dev} {x : Nat} (h : d.loaded x = true) : d.uses x 21 = true := by
  simp only [Dev.uses, h, Bool.true_and]
  rfl

theorem Dev.escalate_of {d : Dev} {o : AonOp} (ho : d.aon.op = some o) (h1 : o.op = 1) (hl : d.loaded o.arg = true)
    (ht : o.since + 160000000 ≤ d.time.toNat) : d.escalate =
      (((upFrom 0 27).filter (d.uses o.arg)).foldl Dev.aonReset (((upFrom 0 27).filter (d.uses o.arg)).foldl Dev.freezeUsers d)).setBit
        Reg.AON_OP_STATUS 17 true := by
  simp only [Dev.escalate, ho, h1, hl, Nat.not_lt.2 ht, ne_eq, not_true, decide_false, Bool.not_true, Bool.or_self, Bool.false_eq_true, if_false]

/-! ### Measurement requests (R842) -/

theorem bitOf_or_eight (w : Word) : bitOf (w ||| 8) 3 = true := by
  simp [bitOf]

theorem Dev.wMrExtend_low {d : Dev} {w : Word} (hw : bitOf w 3 = true) (hm : fieldOf w 0 3 < 3) :
    d.wMrExtend .bureau w = d.logDiscard Reg.AON_MR_EXTC := by
  simp only [Dev.wMrExtend, hw, hm, ne_eq, not_true, if_false, Bool.not_true, Bool.false_eq_true, if_true]

theorem Dev.wMrExtend_high {d : Dev} {w : Word} (hw : bitOf w 3 = true) (hm : 3 ≤ fieldOf w 0 3) :
    d.wMrExtend .bureau w = (d.plainWrite Reg.AON_MR_EXTC w).mrExtend (fieldOf w 0 3)
      ((upFrom 0 6).flatMap fun k => leBytes 8 (d.reg (Reg.AON_MR_EXT k)).toNat) := by
  simp only [Dev.wMrExtend, hw, Nat.not_lt.2 hm, ne_eq, not_true, if_false, Bool.not_true, Bool.false_eq_true]

/-! ### The fast clock (R853, R854) -/

theorem Dev.setClk_fld (d : Dev) {n : Nat} (why : Nat) (hwf : mapWf csrReset d.csr = true) (hn : n < 2 ^ 11) :
    (d.setClk n why).fld Reg.PWR_CLK 16 11 = n := by
  have wf : mapWf csrReset (d.setFld Reg.PWR_CLK 16 11 n).csr = true := d.setReg_csr_wf _ _ hwf
  rw [Dev.setClk, Dev.fld_setFld_other _ _ _ _ _ _ (by decide), Dev.fld_setFld_beside _ wf _ _ (by decide) (.inl (by decide)),
    d.fld_setFld_same _ _ hwf (by decide), Nat.mod_eq_of_lt hn]

theorem Dev.setClk_aon (d : Dev) (n why : Nat) : (d.setClk n why).aon = d.aon := rfl

theorem clampClk_le (f : Nat) : clampClk f ≤ 1200 := Nat.min_le_left _ _

theorem Dev.fld_lt (d : Dev) (o lo w : Nat) : d.fld o lo w < 2 ^ w := fieldOf_lt _ _ _

/-- The limits of a pass of the loop and its clock. -/
theorem Dev.clockTick_of (d : Dev) (hwf : mapWf csrReset d.csr = true) :
    let t := toSigned 16 (d.fld Reg.AON_THERM 32 16)
    let lim : Int := d.fld Reg.AON_THERM 0 8
    let p := d.fld Reg.AON_POWER 0 16
    let cap := d.fld Reg.PWR_CAP 0 12
    let fT := clampClk (if lim * 16 ≤ t then d.aon.fT - 50 else if t < (lim - 5) * 16 then d.aon.fT + 50 else d.aon.fT)
    let fP := clampClk (if cap < p then d.aon.fP - 50 else if p + 50 < cap then d.aon.fP + 50 else d.aon.fP)
    d.clockTick.aon.fT = fT ∧ d.clockTick.aon.fP = fP ∧
      d.clockTick.fld Reg.PWR_CLK 16 11 = if d.braked then 600 else min (d.fld Reg.PWR_CLK 0 11) (min fT fP) := by
  intro t lim p cap fT fP
  have small : (if d.braked then 600 else min (d.fld Reg.PWR_CLK 0 11) (min fT fP)) < 2 ^ 11 := by
    have := clampClk_le (if lim * 16 ≤ t then d.aon.fT - 50 else if t < (lim - 5) * 16 then d.aon.fT + 50 else d.aon.fT)
    split
    · decide
    · exact Nat.lt_of_le_of_lt (Nat.le_trans (Nat.min_le_right _ _) (Nat.min_le_left _ _)) (Nat.lt_of_le_of_lt this (by decide))
  have alert : ∀ e : Dev, (e.alert 3).csr = e.csr := fun _ => rfl
  have warned : ∀ q : Bool, mapWf csrReset (if q then (d.log 7 1 1 none (d.fld Reg.AON_THERM 24 6) (d.fld Reg.AON_THERM 32 16)).alert 3 else d).csr = true := by
    intro q
    split
    · rw [alert]
      exact d.log_csr_wf _ _ _ _ _ _ hwf
    · exact hwf
  simp only [Dev.clockTick, Dev.setClk_aon, decide_eq_true_eq]
  exact ⟨rfl, rfl, Dev.setClk_fld _ _ (warned _) small⟩

end Sys2Proof.Machine


namespace Sys2Proof.Machine

/-! ### Tables written key by key -/

section Writes

variable {α : Type} [DecidableEq α] {dflt : Nat → α}

/-- A table once the entries of a list of keys are written. -/
def mapSets (dflt : Nat → α) (o : Nat → Nat) (v : Nat → α) (l : List Nat) (m : SMap α) : SMap α := l.foldl (fun m k => mapSet dflt m (o k) (v k)) m

theorem mapGet_mapSets_other {o : Nat → Nat} {v : Nat → α} {l : List Nat} {m : SMap α} {j : Nat} (h : ∀ k ∈ l, j ≠ o k) :
    mapGet dflt (mapSets dflt o v l m) j = mapGet dflt m j := by
  induction l generalizing m with
  | nil => rfl
  | cons k l ih =>
    exact (ih fun i hi => h i (List.mem_cons_of_mem k hi)).trans (mapGet_mapSet_other dflt m (o k) j (v k) (h k List.mem_cons_self))

/-- An entry reads as written, the keys of the others being others. -/
theorem mapGet_mapSets_same {o : Nat → Nat} (inj : ∀ i k, o i = o k → i = k) {v : Nat → α} {l : List Nat} {m : SMap α}
    (rise : keysRise (m.map Prod.fst) = true) {j : Nat} (hj : j ∈ l) : mapGet dflt (mapSets dflt o v l m) (o j) = v j := by
  induction l generalizing m with
  | nil => exact absurd hj List.not_mem_nil
  | cons k l ih =>
    have rise' : keysRise ((mapSet dflt m (o k) (v k)).map Prod.fst) = true := keysRise_put m (o k) _ rise
    by_cases hl : j ∈ l
    · exact ih rise' hl
    · obtain rfl : j = k := (List.mem_cons.1 hj).resolve_right hl
      have last : mapGet dflt (mapSets dflt o v l (mapSet dflt m (o j) (v j))) (o j) = mapGet dflt (mapSet dflt m (o j) (v j)) (o j) :=
        mapGet_mapSets_other fun i hi h => hl (by rw [inj j i h]; exact hi)
      exact last.trans (mapGet_mapSet_same dflt m (o j) (v j) rise)

theorem mapSets_wf {o : Nat → Nat} {v : Nat → α} {l : List Nat} {m : SMap α} (h : mapWf dflt m = true) : mapWf dflt (mapSets dflt o v l m) = true := by
  induction l generalizing m with
  | nil => exact h
  | cons k l ih => exact ih (mapWf_mapSet dflt m (o k) (v k) h)

omit [DecidableEq α] in
/-- An entry that reads as something else than an unlisted one is listed. -/
theorem mem_of_mapGet {m : SMap α} {k : Nat} {v : α} (h : mapGet dflt m k = v) (hv : v ≠ dflt k) : (k, v) ∈ m := by
  induction m with
  | nil => exact absurd h.symm hv
  | cons e m ih =>
    obtain ⟨k', v'⟩ := e
    simp only [mapGet, mapFind] at h
    split at h
    · next hk =>
      rw [Option.getD_some] at h
      rw [hk, h]
      exact List.mem_cons_self
    · exact List.mem_cons_of_mem _ (ih h)

end Writes

/-- Registers written one after the other. -/
theorem foldl_setReg_csr (o : Nat → Nat) (v : Nat → Word) (l : List Nat) (d : Dev) :
    (l.foldl (fun e k => e.setReg (o k) (v k)) d).csr = mapSets csrReset o v l d.csr := by
  induction l generalizing d with
  | nil => rfl
  | cons k l ih => exact ih (d.setReg (o k) (v k))

/-! ### Samples of the sensors (R856, R866) -/

/-- The word of AON_TEMPk: four readings of 16 bits. -/
def tempWord (ts : List Nat) (k : Nat) : Nat :=
  (upFrom 0 4).foldl (fun v j => v + (if 4 * k + j < 34 then ts.getD (4 * k + j) 0 % 65536 else 0) * 65536 ^ j) 0

/-- A reading of 16 bits, 0 beyond the 34 sensors. -/
def reading (ts : List Nat) (k : Nat) : Nat := if k < 34 then ts.getD k 0 % 65536 else 0

theorem reading_lt (ts : List Nat) (k : Nat) : reading ts k < 65536 := by
  rw [reading]
  split
  · exact Nat.mod_lt _ (by decide)
  · decide

theorem foldl_add_four (f : Nat → Nat) : (upFrom 0 4).foldl (fun v j => v + f j) 0 = f 0 + f 1 + f 2 + f 3 := by
  have four : upFrom 0 4 = [0, 1, 2, 3] := by decide
  simp only [four, List.foldl_cons, List.foldl_nil, Nat.zero_add]

theorem tempWord_eq (ts : List Nat) (k : Nat) : tempWord ts k =
    reading ts (4 * k) + reading ts (4 * k + 1) * 65536 + reading ts (4 * k + 2) * 4294967296 + reading ts (4 * k + 3) * 281474976710656 := by
  have sum : tempWord ts k = reading ts (4 * k) * 65536 ^ 0 + reading ts (4 * k + 1) * 65536 ^ 1 + reading ts (4 * k + 2) * 65536 ^ 2 +
      reading ts (4 * k + 3) * 65536 ^ 3 := foldl_add_four fun j => reading ts (4 * k + j) * 65536 ^ j
  have two : 65536 ^ 2 = 4294967296 := by decide
  have three : 65536 ^ 3 = 281474976710656 := by decide
  rw [sum, Nat.pow_zero, Nat.mul_one, Nat.pow_one, two, three]

/-- The fields of a register of temperatures. -/
theorem fieldOf_tempWord (ts : List Nat) (k : Nat) {j : Nat} (hj : j < 4) :
    fieldOf (BitVec.ofNat 64 (tempWord ts k)) (16 * j) 16 = reading ts (4 * k + j) := by
  have r0 := reading_lt ts (4 * k)
  have r1 := reading_lt ts (4 * k + 1)
  have r2 := reading_lt ts (4 * k + 2)
  have r3 := reading_lt ts (4 * k + 3)
  rw [tempWord_eq, fieldOf_ofNat (by omega)]
  obtain rfl | hj := Nat.eq_zero_or_pos j
  · rw [Nat.mul_zero, Nat.pow_zero, Nat.div_one, show 4 * k + 0 = 4 * k from rfl]
    omega
  · obtain rfl | rfl | rfl : j = 1 ∨ j = 2 ∨ j = 3 := by omega
    · omega
    · omega
    · omega

/-- The registers as a sample stores them. -/
def Dev.sensed (d : Dev) (ts : List Nat) (power : Nat) : Dev :=
  let d := (upFrom 0 9).foldl (fun e k => e.setReg (Reg.AON_TEMP k) (BitVec.ofNat 64 (tempWord ts k))) d
  let d := (d.setFld Reg.AON_THERM 24 6 (hottest ts).1).setFld Reg.AON_THERM 32 16 (hottest ts).2
  (d.setFld Reg.AON_POWER 0 16 power).setFld Reg.AON_POWER 16 16 (max (power % 65536) (d.fld Reg.AON_POWER 16 16))

/-- The samples in a row at 105 degrees or more, of each sensor. -/
def hotRuns (ts : List Nat) (hots : SMap Nat) : SMap Nat :=
  mapSets (fun _ => 0) (fun k => k) (fun k => if 1680 ≤ toSigned 16 (ts.getD k 0) then mapGet (fun _ => 0) hots k + 1 else 0) (upFrom 0 34) hots

theorem Dev.sensed_aon (d : Dev) (ts : List Nat) (power : Nat) : (d.sensed ts power).aon = d.aon := by
  have field : ∀ (e : Dev) (o lo w x : Nat), (e.setFld o lo w x).aon = e.aon := fun _ _ _ _ _ => rfl
  simp only [Dev.sensed, field]
  exact foldl_keeps Dev.aon (f := fun (e : Dev) k => e.setReg (Reg.AON_TEMP k) (BitVec.ofNat 64 (tempWord ts k))) (fun _ _ => rfl) _ d

/-- The block once the runs of hot samples are counted too. -/
def Dev.countHot (e : Dev) (hots : SMap Nat) : Dev := { e with aon := { e.aon with hots := hots } }

/-- What follows a sample: the shutdown of four hot samples in a row, and a cold reset that waits for the temperature. -/
def Dev.coolDown (e : Dev) (hots : SMap Nat) : Dev :=
  let e := if hots.any (fun e => decide (4 ≤ e.2)) && !e.bit Reg.AON_THERM 16 then e.thermalOff else e
  if e.boot.coldWait && !e.anyAt 85 then e.coldReset else e

theorem Dev.sample_eq (d : Dev) (ts : List Nat) (power : Nat) : d.sample ts power =
    ((d.sensed ts power).countHot (hotRuns ts (d.sensed ts power).aon.hots)).coolDown (hotRuns ts (d.sensed ts power).aon.hots) := by
  unfold Dev.sample
  extract_lets e1 h e2 e3 hots aon e4 e5
  have sensed : e3 = d.sensed ts power := rfl
  have runs : hots = hotRuns ts e3.aon.hots := rfl
  have counted : e4 = e3.countHot hots := rfl
  have tripped : e5 = if hots.any (fun e => decide (4 ≤ e.2)) && !e4.bit Reg.AON_THERM 16 then e4.thermalOff else e4 := rfl
  clear_value e5 e4 aon hots e3
  rw [tripped, counted, runs, sensed, Dev.coolDown]

section Sensed

variable (d : Dev) (ts : List Nat) (power : Nat)

/-- The registers of the temperatures as a sample stores them. -/
def Dev.temps (d : Dev) (ts : List Nat) : Dev := (upFrom 0 9).foldl (fun e k => e.setReg (Reg.AON_TEMP k) (BitVec.ofNat 64 (tempWord ts k))) d

theorem Dev.temps_csr : (d.temps ts).csr = mapSets csrReset Reg.AON_TEMP (fun k => BitVec.ofNat 64 (tempWord ts k)) (upFrom 0 9) d.csr :=
  foldl_setReg_csr Reg.AON_TEMP (fun k => BitVec.ofNat 64 (tempWord ts k)) (upFrom 0 9) d

theorem AON_TEMP_inj (i k : Nat) (h : Reg.AON_TEMP i = Reg.AON_TEMP k) : i = k := by
  simp only [Reg.AON_TEMP] at h
  omega

theorem Dev.sensed_eq : d.sensed ts power =
    ((((d.temps ts).setFld Reg.AON_THERM 24 6 (hottest ts).1).setFld Reg.AON_THERM 32 16 (hottest ts).2).setFld Reg.AON_POWER 0 16 power).setFld
      Reg.AON_POWER 16 16 (max (power % 65536)
        ((((d.temps ts).setFld Reg.AON_THERM 24 6 (hottest ts).1).setFld Reg.AON_THERM 32 16 (hottest ts).2).fld Reg.AON_POWER 16 16)) := by
  rw [Dev.sensed, Dev.temps]

theorem Dev.sensed_clock : (d.sensed ts power).clock = d.clock := by
  have field : ∀ (e : Dev) (o lo w x : Nat), (e.setFld o lo w x).clock = e.clock := fun _ _ _ _ _ => rfl
  rw [Dev.sensed_eq, field, field, field, field, Dev.temps]
  exact foldl_keeps Dev.clock (f := fun (e : Dev) k => e.setReg (Reg.AON_TEMP k) (BitVec.ofNat 64 (tempWord ts k))) (fun _ _ => rfl) _ d

variable {d} (hwf : mapWf csrReset d.csr = true)
include hwf

theorem Dev.temps_wf : mapWf csrReset (d.temps ts).csr = true := by
  rw [Dev.temps_csr]
  exact mapSets_wf hwf

theorem Dev.temps_reg {k : Nat} (hk : k < 9) : (d.temps ts).reg (Reg.AON_TEMP k) = BitVec.ofNat 64 (tempWord ts k) := by
  have rise : keysRise (d.csr.map Prod.fst) = true := by
    simp only [mapWf, Bool.and_eq_true] at hwf
    exact hwf.1
  rw [Dev.reg, Dev.temps_csr]
  exact mapGet_mapSets_same (o := Reg.AON_TEMP) AON_TEMP_inj rise (mem_upFrom.2 ⟨Nat.zero_le k, by omega⟩)

/-- The registers of the temperatures, the hottest sensor and the power read as sampled. -/
theorem Dev.sensed_fields : mapWf csrReset (d.sensed ts power).csr = true ∧ (d.sensed ts power).fld Reg.AON_POWER 0 16 = power % 65536 ∧
    (∀ k, k < 34 → (d.sensed ts power).fld (Reg.AON_TEMP (k / 4)) (16 * (k % 4)) 16 = ts.getD k 0 % 65536) ∧
    (d.sensed ts power).fld Reg.AON_THERM 32 16 = (hottest ts).2 % 65536 ∧
    (d.sensed ts power).bit Reg.AON_THERM 16 = d.bit Reg.AON_THERM 16 := by
  have wf := Dev.temps_wf ts hwf
  have wfT : mapWf csrReset ((d.temps ts).setFld Reg.AON_THERM 24 6 (hottest ts).1).csr = true := Dev.setReg_csr_wf _ _ _ wf
  have wfH : mapWf csrReset (((d.temps ts).setFld Reg.AON_THERM 24 6 (hottest ts).1).setFld Reg.AON_THERM 32 16 (hottest ts).2).csr = true :=
    Dev.setReg_csr_wf _ _ _ wfT
  have wfP : mapWf csrReset ((((d.temps ts).setFld Reg.AON_THERM 24 6 (hottest ts).1).setFld Reg.AON_THERM 32 16 (hottest ts).2).setFld
      Reg.AON_POWER 0 16 power).csr = true := Dev.setReg_csr_wf _ _ _ wfH
  have width : 2 ^ 16 = 65536 := by decide
  rw [Dev.sensed_eq]
  refine ⟨Dev.setReg_csr_wf _ _ _ wfP, ?_, fun k hk => ?_, ?_, ?_⟩
  · rw [Dev.fld_setFld_beside _ wfP _ _ (by decide) (.inl (by decide)), Dev.fld_setFld_same _ _ _ wfH (by decide), width]
  · have power_ : Reg.AON_TEMP (k / 4) ≠ Reg.AON_POWER := by rw [Reg.AON_TEMP, Reg.AON_POWER]; omega
    have therm : Reg.AON_TEMP (k / 4) ≠ Reg.AON_THERM := by rw [Reg.AON_TEMP, Reg.AON_THERM]; omega
    rw [Dev.fld_setFld_other _ _ _ _ _ _ power_, Dev.fld_setFld_other _ _ _ _ _ _ power_, Dev.fld_setFld_other _ _ _ _ _ _ therm,
      Dev.fld_setFld_other _ _ _ _ _ _ therm, Dev.fld, Dev.temps_reg ts hwf (by omega), fieldOf_tempWord ts _ (Nat.mod_lt k (by decide)),
      Nat.div_add_mod, reading, if_pos hk]
  · rw [Dev.fld_setFld_other _ _ _ _ _ _ (by decide), Dev.fld_setFld_other _ _ _ _ _ _ (by decide), Dev.fld_setFld_same _ _ _ wfT (by decide), width]
  · have temps : (d.temps ts).reg Reg.AON_THERM = d.reg Reg.AON_THERM := by
      rw [Dev.reg, Dev.temps_csr, mapGet_mapSets_other fun k _ => by rw [Reg.AON_THERM, Reg.AON_TEMP]; omega, Dev.reg]
    rw [Dev.setFld, Dev.bit_setReg_other _ _ (by decide), Dev.setFld, Dev.bit_setReg_other _ _ (by decide),
      Dev.bit_setFld _ wfT _ _ _ _ (by decide), Dev.bit_setFld _ wf _ _ _ _ (by decide), Dev.bit, temps]
    rfl

end Sensed

/-! #### Runs of hot samples -/

/-- No sensor at 105 degrees, no run begins. -/
theorem hotRuns_cool {ts : List Nat} (h : ∀ k, k < 34 → toSigned 16 (ts.getD k 0) < 1680) : hotRuns ts [] = [] := by
  have step : ∀ l : List Nat, (∀ k ∈ l, k < 34) → mapSets (fun _ => 0) (fun k => k)
      (fun k => if 1680 ≤ toSigned 16 (ts.getD k 0) then mapGet (fun _ => 0) [] k + 1 else 0) l [] = [] := by
    intro l hl
    induction l with
    | nil => rfl
    | cons k l ih =>
      have cool : ¬ 1680 ≤ toSigned 16 (ts.getD k 0) := Int.not_le.2 (h k (hl k List.mem_cons_self))
      have none_ : mapSet (fun _ => 0) ([] : SMap Nat) k (if 1680 ≤ toSigned 16 (ts.getD k 0) then mapGet (fun _ => 0) [] k + 1 else 0) = [] := by
        rw [if_neg cool]
        rfl
      rw [mapSets, List.foldl_cons, none_]
      exact ih fun i hi => hl i (List.mem_cons_of_mem k hi)
  exact step _ fun k hk => by
    rw [mem_upFrom] at hk
    omega

/-- A fourth hot sample in a row of one sensor. -/
theorem hotRuns_fourth {ts : List Nat} {k : Nat} (hk : k < 34) (h : 1680 ≤ toSigned 16 (ts.getD k 0)) :
    (hotRuns ts [(k, 3)]).any (fun e => decide (4 ≤ e.2)) = true := by
  have four : mapGet (fun _ => 0) (hotRuns ts [(k, 3)]) k = 4 := by
    refine (mapGet_mapSets_same (o := fun k => k) (fun _ _ h => h) rfl (mem_upFrom.2 ⟨Nat.zero_le k, by omega⟩)).trans ?_
    rw [if_pos h, mapGet, mapFind, if_pos rfl, Option.getD_some]
  exact List.any_eq_true.2 ⟨(k, 4), mem_of_mapGet four (by decide), rfl⟩

theorem Dev.countHot_keeps (e : Dev) (hots : SMap Nat) : (e.countHot hots).clock = e.clock ∧ (e.countHot hots).csr = e.csr := ⟨rfl, rfl⟩

theorem Dev.countHot_hots (e : Dev) (hots : SMap Nat) : (e.countHot hots).aon.hots = hots := rfl

theorem Dev.countHot_fld (e : Dev) (hots : SMap Nat) (o lo w : Nat) : (e.countHot hots).fld o lo w = e.fld o lo w := by
  rw [Dev.fld, Dev.reg_of_csr (e.countHot_keeps hots).2, Dev.fld]

theorem Dev.coldWait_of_clock {d e : Dev} (h : e.clock = d.clock) : e.boot.coldWait = d.boot.coldWait := congrArg (·.2.2) h

/-- A cool sample stores its registers alone. -/
theorem Dev.sample_cool {d : Dev} {ts : List Nat} (power : Nat) (hh : d.aon.hots = []) (hc : d.boot.coldWait = false)
    (h : ∀ k, k < 34 → toSigned 16 (ts.getD k 0) < 1680) : d.sample ts power = (d.sensed ts power).countHot [] := by
  have wait : ((d.sensed ts power).countHot []).boot.coldWait = false :=
    (Dev.coldWait_of_clock ((Dev.countHot_keeps _ []).1.trans (d.sensed_clock ts power))).trans hc
  rw [Dev.sample_eq, Dev.sensed_aon, hh, hotRuns_cool h]
  simp only [Dev.coolDown, List.any_nil, Bool.false_and, Bool.false_eq_true, if_false, wait]

/-- The fourth hot sample in a row shuts the package down. -/
theorem Dev.sample_hot {d : Dev} {ts : List Nat} {k : Nat} (power : Nat) (hwf : mapWf csrReset d.csr = true) (hh : d.aon.hots = [(k, 3)])
    (hk : k < 34) (hc : d.boot.coldWait = false) (h : 1680 ≤ toSigned 16 (ts.getD k 0)) (ht : d.bit Reg.AON_THERM 16 = false) :
    d.sample ts power = ((d.sensed ts power).countHot (hotRuns ts [(k, 3)])).thermalOff := by
  have clock := (Dev.countHot_keeps (d.sensed ts power) (hotRuns ts [(k, 3)])).1.trans (d.sensed_clock ts power)
  have wait : ((d.sensed ts power).countHot (hotRuns ts [(k, 3)])).thermalOff.boot.coldWait = false :=
    (Dev.coldWait_of_clock ((Dev.thermalOff_clock _).trans clock)).trans hc
  obtain ⟨-, -, -, -, therm⟩ := Dev.sensed_fields ts power hwf
  have bit : ((d.sensed ts power).countHot (hotRuns ts [(k, 3)])).bit Reg.AON_THERM 16 = false := by
    rw [Dev.bit, Dev.reg_of_csr (Dev.countHot_keeps _ _).2]
    exact therm.trans ht
  rw [Dev.sample_eq, Dev.sensed_aon, hh]
  simp only [Dev.coolDown, hotRuns_fourth hk h, bit, Bool.not_false, Bool.and_self, if_true, wait, Bool.false_and, Bool.false_eq_true, if_false]

end Sys2Proof.Machine


namespace Sys2Proof.Machine

/-! ### PLLs, telemetry and scrubbing -/

/-- The hub PLL loses lock: what is active freezes. -/
def Dev.hubLost (d : Dev) : Dev :=
  ((({ d with hubLocked := false } : Dev).log 6 1 0xFF none 0 0).freezeActive 0xB 0xFF 0 allCtxs).unsync

theorem Dev.hubLocked_of_clock {d e : Dev} (h : e.clock = d.clock) : e.hubLocked = d.hubLocked := congrArg (·.2.1) h

theorem Dev.hubLost_frozen {d : Dev} (hwf : d.tablesWf = true) :
    d.hubLost.hubLocked = false ∧ ∀ x, x < 8 → (d.ctx x).state.active = true → (d.hubLost.ctx x).state = .frozen := by
  have clock := (({ d with hubLocked := false } : Dev).log 6 1 0xFF none 0 0).freezeActive_clock 0xB 0xFF 0 allCtxs
  have logged := ({ d with hubLocked := false } : Dev).log_clock 6 1 0xFF none 0 0
  have ctxs := ({ d with hubLocked := false } : Dev).log_ctxs 6 1 0xFF none 0 0
  have same : ∀ x, (({ d with hubLocked := false } : Dev).log 6 1 0xFF none 0 0).ctx x = d.ctx x := fun x => by
    rw [Dev.ctx, ctxs, Dev.ctx]
  have unsync : ∀ e : Dev, e.unsync.hubLocked = e.hubLocked ∧ e.unsync.ctxs = e.ctxs := fun _ => ⟨rfl, rfl⟩
  refine ⟨?_, fun x hx ha => ?_⟩
  · rw [Dev.hubLost, (unsync _).1]
    exact (Dev.hubLocked_of_clock (clock.trans logged)).trans rfl
  · rw [Dev.hubLost, Dev.ctx, (unsync _).2]
    exact Dev.freezeActive_frozen (by rw [ctxs]; exact d.ctxs_rise hwf) (.inr ⟨mem_upFrom.2 ⟨Nat.zero_le x, by omega⟩, by rw [same]; exact ha⟩)

theorem Dev.teleBody_length (d : Dev) : d.teleBody.length = 128 := by
  simp only [Dev.teleBody, List.length_append, leBytes_length, List.length_flatMap, List.length_cons, List.length_nil]
  decide

/-- A telemetry packet, when its period has passed. -/
def Dev.telemetry (d : Dev) : Dev :=
  let ms := d.fld Reg.BUR_FM 32 16
  if ms = 0 || d.boot.slot.isNone || d.time.toNat < d.aon.telLast + ms * 1600000 then d
  else
    ({ d with aon := { d.aon with telLast := d.time.toNat } } : Dev).inject
      { ty := 0x1B, vc := 7, dst := d.fld Reg.BUR_FM 16 16, src := d.node, pkey := 0xFFFF, len := 8 } d.teleBody false

section Scrub

variable {d : Dev} {a : Nat} {e : Ecc}

theorem Dev.scrub_open (hin : inHbm a 1 = true ∨ d.inCap a 1 = true ∨ inSpad a 1 = true)
    (h : d.windowOpen (scrubWindow a).1 (scrubWindow a).2 = true) :
    d.scrub a e = (d.eccEvent e (eccLane a) (a / poisonUnit a * poisonUnit a)).declare := by
  have covered : (inHbm a 1 || d.inCap a 1 || inSpad a 1) = true := by
    simp only [Bool.or_eq_true, or_assoc, hin]
  simp only [Dev.scrub, covered, h, Bool.not_true, Bool.or_self, Bool.false_eq_true, if_false]

theorem Dev.scrub_shut (h : d.windowOpen (scrubWindow a).1 (scrubWindow a).2 = false) : d.scrub a e = d := by
  simp only [Dev.scrub, h, Bool.not_false, Bool.or_true, if_true]

end Scrub

/-! ### The obligation -/

section Clauses

variable {d : Dev} {src : Master}

/-- Commands of PWR_DOMAIN_CTRL that the register takes. -/
theorem becomes_domain {w : Word} (hr : d.refusal src Reg.PWR_DOMAIN_CTRL true = none) {e : Dev} :
    (d.wDomain (w ||| 0x100) = e → Becomes (.pwrDomainOff src w) d e) ∧ (d.wDomain (w ||| 0x200) = e → Becomes (.pwrDomainOn src w) d e) ∧
      (d.wDomain (w ||| 0x400) = e → Becomes (.pwrDomainReset src w) d e) :=
  ⟨fun he => becomes_of_run (f := (·.guard src Reg.PWR_DOMAIN_CTRL (·.wDomain (w ||| 0x100)))) (fun _ => rfl) ((d.guard_of_passes hr _).trans he),
    fun he => becomes_of_run (f := (·.guard src Reg.PWR_DOMAIN_CTRL (·.wDomain (w ||| 0x200)))) (fun _ => rfl) ((d.guard_of_passes hr _).trans he),
    fun he => becomes_of_run (f := (·.guard src Reg.PWR_DOMAIN_CTRL (·.wDomain (w ||| 0x400)))) (fun _ => rfl) ((d.guard_of_passes hr _).trans he)⟩

/-- A write of AON_OP by the host, and one while an operation runs. -/
theorem Dev.wAonOp_host {w : Word} : d.wAonOp .host w = d.logRefusal 4 Reg.AON_OP := by
  rw [Dev.wAonOp, if_pos rfl]

theorem Dev.wAonOp_busy {w : Word} (hs : src ≠ .host) (hb : d.bit Reg.AON_OP_STATUS 16 = true) : d.wAonOp src w = d.logDiscard Reg.AON_OP := by
  rw [Dev.wAonOp, if_neg hs, if_pos hb]

/-- The end of the operation that runs. -/
def Dev.aonComplete (d : Dev) : Dev :=
  match d.aon.op with
  | none => d
  | some o =>
    if d.aonEnded o then
      ({ d with aon := { d.aon with op := none } }.setFld Reg.AON_OP_STATUS 8 8 o.code).setBit Reg.AON_OP_STATUS 16 false
    else d

theorem Dev.aonComplete_of {o : AonOp} (ho : d.aon.op = some o) : d.aonComplete = if d.aonEnded o then
    ({ d with aon := { d.aon with op := none } }.setFld Reg.AON_OP_STATUS 8 8 o.code).setBit Reg.AON_OP_STATUS 16 false else d := by
  simp only [Dev.aonComplete, ho]

/-- The operations of the always-on controller that begin while none runs. -/
theorem becomes_aonOps (hr : d.refusal src Reg.AON_OP true = none) (hs : src ≠ .host) (hb : d.bit Reg.AON_OP_STATUS 16 = false) :
    (∀ x, x < 8 → (d.ctx x).state.active = true → Becomes (.aonTeardown src x) d
      (((((d.aonShown 1).setBit Reg.AON_OP_STATUS 17 false).freeze x 0xA 0 0 0 0 0).endHold x).aonRuns 1 x 0)) ∧
    (∀ n, n < 32 →
      Becomes (.linkDisable src n) d (({ d.aonShown 2 with linkOff := mapSet (fun _ => false) d.linkOff n true }.portDown n).aonRuns 2 n 0) ∧
      Becomes (.linkEnable src n) d ({ d.aonShown 3 with linkOff := mapSet (fun _ => false) d.linkOff n false }.trainPorts.aonRuns 3 n 0)) ∧
    (∀ n, n < 27 → (n ≠ 26 → Becomes (.domainReset src n) d (((((d.aonShown 4).freezeUsers n).domOff n).rise n).aonRuns 4 n 0)) ∧
      Becomes (.domainOff src n) d (((d.aonShown 5).aonOff n).aonRuns 5 n 0) ∧
      ((∀ k, prereq n = some k → (d.aonShown 6).domOn k = true) → (d.aonShown 6).bit Reg.AON_THERM 16 = false →
        Becomes (.domainOn src n) d (((d.aonShown 6).rise n).aonRuns 6 n 0))) ∧
    Becomes (.quote src) d ((d.aonShown 7).quote.aonRuns 7 0 0) ∧ Becomes (.thermalShutdown src) d ((d.aonShown 8).thermalOff.aonRuns 8 0 0) ∧
    ((d.aonShown 9).anyAt 85 = false → Becomes (.coldReset src) d ((d.aonShown 9).aonRuns 9 0 0).coldReset) := by
  have shown : ∀ op, (d.aonShown op).clock = d.clock := fun _ => rfl
  have endHold : ∀ (e : Dev) x, (e.endHold x).clock = e.clock := fun _ _ => rfl
  refine ⟨fun x hx ha => ?_, fun n hn => ⟨?_, ?_⟩, fun n hn => ⟨fun h26 => ?_, ?_, fun hp ht => ?_⟩, ?_, ?_, fun hcool => ?_⟩
  · have cleared : ((d.aonShown 1).setBit Reg.AON_OP_STATUS 17 false).clock = d.clock := rfl
    exact becomes_aonOp hr (fun _ => rfl) (Dev.wAonOp_of hs hb (by decide) (by omega) (by decide) (Dev.aonRun_teardown hx ha)
      ((endHold _ x).trans ((Dev.freeze_clock ..).trans cleared)))
  · exact becomes_aonOp hr (fun _ => rfl) (Dev.wAonOp_of hs hb (by decide) (by omega) (by decide) (Dev.aonRun_port hn).1
      ((Dev.portDown_clock _ hn).trans rfl))
  · exact becomes_aonOp hr (fun _ => rfl) (Dev.wAonOp_of hs hb (by decide) (by omega) (by decide) (Dev.aonRun_port hn).2
      ((Dev.trainPorts_clock _).trans rfl))
  · exact becomes_aonOp hr (fun _ => rfl) (Dev.wAonOp_of hs hb (by decide) (by omega) (by decide) ((Dev.aonRun_domain hn).1 h26)
      ((Dev.rise_clock _ n).trans ((Dev.domOff_clock _ n).trans ((Dev.freezeUsers_clock _ n).trans (shown 4)))))
  · exact becomes_aonOp hr (fun _ => rfl) (Dev.wAonOp_of hs hb (by decide) (by omega) (by decide) (Dev.aonRun_domain hn).2.1
      ((Dev.aonOff_clock _ n).trans (shown 5)))
  · exact becomes_aonOp hr (fun _ => rfl) (Dev.wAonOp_of hs hb (by decide) (by omega) (by decide) ((Dev.aonRun_domain hn).2.2 hp ht)
      ((Dev.rise_clock _ n).trans (shown 6)))
  · exact becomes_aonOp hr (fun _ => rfl) (Dev.wAonOp_of hs hb (by decide) (by decide) (by decide) rfl ((Dev.quote_clock _).trans (shown 7)))
  · exact becomes_aonOp hr (fun _ => rfl) (Dev.wAonOp_of hs hb (by decide) (by decide) (by decide) rfl ((Dev.thermalOff_clock _).trans (shown 8)))
  · exact becomes_aonOp hr (fun _ => rfl) (Dev.wAonOp_cold hs hb hcool)

end Clauses

/-- Settles O60: a write is taken apart by the branch of its rule that the premises choose; what a clause says of a later block rests on
what powering domains off and freezing contexts leave as it was. -/
theorem powerControl : Obligations.PowerControl := by
  unfold Obligations.PowerControl
  intro d src s ds
  refine ⟨fun w hr => ⟨fun h28 => ⟨(becomes_domain hr).1 (Dev.wDomain_runs h28), (becomes_domain hr).2.1 (Dev.wDomain_runs h28),
      (becomes_domain hr).2.2 (Dev.wDomain_runs h28)⟩, fun h28 => ⟨fun hc => (becomes_domain hr).1 (Dev.wDomain_off h28 hc (bitOf_or_own w).1),
      fun hc => (becomes_domain hr).1 (Dev.wDomain_refused h28 (by rw [(bitOf_or_own w).1, Bool.not_true, Bool.false_and, Bool.false_and]) hc),
      fun hc hs => (becomes_domain hr).2.1 (Dev.wDomain_on h28 hc (bitOf_or_own w).2.1 hs),
      fun hc hs => (becomes_domain hr).2.2 (Dev.wDomain_reset h28 hc (bitOf_or_own w).2.2 hs)⟩⟩,
    fun n => ⟨Dev.domCode_range, fun hn h24 h26 => ⟨Dev.domCode_held hn h24 h26, Dev.domCode_dependent hn h24 h26,
      fun k => Dev.domCode_prereq hn h24 h26⟩⟩,
    fun hr => ⟨fun hs => ?_, fun hs hb => becomes_aonOp hr (fun _ => rfl) (Dev.wAonOp_busy hs hb), fun hs hb => ?_⟩,
    fun hwf => Dev.thermalOff_off d (d.csr_wf hwf),
    fun o ho => ⟨fun he => ?_, fun he => ?_, fun h1 hl ht => ⟨List.mem_filter.2 ⟨by decide, Dev.uses_hub hl⟩,
      becomes_of_run (f := Dev.escalate) (fun _ => rfl) (Dev.escalate_of ho h1 hl ht)⟩⟩,
    fun w hr => ⟨fun hm => ?_, fun hm => ?_⟩,
    fun hwf => ⟨d.clockTick, becomes_of_run (f := Dev.clockTick) (fun _ => rfl) rfl, d.clockTick_of (d.csr_wf hwf)⟩,
    becomes_of_run (f := (·.setClk 600 4)) (fun _ => rfl) rfl,
    fun hb => becomes_of_run (f := fun d => if d.braked then ({ d with aon := { d.aon with fT := 600, fP := 600 } } : Dev).setClk 600 0 else d)
      (fun _ => rfl) (if_pos hb),
    fun ts power hwf hh hc hcool => ?_,
    fun ts power k hwf hh hk hc hhot ht => ?_,
    fun hl hwf => ⟨d.hubLost, ?_, d.hubLost_frozen hwf⟩,
    fun hl hs => becomes_of_run (f := fun d => if d.hubLocked || d.boot.stage < 2 then d else ({ d with hubLocked := true } : Dev).unsync)
      (fun _ => rfl) (if_neg (by rw [hl, Bool.false_or, decide_eq_true_eq]; omega)),
    fun g hg hp => becomes_of_run (f := fun d => if g < 16 && d.pll g = .locked then (d.setPll g .locking).log 6 2 0xFF none g 0 else d)
      (fun _ => rfl) (if_pos (by rw [hp, decide_eq_true hg]; rfl)),
    fun hms hslot ht => ⟨?_, d.teleBody_length⟩, fun a e weak hin => ⟨fun hw => ?_, fun hw => ?_⟩⟩
  · subst hs
    exact becomes_aonOp hr (fun _ => rfl) Dev.wAonOp_host
  · intro b runs
    have shown : b = d.aonShown := rfl
    have running : runs = Dev.aonRuns := rfl
    clear_value b runs
    subst shown running
    exact becomes_aonOps hr hs hb
  · exact becomes_of_run (f := Dev.aonComplete) (fun _ => rfl) ((Dev.aonComplete_of ho).trans (if_pos he))
  · exact becomes_of_run (f := Dev.aonComplete) (fun _ => rfl) ((Dev.aonComplete_of ho).trans (if_neg (Bool.eq_false_iff.1 he)))
  · exact becomes_of_run (f := (·.guard .bureau Reg.AON_MR_EXTC (·.wMrExtend .bureau (w ||| 8)))) (fun _ => rfl)
      ((d.guard_of_passes hr _).trans (Dev.wMrExtend_high (bitOf_or_eight w) hm))
  · exact becomes_of_run (f := (·.guard .bureau Reg.AON_MR_EXTC (·.wMrExtend .bureau (w ||| 8)))) (fun _ => rfl)
      ((d.guard_of_passes hr _).trans (Dev.wMrExtend_low (bitOf_or_eight w) hm))
  · obtain ⟨-, pow, temps, therm, -⟩ := Dev.sensed_fields ts power (d.csr_wf hwf)
    exact ⟨_, becomes_of_run (f := (·.sample ts power)) (fun _ => rfl) (Dev.sample_cool power hh hc hcool), Dev.countHot_hots _ _,
      (Dev.countHot_fld ..).trans pow, fun k hk => (Dev.countHot_fld ..).trans (temps k hk), (Dev.countHot_fld ..).trans therm⟩
  · obtain ⟨wf, -⟩ := Dev.sensed_fields ts power (d.csr_wf hwf)
    obtain ⟨trip, -, off⟩ := ((d.sensed ts power).countHot (hotRuns ts [(k, 3)])).thermalOff_off wf
    exact ⟨_, becomes_of_run (f := (·.sample ts power)) (fun _ => rfl) (Dev.sample_hot power (d.csr_wf hwf) hh hk hc hhot ht), trip, off⟩
  · exact becomes_of_run (f := fun d => if !d.hubLocked then d else d.hubLost) (fun _ => rfl) (if_neg (by rw [hl]; decide))
  · have mute : (d.fld Reg.BUR_FM 32 16 = 0 || d.boot.slot.isNone || d.time.toNat < d.aon.telLast + d.fld Reg.BUR_FM 32 16 * 1600000) = false := by
      rw [decide_eq_false (Nat.pos_iff_ne_zero.1 hms), decide_eq_false (Nat.not_lt.2 ht), ← Option.not_isSome, hslot]
      rfl
    exact becomes_of_run (f := Dev.telemetry) (fun _ => rfl) (if_neg (Bool.eq_false_iff.1 mute))
  · exact becomes_of_run (f := (·.scrub a e)) (fun _ => rfl) (Dev.scrub_open hin hw)
  · exact becomes_of_run (f := (·.scrub a e)) (fun _ => rfl) (Dev.scrub_shut hw)

end Sys2Proof.Machine
